-- ==== Sys2Proof/Word.lean ====
section
/-!
DEFINITION. The words of the ZV-1024-H and the closed sets of names its instruction fields draw from: register
numbers, formats, rounding modes, scopes, spaces and variants, each with the code the manual gives it.
-/

namespace Sys2Proof

/-- One byte of memory (R5). -/
abbrev Byte := BitVec 8
/-- A 64-bit scalar (R62). -/
abbrev Word := BitVec 64
/-- A 512-byte vector or queue entry (R58, R66). -/
abbrev Vec := BitVec 4096
/-- One 32-bit parcel (R29). -/
abbrev Parcel := BitVec 32

/-- Scalar register number s0 to s63 (R34). -/
abbrev SReg := BitVec 6
/-- Predicate number p0 to p7 (R34). -/
abbrev PReg := BitVec 3
/-- Mask number m0 to m15 (R34). -/
abbrev MReg := BitVec 4
/-- Shape register number sh0 to sh15 (R34). -/
abbrev ShReg := BitVec 4
/-- Accumulator number acc0 to acc7 (R34). -/
abbrev AccReg := BitVec 3
/-- Tile number t0 to t15 (R34). -/
abbrev TileReg := BitVec 4
/-- Weight slot number wb0 to wb15 (R212). -/
abbrev WSlot := BitVec 4
/-- Operand queue number q0 to q7 (R34). -/
abbrev QReg := BitVec 3
/-- Vector register number v0 to v55 (R34). -/
abbrev VReg := Fin 56

/-- A vector operand: a register or an operand queue (R34, R66). -/
inductive VOp where
  | reg (n : VReg)
  | queue (q : QReg)
deriving DecidableEq, Repr

/-- A tile operand: a tile or an operand queue (R212). -/
inductive TOp where
  | tile (t : TileReg)
  | queue (q : QReg)
deriving DecidableEq, Repr

/-- The guard of an instruction: predicate G, negated when GN is 1 (R37). -/
structure Guard where
  p : PReg
  neg : Bool
deriving DecidableEq, Repr

/-- The never-performed guard, which is illegal (R37). -/
def Guard.never (g : Guard) : Bool := g.p == 0 && g.neg

/-- The unguarded form (R37). -/
def Guard.always : Guard := ⟨0, false⟩

/-- The format codes of R46. -/
inductive Fmt where
  | int4 | uint4 | int8 | uint8 | int16 | uint16 | int32 | uint32 | int64
  | e2m1 | e4m3 | e5m2 | fp16 | bf16 | fp32 | l16 | cb3 | e8m0 | ue4m3
deriving DecidableEq, Repr

def Fmt.code : Fmt → BitVec 6
  | .int4 => 0x01 | .uint4 => 0x02 | .int8 => 0x03 | .uint8 => 0x04 | .int16 => 0x05 | .uint16 => 0x06
  | .int32 => 0x07 | .uint32 => 0x08 | .int64 => 0x09 | .e2m1 => 0x10 | .e4m3 => 0x13 | .e5m2 => 0x14
  | .fp16 => 0x15 | .bf16 => 0x16 | .fp32 => 0x17 | .l16 => 0x20 | .cb3 => 0x21 | .e8m0 => 0x28 | .ue4m3 => 0x29

def Fmt.ofCode (c : BitVec 6) : Option Fmt :=
  match c.toNat with
  | 0x01 => some .int4 | 0x02 => some .uint4 | 0x03 => some .int8 | 0x04 => some .uint8
  | 0x05 => some .int16 | 0x06 => some .uint16 | 0x07 => some .int32 | 0x08 => some .uint32
  | 0x09 => some .int64 | 0x10 => some .e2m1 | 0x13 => some .e4m3 | 0x14 => some .e5m2
  | 0x15 => some .fp16 | 0x16 => some .bf16 | 0x17 => some .fp32 | 0x20 => some .l16
  | 0x21 => some .cb3 | 0x28 => some .e8m0 | 0x29 => some .ue4m3
  | _ => none

/-- Element width in bits (R78, R80, R97, R98, R100, R102). -/
def Fmt.width : Fmt → Nat
  | .int4 | .uint4 | .e2m1 => 4
  | .int8 | .uint8 | .e4m3 | .e5m2 | .e8m0 | .ue4m3 => 8
  | .int16 | .uint16 | .fp16 | .bf16 | .l16 => 16
  | .int32 | .uint32 | .fp32 => 32
  | .int64 => 64
  | .cb3 => 3

/-- Class I of R172. -/
def Fmt.classI : Fmt → Bool
  | .int4 | .uint4 | .int8 | .uint8 | .int16 | .uint16 | .int32 | .uint32 => true
  | _ => false

/-- Class F of R172. -/
def Fmt.classF : Fmt → Bool
  | .fp16 | .bf16 | .fp32 => true
  | _ => false

/-- The floating-point formats of class V (R175). -/
def Fmt.floating : Fmt → Bool
  | .fp16 | .bf16 | .fp32 | .e2m1 | .e4m3 | .e5m2 => true
  | _ => false

/-- Class V of R172. -/
def Fmt.classV (f : Fmt) : Bool := f.classI || f.floating
/-- Classes I and F together (R175). -/
def Fmt.classIF (f : Fmt) : Bool := f.classI || f.classF

/-- Rounding modes (R31). -/
inductive Rm where
  | rne | rtz | rdn | rup | sr
deriving DecidableEq, Repr

def Rm.code : Rm → BitVec 3
  | .rne => 0 | .rtz => 1 | .rdn => 2 | .rup => 3 | .sr => 4

def Rm.ofCode (c : BitVec 3) : Rm :=
  match c.toNat with
  | 1 => .rtz | 2 => .rdn | 3 => .rup | 4 => .sr | _ => .rne

/-- Scopes with an SC code (R18). -/
inductive Scope where
  | co | qd | di | pk | pd
deriving DecidableEq, Repr

def Scope.code : Scope → BitVec 3
  | .co => 0 | .qd => 1 | .di => 2 | .pk => 3 | .pd => 4

def Scope.ofCode (c : BitVec 3) : Scope :=
  match c.toNat with
  | 1 => .qd | 2 => .di | 3 => .pk | 4 => .pd | _ => .co

/-- Space codes (R141, R239). -/
inductive Space where
  | virt | vault | ns | reg
deriving DecidableEq, Repr

def Space.code : Space → BitVec 2
  | .virt => 0 | .vault => 1 | .ns => 2 | .reg => 3

def Space.ofCode (c : BitVec 2) : Space :=
  match c.toNat with
  | 1 => .vault | 2 => .ns | 3 => .reg | _ => .virt

/-- Tile owner codes (R267). -/
inductive Owner where
  | thread | ce | xe | wsu | res | sys
deriving DecidableEq, Repr

def Owner.code : Owner → BitVec 3
  | .thread => 0 | .ce => 1 | .xe => 2 | .wsu => 3 | .res => 4 | .sys => 7

def Owner.ofCode (c : BitVec 3) : Owner :=
  match c.toNat with
  | 1 => .ce | 2 => .xe | 3 => .wsu | 4 => .res | 7 => .sys | _ => .thread

/-- The control registers of R70. -/
inductive Csr where
  | status | core | ctx | viewV | viewT | viewAcc | seed | ctr | frec | dmap | lat
deriving DecidableEq, Repr

def Csr.code : Csr → BitVec 12
  | .status => 0x000 | .core => 0x001 | .ctx => 0x002 | .viewV => 0x010 | .viewT => 0x011 | .viewAcc => 0x012
  | .seed => 0x020 | .ctr => 0x021 | .frec => 0x030 | .dmap => 0x040 | .lat => 0x041

def Csr.ofCode (c : BitVec 12) : Option Csr :=
  match c.toNat with
  | 0x000 => some .status | 0x001 => some .core | 0x002 => some .ctx | 0x010 => some .viewV
  | 0x011 => some .viewT | 0x012 => some .viewAcc | 0x020 => some .seed | 0x021 => some .ctr
  | 0x030 => some .frec | 0x040 => some .dmap | 0x041 => some .lat
  | _ => none

/-- Variants of ADD, SUB and MUL (R114). -/
inductive ArithVar where
  | x | w | wu | u
deriving DecidableEq, Repr
def ArithVar.code : ArithVar → BitVec 8
  | .x => 0 | .w => 1 | .wu => 2 | .u => 3
def ArithVar.ofCode (c : BitVec 8) : ArithVar :=
  match c.toNat with
  | 1 => .w | 2 => .wu | 3 => .u | _ => .x

/-- Variants of MULH (R114). -/
inductive MulhVar where
  | s | u | su
deriving DecidableEq, Repr
def MulhVar.code : MulhVar → BitVec 8
  | .s => 0 | .u => 1 | .su => 2
def MulhVar.ofCode (c : BitVec 8) : MulhVar :=
  match c.toNat with
  | 1 => .u | 2 => .su | _ => .s

/-- Variants of DIV and REM (R114). -/
inductive DivVar where
  | x | u | w | wu
deriving DecidableEq, Repr
def DivVar.code : DivVar → BitVec 8
  | .x => 0 | .u => 1 | .w => 2 | .wu => 3
def DivVar.ofCode (c : BitVec 8) : DivVar :=
  match c.toNat with
  | 1 => .u | 2 => .w | 3 => .wu | _ => .x

/-- Variants of the shifts and bit counts: 64-bit, or `.w` (R114). -/
inductive WidthVar where
  | x | w
deriving DecidableEq, Repr
def WidthVar.code : WidthVar → BitVec 8
  | .x => 0 | .w => 1
def WidthVar.ofCode (c : BitVec 8) : WidthVar :=
  match c.toNat with
  | 1 => .w | _ => .x

/-- Variants of MIN and MAX: signed, or `.u` (R114). -/
inductive SignVar where
  | s | u
deriving DecidableEq, Repr
def SignVar.code : SignVar → BitVec 8
  | .s => 0 | .u => 1
def SignVar.ofCode (c : BitVec 8) : SignVar :=
  match c.toNat with
  | 1 => .u | _ => .s

/-- Variants of the 96-bit MOVI (R118). -/
inductive MoviVar where
  | s | u | hi
deriving DecidableEq, Repr
def MoviVar.code : MoviVar → BitVec 8
  | .s => 0 | .u => 1 | .hi => 2
def MoviVar.ofCode (c : BitVec 8) : MoviVar :=
  match c.toNat with
  | 1 => .u | 2 => .hi | _ => .s

/-- Conditions of CMP (R123). -/
inductive Cond where
  | eq | ne | lt | ge | ltu | geu | le | gt | leu | gtu | any | none
deriving DecidableEq, Repr
def Cond.code : Cond → BitVec 8
  | .eq => 0 | .ne => 1 | .lt => 2 | .ge => 3 | .ltu => 4 | .geu => 5
  | .le => 6 | .gt => 7 | .leu => 8 | .gtu => 9 | .any => 10 | .none => 11
def Cond.ofCode (c : BitVec 8) : Cond :=
  match c.toNat with
  | 1 => .ne | 2 => .lt | 3 => .ge | 4 => .ltu | 5 => .geu | 6 => .le
  | 7 => .gt | 8 => .leu | 9 => .gtu | 10 => .any | 11 => .none | _ => .eq

/-- Widths of LDS (R132). -/
inductive LdW where
  | d | w | wu | h | hu | b | bu
deriving DecidableEq, Repr
def LdW.code : LdW → BitVec 8
  | .d => 0 | .w => 1 | .wu => 2 | .h => 3 | .hu => 4 | .b => 5 | .bu => 6
def LdW.ofCode (c : BitVec 8) : LdW :=
  match c.toNat with
  | 1 => .w | 2 => .wu | 3 => .h | 4 => .hu | 5 => .b | 6 => .bu | _ => .d

/-- Widths of STS (R132). -/
inductive StW where
  | d | w | h | b
deriving DecidableEq, Repr
def StW.code : StW → BitVec 8
  | .d => 0 | .w => 1 | .h => 2 | .b => 3
def StW.ofCode (c : BitVec 8) : StW :=
  match c.toNat with
  | 1 => .w | 2 => .h | 3 => .b | _ => .d

/-- Conditions of VCMP (R180). -/
inductive VCond where
  | eq | ne | lt | le | gt | ge | un | ord
deriving DecidableEq, Repr
def VCond.code : VCond → BitVec 6
  | .eq => 0 | .ne => 1 | .lt => 2 | .le => 3 | .gt => 4 | .ge => 5 | .un => 6 | .ord => 7
def VCond.ofCode (c : BitVec 6) : VCond :=
  match c.toNat with
  | 1 => .ne | 2 => .lt | 3 => .le | 4 => .gt | 5 => .ge | 6 => .un | 7 => .ord | _ => .eq

/-- Order modifiers of the scalar atomics (R281). -/
inductive Order where
  | rlx | acq | rel | ar
deriving DecidableEq, Repr
def Order.code : Order → BitVec 2
  | .rlx => 0 | .acq => 1 | .rel => 2 | .ar => 3
def Order.ofCode (c : BitVec 2) : Order :=
  match c.toNat with
  | 1 => .acq | 2 => .rel | 3 => .ar | _ => .rlx

/-- Conditions of WAITM (R281). -/
inductive WCond where
  | eq | ne | geu | ltu | any | none
deriving DecidableEq, Repr
def WCond.code : WCond → BitVec 3
  | .eq => 0 | .ne => 1 | .geu => 2 | .ltu => 3 | .any => 4 | .none => 5
def WCond.ofCode (c : BitVec 3) : WCond :=
  match c.toNat with
  | 1 => .ne | 2 => .geu | 3 => .ltu | 4 => .any | 5 => .none | _ => .eq

/-- Personalities of a link group (R24, R396). -/
inductive Pers where
  | off | cxl | ual | uet
deriving DecidableEq, Repr
def Pers.code : Pers → BitVec 2
  | .off => 0 | .cxl => 1 | .ual => 2 | .uet => 3
def Pers.ofCode (c : BitVec 2) : Pers :=
  match c.toNat with
  | 1 => .cxl | 2 => .ual | 3 => .uet | _ => .off

/-- The field value of a vector operand (R34). -/
def VOp.code : VOp → BitVec 6
  | .reg n => BitVec.ofNat 6 n.val
  | .queue q => BitVec.ofNat 6 (56 + q.toNat)
def VOp.ofCode (c : BitVec 6) : VOp :=
  if h : c.toNat < 56 then .reg ⟨c.toNat, h⟩ else .queue (c.setWidth 3)

/-- The field value of a tile operand (R212). -/
def TOp.code : TOp → BitVec 6
  | .tile t => t.setWidth 6
  | .queue q => BitVec.ofNat 6 (56 + q.toNat)
def TOp.ofCode (c : BitVec 6) : TOp :=
  if c.toNat < 56 then .tile (c.setWidth 4) else .queue (c.setWidth 3)

/-- The wide-side alignment rule of R182: a register is a multiple of `r`, a queue has no rule. -/
def VOp.aligned (v : VOp) (r : Nat) : Bool :=
  match v with
  | .reg n => n.val % r == 0
  | .queue _ => true

end Sys2Proof
end

