-- ==== Sys2Proof/Syntax.lean ====
section
/-!
DEFINITION. The one instruction type: a constructor for every row of the opcode table, in the table's order.
Encoded forms carry the operands of their chapter's form table; event rows (spec file 95) carry the inputs that the
agent outside the program supplies.
-/

namespace Sys2Proof

/-- One row of the opcode table, with its operands. The docstring of each meaning cites the rule of its row. -/
inductive Instr where
  | add (g : Guard) (x : Bool) (d a b : SReg)
  | add64 (g : Guard) (x : Bool) (v : ArithVar) (sat : Bool) (d a b : SReg)
  | add96 (g : Guard) (x : Bool) (v : ArithVar) (sat : Bool) (d a : SReg) (lit : BitVec 32)
  | sub (g : Guard) (x : Bool) (d a b : SReg)
  | sub64 (g : Guard) (x : Bool) (v : ArithVar) (sat : Bool) (d a b : SReg)
  | sub96 (g : Guard) (x : Bool) (v : ArithVar) (sat : Bool) (d a : SReg) (lit : BitVec 32)
  | mul (g : Guard) (x : Bool) (d a b : SReg)
  | mul64 (g : Guard) (x : Bool) (v : ArithVar) (sat : Bool) (d a b : SReg)
  | mul96 (g : Guard) (x : Bool) (v : ArithVar) (sat : Bool) (d a : SReg) (lit : BitVec 32)
  | mulh (g : Guard) (d a b : SReg)
  | mulh64 (g : Guard) (v : MulhVar) (d a b : SReg)
  | mulh96 (g : Guard) (v : MulhVar) (d a : SReg) (lit : BitVec 32)
  | div (g : Guard) (d a b : SReg)
  | div64 (g : Guard) (v : DivVar) (sat : Bool) (d a b : SReg)
  | div96 (g : Guard) (v : DivVar) (sat : Bool) (d a : SReg) (lit : BitVec 32)
  | rem (g : Guard) (d a b : SReg)
  | rem64 (g : Guard) (v : DivVar) (d a b : SReg)
  | rem96 (g : Guard) (v : DivVar) (d a : SReg) (lit : BitVec 32)
  | and (g : Guard) (x : Bool) (d a b : SReg)
  | and64 (g : Guard) (x : Bool) (d a b : SReg)
  | and96 (g : Guard) (x : Bool) (d a : SReg) (lit : BitVec 32)
  | or (g : Guard) (x : Bool) (d a b : SReg)
  | or64 (g : Guard) (x : Bool) (d a b : SReg)
  | or96 (g : Guard) (x : Bool) (d a : SReg) (lit : BitVec 32)
  | xor (g : Guard) (x : Bool) (d a b : SReg)
  | xor64 (g : Guard) (x : Bool) (d a b : SReg)
  | xor96 (g : Guard) (x : Bool) (d a : SReg) (lit : BitVec 32)
  | andn (g : Guard) (x : Bool) (d a b : SReg)
  | andn64 (g : Guard) (x : Bool) (d a b : SReg)
  | andn96 (g : Guard) (x : Bool) (d a : SReg) (lit : BitVec 32)
  | shl (g : Guard) (x : Bool) (d a b : SReg)
  | shl64 (g : Guard) (x : Bool) (v : WidthVar) (d a b : SReg)
  | shl96 (g : Guard) (x : Bool) (v : WidthVar) (d a : SReg) (lit : BitVec 32)
  | shr (g : Guard) (x : Bool) (d a b : SReg)
  | shr64 (g : Guard) (x : Bool) (v : WidthVar) (d a b : SReg)
  | shr96 (g : Guard) (x : Bool) (v : WidthVar) (d a : SReg) (lit : BitVec 32)
  | sra (g : Guard) (x : Bool) (d a b : SReg)
  | sra64 (g : Guard) (x : Bool) (v : WidthVar) (d a b : SReg)
  | sra96 (g : Guard) (x : Bool) (v : WidthVar) (d a : SReg) (lit : BitVec 32)
  | rol (g : Guard) (d a b : SReg)
  | rol64 (g : Guard) (v : WidthVar) (d a b : SReg)
  | rol96 (g : Guard) (v : WidthVar) (d a : SReg) (lit : BitVec 32)
  | clz (g : Guard) (d a : SReg)
  | clz64 (g : Guard) (v : WidthVar) (d a : SReg)
  | ctz (g : Guard) (d a : SReg)
  | ctz64 (g : Guard) (v : WidthVar) (d a : SReg)
  | popc (g : Guard) (d a : SReg)
  | popc64 (g : Guard) (v : WidthVar) (d a : SReg)
  | brev (g : Guard) (d a : SReg)
  | brev64 (g : Guard) (v : WidthVar) (d a : SReg)
  | min (g : Guard) (x : Bool) (d a b : SReg)
  | min64 (g : Guard) (x : Bool) (v : SignVar) (d a b : SReg)
  | min96 (g : Guard) (x : Bool) (v : SignVar) (d a : SReg) (lit : BitVec 32)
  | max (g : Guard) (x : Bool) (d a b : SReg)
  | max64 (g : Guard) (x : Bool) (v : SignVar) (d a b : SReg)
  | max96 (g : Guard) (x : Bool) (v : SignVar) (d a : SReg) (lit : BitVec 32)
  | sel (g : Guard) (x : Bool) (d a b : SReg)
  | sel64 (g : Guard) (x : Bool) (d a b : SReg) (c : PReg)
  | sel96 (g : Guard) (x : Bool) (d a : SReg) (lit : BitVec 32) (c : PReg)
  | mov (g : Guard) (x : Bool) (d a : SReg)
  | mov64 (g : Guard) (x : Bool) (d a : SReg)
  | movi (g : Guard) (x : Bool) (d : SReg) (imm : BitVec 12)
  | movi96 (g : Guard) (x : Bool) (v : MoviVar) (d : SReg) (lit : BitVec 32)
  | addi (g : Guard) (x : Bool) (d : SReg) (imm : BitVec 12)
  | lea (g : Guard) (x : Bool) (d a b : SReg)
  | lea64 (g : Guard) (x : Bool) (d a b : SReg) (c : BitVec 3)
  | lea96 (g : Guard) (x : Bool) (d a : SReg) (lit : BitVec 32) (c : BitVec 3)
  | cmp (g : Guard) (x : Bool) (d : PReg) (a b : SReg)
  | cmp64 (g : Guard) (x : Bool) (v : Cond) (d : PReg) (a b : SReg)
  | cmp96 (g : Guard) (x : Bool) (v : Cond) (d : PReg) (a : SReg) (lit : BitVec 32)
  | pand (g : Guard) (x : Bool) (d a b : PReg)
  | pand64 (g : Guard) (x : Bool) (d a b : PReg)
  | por (g : Guard) (x : Bool) (d a b : PReg)
  | por64 (g : Guard) (x : Bool) (d a b : PReg)
  | pxor (g : Guard) (x : Bool) (d a b : PReg)
  | pxor64 (g : Guard) (x : Bool) (d a b : PReg)
  | pnot (g : Guard) (x : Bool) (d a : PReg)
  | pnot64 (g : Guard) (x : Bool) (d a : PReg)
  | br (g : Guard) (off : BitVec 18)
  | jmp (g : Guard) (a : SReg)
  | jmp64 (g : Guard) (a : SReg)
  | jmp96 (g : Guard) (a : SReg) (lit : BitVec 32)
  | call (g : Guard) (off : BitVec 18)
  | ret (g : Guard) (a : SReg)
  | ret64 (g : Guard) (a : SReg)
  | loop (g : Guard) (d : SReg) (off : BitVec 12)
  | rep (step : BitVec 4) (mask : BitVec 3) (cnt : BitVec 7)
  | nop (g : Guard) (x : Bool)
  | nop64 (g : Guard) (x : Bool)
  | endTask (g : Guard)
  | endTask64 (g : Guard)
  | lds (g : Guard) (d a b : SReg)
  | lds64 (g : Guard) (v : LdW) (cl : BitVec 4) (sp : Space) (d a b : SReg)
  | lds96 (g : Guard) (v : LdW) (cl : BitVec 4) (sp : Space) (d a : SReg) (lit : BitVec 32)
  | sts (g : Guard) (d a b : SReg)
  | sts64 (g : Guard) (v : StW) (cl : BitVec 4) (sp : Space) (d a b : SReg)
  | sts96 (g : Guard) (v : StW) (cl : BitVec 4) (sp : Space) (d a : SReg) (lit : BitVec 32)
  | csrr (g : Guard) (d : SReg) (csr : Csr)
  | csrw (g : Guard) (d : SReg) (csr : Csr)
  | shld (g : Guard) (cl : BitVec 4) (sp : Space) (d : ShReg) (a b : SReg)
  | shldLit (g : Guard) (cl : BitVec 4) (sp : Space) (d : ShReg) (a : SReg) (lit : BitVec 32)
  | shst (g : Guard) (cl : BitVec 4) (sp : Space) (d : ShReg) (a b : SReg)
  | shstLit (g : Guard) (cl : BitVec 4) (sp : Space) (d : ShReg) (a : SReg) (lit : BitVec 32)
  | shset (g : Guard) (d : ShReg) (b : SReg) (c : BitVec 3)
  | shsetLit (g : Guard) (d : ShReg) (lit : BitVec 32) (c : BitVec 3)
  | shget (g : Guard) (d : SReg) (a : ShReg) (c : BitVec 3)
  | shmov (g : Guard) (d a : ShReg)
  | openR (g : Guard) (cl : BitVec 4) (d : QReg) (a : ShReg)
  | openW (g : Guard) (cl : BitVec 4) (d : QReg) (a : ShReg)
  | openG (g : Guard) (cl : BitVec 4) (d : QReg) (a b : ShReg)
  | adv (g : Guard) (d : QReg) (b : SReg)
  | advLit (g : Guard) (d : QReg) (lit : BitVec 32)
  | close (g : Guard) (d : QReg)
  | drain (g : Guard) (d : QReg)
  | pld (g : Guard) (cl : BitVec 4) (d : VReg) (a : ShReg) (b : SReg) (c : MReg)
  | pldLit (g : Guard) (cl : BitVec 4) (d : VReg) (a : ShReg) (lit : BitVec 32) (c : MReg)
  | reside (g : Guard) (d : SReg) (a : ShReg) (b : SReg) (c : MReg)
  | resideLit (g : Guard) (d : SReg) (a : ShReg) (lit : BitVec 32) (c : MReg)
  | lookahead (g : Guard) (d : QReg) (b : SReg)
  | lookaheadLit (g : Guard) (d : QReg) (lit : BitVec 32)
  | posr (g : Guard) (d : SReg) (a : QReg) (c : Fin 3)
  | qcnt (g : Guard) (d : SReg) (a : QReg)
  | vld (g : Guard) (cl : BitVec 4) (d : VReg) (a : ShReg) (b : SReg) (c : MReg)
  | vldLit (g : Guard) (cl : BitVec 4) (d : VReg) (a : ShReg) (lit : BitVec 32) (c : MReg)
  | vst (g : Guard) (cl : BitVec 4) (d : VReg) (a : ShReg) (b : SReg) (c : MReg)
  | vstLit (g : Guard) (cl : BitVec 4) (d : VReg) (a : ShReg) (lit : BitVec 32) (c : MReg)
  | scld (g : Guard) (cl : BitVec 4) (a : ShReg) (b : SReg)
  | scldLit (g : Guard) (cl : BitVec 4) (a : ShReg) (lit : BitVec 32)
  | pref (g : Guard) (a : ShReg) (b : SReg) (c : Fin 2)
  | prefLit (g : Guard) (a : ShReg) (lit : BitVec 32) (c : Fin 2)
  | vadd (g : Guard) (f : Fmt) (rm : Rm) (sat : Bool) (d a b : VOp) (c : MReg)
  | vaddLit (g : Guard) (f : Fmt) (rm : Rm) (sat : Bool) (d a : VOp) (lit : BitVec 32) (c : MReg)
  | vsub (g : Guard) (f : Fmt) (rm : Rm) (sat : Bool) (d a b : VOp) (c : MReg)
  | vsubLit (g : Guard) (f : Fmt) (rm : Rm) (sat : Bool) (d a : VOp) (lit : BitVec 32) (c : MReg)
  | vmul (g : Guard) (f : Fmt) (rm : Rm) (sat : Bool) (d a b : VOp) (c : MReg)
  | vmulLit (g : Guard) (f : Fmt) (rm : Rm) (sat : Bool) (d a : VOp) (lit : BitVec 32) (c : MReg)
  | vfma (g : Guard) (f : Fmt) (rm : Rm) (sat : Bool) (d : VReg) (a b : VOp) (c : MReg)
  | vfms (g : Guard) (f : Fmt) (rm : Rm) (sat : Bool) (d : VReg) (a b : VOp) (c : MReg)
  | vnfma (g : Guard) (f : Fmt) (rm : Rm) (sat : Bool) (d : VReg) (a b : VOp) (c : MReg)
  | vmin (g : Guard) (f : Fmt) (d a b : VOp) (c : MReg)
  | vminLit (g : Guard) (f : Fmt) (d a : VOp) (lit : BitVec 32) (c : MReg)
  | vmax (g : Guard) (f : Fmt) (d a b : VOp) (c : MReg)
  | vmaxLit (g : Guard) (f : Fmt) (d a : VOp) (lit : BitVec 32) (c : MReg)
  | vabs (g : Guard) (f : Fmt) (sat : Bool) (d a : VOp) (c : MReg)
  | vneg (g : Guard) (f : Fmt) (sat : Bool) (d a : VOp) (c : MReg)
  | vand (g : Guard) (f : Fmt) (d a b : VOp) (c : MReg)
  | vandLit (g : Guard) (f : Fmt) (d a : VOp) (lit : BitVec 32) (c : MReg)
  | vor (g : Guard) (f : Fmt) (d a b : VOp) (c : MReg)
  | vorLit (g : Guard) (f : Fmt) (d a : VOp) (lit : BitVec 32) (c : MReg)
  | vxor (g : Guard) (f : Fmt) (d a b : VOp) (c : MReg)
  | vxorLit (g : Guard) (f : Fmt) (d a : VOp) (lit : BitVec 32) (c : MReg)
  | vnot (g : Guard) (f : Fmt) (d a : VOp) (c : MReg)
  | vshl (g : Guard) (f : Fmt) (d a b : VOp) (c : MReg)
  | vshlLit (g : Guard) (f : Fmt) (d a : VOp) (lit : BitVec 32) (c : MReg)
  | vshr (g : Guard) (f : Fmt) (d a b : VOp) (c : MReg)
  | vshrLit (g : Guard) (f : Fmt) (d a : VOp) (lit : BitVec 32) (c : MReg)
  | vsra (g : Guard) (f : Fmt) (d a b : VOp) (c : MReg)
  | vsraLit (g : Guard) (f : Fmt) (d a : VOp) (lit : BitVec 32) (c : MReg)
  | vrol (g : Guard) (f : Fmt) (d a b : VOp) (c : MReg)
  | vrolLit (g : Guard) (f : Fmt) (d a : VOp) (lit : BitVec 32) (c : MReg)
  | vmulhi (g : Guard) (f : Fmt) (d a b : VOp) (c : MReg)
  | vmulhiLit (g : Guard) (f : Fmt) (d a : VOp) (lit : BitVec 32) (c : MReg)
  | vcmp (g : Guard) (f : Fmt) (d : MReg) (a b : VOp) (c : VCond)
  | vcmpLit (g : Guard) (f : Fmt) (d : MReg) (a : VOp) (lit : BitVec 32) (c : VCond)
  | vsel (g : Guard) (f : Fmt) (d a b : VOp) (c : MReg)
  | vmov (g : Guard) (f : Fmt) (d a : VOp) (c : MReg)
  | vsplat (g : Guard) (f : Fmt) (d : VOp) (b : SReg) (c : MReg)
  | vsplatLit (g : Guard) (f : Fmt) (rm : Rm) (sat : Bool) (d : VOp) (lit : BitVec 32) (c : MReg)
  | viota (g : Guard) (f : Fmt) (d : VOp) (b : SReg) (c : MReg)
  | viotaLit (g : Guard) (f : Fmt) (d : VOp) (lit : BitVec 32) (c : MReg)
  | vcvt (g : Guard) (f sf : Fmt) (rm : Rm) (sat : Bool) (d a : VOp)
  | vwadd (g : Guard) (f sf : Fmt) (rm : Rm) (sat : Bool) (d a b : VOp)
  | vwmul (g : Guard) (f sf : Fmt) (rm : Rm) (sat : Bool) (d a b : VOp)
  | vnarrow (g : Guard) (f sf : Fmt) (rm : Rm) (sat : Bool) (d a : VOp) (b : SReg)
  | vnarrowLit (g : Guard) (f sf : Fmt) (rm : Rm) (sat : Bool) (d a : VOp) (lit : BitVec 32)
  | vredsum (g : Guard) (f : Fmt) (rm : Rm) (sat : Bool) (d a : VOp) (c : MReg)
  | vredmax (g : Guard) (f : Fmt) (d a : VOp) (c : MReg)
  | vredmin (g : Guard) (f : Fmt) (d a : VOp) (c : MReg)
  | vscan (g : Guard) (f : Fmt) (rm : Rm) (sat : Bool) (d a : VOp) (c : MReg)
  | vperm (g : Guard) (f : Fmt) (d a b : VOp) (c : MReg)
  | vslide (g : Guard) (f : Fmt) (d a : VOp) (b : SReg) (c : MReg)
  | vslideLit (g : Guard) (f : Fmt) (d a : VOp) (lit : BitVec 32) (c : MReg)
  | vzip (g : Guard) (f : Fmt) (d a b : VOp)
  | vunzip (g : Guard) (f : Fmt) (d a b : VOp)
  | vcompress (g : Guard) (f : Fmt) (d a : VOp) (c : MReg)
  | vexpand (g : Guard) (f : Fmt) (d a : VOp) (c : MReg)
  | vins (g : Guard) (f : Fmt) (d : VReg) (a b : SReg)
  | vinsLit (g : Guard) (f : Fmt) (d : VReg) (a : SReg) (lit : BitVec 32)
  | vext (g : Guard) (f : Fmt) (d : SReg) (a : VOp) (b : SReg)
  | vextLit (g : Guard) (f : Fmt) (d : SReg) (a : VOp) (lit : BitVec 32)
  | vrcp (g : Guard) (f : Fmt) (rm : Rm) (sat : Bool) (d a : VOp) (c : MReg)
  | vrsq (g : Guard) (f : Fmt) (rm : Rm) (sat : Bool) (d a : VOp) (c : MReg)
  | vsqrt (g : Guard) (f : Fmt) (rm : Rm) (sat : Bool) (d a : VOp) (c : MReg)
  | vexp2 (g : Guard) (f : Fmt) (rm : Rm) (sat : Bool) (d a : VOp) (c : MReg)
  | vlog2 (g : Guard) (f : Fmt) (rm : Rm) (sat : Bool) (d a : VOp) (c : MReg)
  | vtanh (g : Guard) (f : Fmt) (rm : Rm) (sat : Bool) (d a : VOp) (c : MReg)
  | mand (g : Guard) (d a b : MReg)
  | mor (g : Guard) (d a b : MReg)
  | mxor (g : Guard) (d a b : MReg)
  | mnot (g : Guard) (d a : MReg)
  | mpopc (g : Guard) (d : SReg) (a : MReg)
  | mfirst (g : Guard) (d : SReg) (a : MReg)
  | qcvt (g : Guard) (f sf : Fmt) (rm : Rm) (d a : VOp) (b : BitVec 2)
  | qdcvt (g : Guard) (f sf : Fmt) (rm : Rm) (sat : Bool) (d a : VOp) (b : BitVec 1)
  | lq (g : Guard) (f sf : Fmt) (sat : Bool) (d : VReg) (a : VOp) (b : SReg)
  | lqLit (g : Guard) (f sf : Fmt) (sat : Bool) (d : VReg) (a : VOp) (lit : BitVec 32)
  | ldq (g : Guard) (f sf : Fmt) (rm : Rm) (sat : Bool) (d : VReg) (a : VOp) (b : SReg)
  | ldqLit (g : Guard) (f sf : Fmt) (rm : Rm) (sat : Bool) (d : VReg) (a : VOp) (lit : BitVec 32)
  | lqrep (g : Guard) (f sf : Fmt) (sat : Bool) (d : VReg) (a : VOp) (b : SReg)
  | lqrepLit (g : Guard) (f sf : Fmt) (sat : Bool) (d : VReg) (a : VOp) (lit : BitVec 32)
  | lstat (g : Guard) (f sf : Fmt) (d : SReg) (a : VOp) (b : SReg)
  | lstatLit (g : Guard) (f sf : Fmt) (d : SReg) (a : VOp) (lit : BitVec 32)
  | rngseed (g : Guard) (b : SReg)
  | rngseedLit (g : Guard) (lit : BitVec 32)
  | rngget (g : Guard) (f : Fmt) (d : VOp) (c : MReg)
  | scpush (g : Guard) (a : VOp) (b : SReg)
  | scpushLit (g : Guard) (a : VOp) (lit : BitVec 32)
  | scpop (g : Guard) (d : VReg) (b : SReg)
  | scpopLit (g : Guard) (d : VReg) (lit : BitVec 32)
  | mma (g : Guard) (f : Fmt) (sat : Bool) (d : AccReg) (a : TOp) (b : WSlot)
  | mmas (g : Guard) (f : Fmt) (sat : Bool) (d : AccReg) (a : TOp) (b : WSlot) (c : TileReg)
  | mmag (g : Guard) (f : Fmt) (sat : Bool) (d : AccReg) (a : TileReg) (b : WSlot) (c : VOp)
  | mmal (g : Guard) (f : Fmt) (sat : Bool) (d : AccReg) (a : TOp) (b : WSlot)
  | mzero (g : Guard) (d : AccReg)
  | mdrain (g : Guard) (f : Fmt) (rm : Rm) (sat : Bool) (sc : Scope) (cl : BitVec 4) (sp : Space) (z : Bool) (d : TOp) (a : AccReg) (b : SReg)
  | mdrainLit (g : Guard) (f : Fmt) (rm : Rm) (sat : Bool) (sc : Scope) (cl : BitVec 4) (sp : Space) (z : Bool) (d : TOp) (a : AccReg) (lit : BitVec 32)
  | mcfg (g : Guard) (b : SReg)
  | mcfgLit (g : Guard) (lit : BitVec 32)
  | wload (g : Guard) (f : Fmt) (cl : BitVec 4) (sp : Space) (mx ue k32 : Bool) (d : WSlot) (a b : SReg)
  | wloadLit (g : Guard) (f : Fmt) (cl : BitVec 4) (sp : Space) (mx ue k32 : Bool) (d : WSlot) (a : SReg) (lit : BitVec 32)
  | wtab (g : Guard) (cl : BitVec 4) (sp : Space) (a b : SReg)
  | wtabLit (g : Guard) (cl : BitVec 4) (sp : Space) (a : SReg) (lit : BitVec 32)
  | wstat (g : Guard) (d : SReg) (b : BitVec 2)
  | mstat (g : Guard) (d : SReg) (b : Fin 5)
  | copy (g : Guard) (sc : Scope) (cl : BitVec 4) (dsp ssp : Space) (d a b : SReg)
  | copyLit (g : Guard) (sc : Scope) (cl : BitVec 4) (dsp ssp : Space) (d a : SReg) (lit : BitVec 32)
  | copyn (g : Guard) (sc : Scope) (cl : BitVec 4) (d a : ShReg)
  | gather (g : Guard) (sc : Scope) (cl : BitVec 4) (sp : Space) (d : SReg) (a b : ShReg)
  | scatter (g : Guard) (sc : Scope) (cl : BitVec 4) (sp : Space) (d : ShReg) (a : SReg) (b : ShReg)
  | xpose (g : Guard) (f : Fmt) (sc : Scope) (cl : BitVec 4) (dsp ssp : Space) (d a b : SReg)
  | xposeLit (g : Guard) (f : Fmt) (sc : Scope) (cl : BitVec 4) (dsp ssp : Space) (d a : SReg) (lit : BitVec 32)
  | cfill (g : Guard) (f : Fmt) (sc : Scope) (cl : BitVec 4) (sp : Space) (d a b : SReg)
  | cfillLit (g : Guard) (f : Fmt) (sc : Scope) (cl : BitVec 4) (sp : Space) (d a : SReg) (lit : BitVec 32)
  | phase (g : Guard) (d b : SReg)
  | phaseLit (g : Guard) (d : SReg) (lit : BitVec 32)
  | vpush (g : Guard) (cl : BitVec 4) (d : VReg) (a b : SReg)
  | vpushLit (g : Guard) (cl : BitVec 4) (d : VReg) (a : SReg) (lit : BitVec 32)
  | cwb (g : Guard) (a b : SReg)
  | cwbLit (g : Guard) (a : SReg) (lit : BitVec 32)
  | cinv (g : Guard) (a b : SReg)
  | cinvLit (g : Guard) (a : SReg) (lit : BitVec 32)
  | fence (g : Guard) (sc : Scope) (b : SReg)
  | fenceLit (g : Guard) (sc : Scope) (lit : BitVec 32)
  | aadd (g : Guard) (f : Fmt) (rm : Rm) (sc : Scope) (cl : BitVec 4) (sp : Space) (ord : Order) (d a b : SReg)
  | aaddLit (g : Guard) (f : Fmt) (rm : Rm) (sc : Scope) (cl : BitVec 4) (sp : Space) (ord : Order) (d a : SReg) (lit : BitVec 32)
  | aand (g : Guard) (f : Fmt) (sc : Scope) (cl : BitVec 4) (sp : Space) (ord : Order) (d a b : SReg)
  | aandLit (g : Guard) (f : Fmt) (sc : Scope) (cl : BitVec 4) (sp : Space) (ord : Order) (d a : SReg) (lit : BitVec 32)
  | aor (g : Guard) (f : Fmt) (sc : Scope) (cl : BitVec 4) (sp : Space) (ord : Order) (d a b : SReg)
  | aorLit (g : Guard) (f : Fmt) (sc : Scope) (cl : BitVec 4) (sp : Space) (ord : Order) (d a : SReg) (lit : BitVec 32)
  | axor (g : Guard) (f : Fmt) (sc : Scope) (cl : BitVec 4) (sp : Space) (ord : Order) (d a b : SReg)
  | axorLit (g : Guard) (f : Fmt) (sc : Scope) (cl : BitVec 4) (sp : Space) (ord : Order) (d a : SReg) (lit : BitVec 32)
  | amin (g : Guard) (f : Fmt) (sc : Scope) (cl : BitVec 4) (sp : Space) (ord : Order) (d a b : SReg)
  | aminLit (g : Guard) (f : Fmt) (sc : Scope) (cl : BitVec 4) (sp : Space) (ord : Order) (d a : SReg) (lit : BitVec 32)
  | amax (g : Guard) (f : Fmt) (sc : Scope) (cl : BitVec 4) (sp : Space) (ord : Order) (d a b : SReg)
  | amaxLit (g : Guard) (f : Fmt) (sc : Scope) (cl : BitVec 4) (sp : Space) (ord : Order) (d a : SReg) (lit : BitVec 32)
  | axchg (g : Guard) (f : Fmt) (sc : Scope) (cl : BitVec 4) (sp : Space) (ord : Order) (d a b : SReg)
  | axchgLit (g : Guard) (f : Fmt) (sc : Scope) (cl : BitVec 4) (sp : Space) (ord : Order) (d a : SReg) (lit : BitVec 32)
  | acas (g : Guard) (f : Fmt) (sc : Scope) (cl : BitVec 4) (sp : Space) (ord : Order) (d a b : SReg)
  | acasLit (g : Guard) (f : Fmt) (sc : Scope) (cl : BitVec 4) (sp : Space) (ord : Order) (d a : SReg) (lit : BitVec 32)
  | vaor (g : Guard) (f : Fmt) (sc : Scope) (cl : BitVec 4) (sp : Space) (m : MReg) (d : VReg) (a : SReg) (b : VOp)
  | vaadd (g : Guard) (f : Fmt) (sc : Scope) (cl : BitVec 4) (sp : Space) (m : MReg) (d : VReg) (a : SReg) (b : VOp)
  | vamax (g : Guard) (f : Fmt) (sc : Scope) (cl : BitVec 4) (sp : Space) (m : MReg) (d : VReg) (a : SReg) (b : VOp)
  | ownGive (g : Guard) (sc : Scope) (sp : Space) (frm d : Owner) (a : SReg) (b : BitVec 6)
  | ownTake (g : Guard) (sp : Space) (d : Owner) (a : SReg) (b : BitVec 6)
  | ownTest (g : Guard) (sp : Space) (d a : SReg) (b : BitVec 4)
  | bar (g : Guard) (sc : Scope) (d : SReg) (a : BitVec 4) (b : SReg)
  | barLit (g : Guard) (sc : Scope) (d : SReg) (a : BitVec 4) (lit : BitVec 32)
  | sstep (g : Guard) (sc : Scope) (d : SReg) (a : BitVec 4) (b : SReg)
  | sstepLit (g : Guard) (sc : Scope) (d : SReg) (a : BitVec 4) (lit : BitVec 32)
  | waitm (g : Guard) (f : Fmt) (sc : Scope) (cl : BitVec 4) (sp : Space) (cond : WCond) (park : Bool) (d a b : SReg)
  | waitmLit (g : Guard) (f : Fmt) (sc : Scope) (cl : BitVec 4) (sp : Space) (cond : WCond) (park : Bool) (d a : SReg) (lit : BitVec 32)
  | signal (g : Guard) (f : Fmt) (sc : Scope) (cl : BitVec 4) (sp : Space) (add : Bool) (a b : SReg)
  | signalLit (g : Guard) (f : Fmt) (sc : Scope) (cl : BitVec 4) (sp : Space) (add : Bool) (a : SReg) (lit : BitVec 32)
  | cswap (g : Guard) (d : SReg)
  | yield (g : Guard)
  | park (g : Guard) (wr wt wk : Bool) (d : SReg)
  | wakeat (g : Guard) (inn : Bool) (b : SReg)
  | wakeatLit (g : Guard) (inn : Bool) (lit : BitVec 32)
  | ctxnew (g : Guard) (d a b : SReg)
  | ctxnewLit (g : Guard) (d a : SReg) (lit : BitVec 32)
  | ctxfree (g : Guard) (a : SReg)
  | ctxq (g : Guard) (d a : SReg) (c : Fin 7)
  | ctxset (g : Guard) (a b : SReg) (c : BitVec 3)
  | ctxsetLit (g : Guard) (a : SReg) (lit : BitVec 32) (c : BitVec 3)
  | launch (g : Guard) (d a b : SReg)
  | launchLit (g : Guard) (d a : SReg) (lit : BitVec 32)
  | pgmap (g : Guard) (d a b c : SReg)
  | pgmapLit (g : Guard) (d a : SReg) (lit : BitVec 32) (c : SReg)
  | pgunmap (g : Guard) (d a : SReg)
  | pgunmapGrant (g : Guard) (d a b : SReg)
  | pgunmapGrantLit (g : Guard) (d a : SReg) (lit : BitVec 32)
  | pgpin (g : Guard) (d a : SReg)
  | pgunpin (g : Guard) (d a : SReg)
  | pgmove (g : Guard) (d a : SReg) (c : Fin 3)
  | pghint (g : Guard) (d a : SReg) (c : Fin 6)
  | kvalloc (g : Guard) (d a b : SReg)
  | kvallocLit (g : Guard) (d a : SReg) (lit : BitVec 32)
  | kvfree (g : Guard) (unmap : Bool) (d a b : SReg)
  | kvfreeLit (g : Guard) (unmap : Bool) (d a : SReg) (lit : BitVec 32)
  | kvappend (g : Guard) (cl : BitVec 4) (d a : SReg)
  | kvinval (g : Guard) (cl : BitVec 4) (z : Bool) (d a b : SReg)
  | kvinvalLit (g : Guard) (cl : BitVec 4) (z : Bool) (d a : SReg) (lit : BitVec 32)
  | jbegin (g : Guard) (a b : SReg)
  | jbeginLit (g : Guard) (a : SReg) (lit : BitVec 32)
  | jcommit (g : Guard) (d : SReg)
  | jrewind (g : Guard) (d : SReg)
  | trap (g : Guard) (b : SReg)
  | trapLit (g : Guard) (lit : BitVec 32)
  | eret (g : Guard)
  | scrub (g : Guard) (d a : SReg)
  | partcfg (g : Guard) (k : BitVec 5) (rd : Bool) (d a b : SReg)
  | partcfgLit (g : Guard) (k : BitVec 5) (rd : Bool) (d a : SReg) (lit : BitVec 32)
  | qoscfg (g : Guard) (rd : Bool) (d a b : SReg)
  | qoscfgLit (g : Guard) (rd : Bool) (d a : SReg) (lit : BitVec 32)
  | intpost (g : Guard) (b : SReg)
  | intpostLit (g : Guard) (lit : BitVec 32)
  | resetdom (g : Guard) (d a : SReg) (c : Fin 6)
  | tlbinv (g : Guard) (a b : SReg)
  | tlbinvLit (g : Guard) (a : SReg) (lit : BitVec 32)
  | rdtime (g : Guard) (wait : Bool) (d : SReg)
  | rdlat (g : Guard) (clr : Bool) (d : SReg)
  | wfe (g : Guard) (d b : SReg)
  | wfeLit (g : Guard) (d : SReg) (lit : BitVec 32)
  | haltc (g : Guard)
  | recast (g : Guard) (pers : Pers) (wait : Bool) (d a b : SReg)
  | recastLit (g : Guard) (pers : Pers) (wait : Bool) (d a : SReg) (lit : BitVec 32)
  | lnkstat (g : Guard) (d a : SReg) (c : Fin 6)
  | ristat (g : Guard) (d a : SReg) (c : Fin 4)
  | nsend (g : Guard) (cl : BitVec 4) (d a : SReg)
  | nfetch (g : Guard) (cl : BitVec 4) (d a : SReg)
  | ringstep (g : Guard) (d a b : SReg)
  | ringstepLit (g : Guard) (d a : SReg) (lit : BitVec 32)
  | slcut (g : Guard) (m : Bool) (d : SReg)
  | slwait (g : Guard) (d : SReg) (c : Fin 2)
  | slcommit (g : Guard) (d b : SReg)
  | slcommitLit (g : Guard) (d : SReg) (lit : BitVec 32)
  | slrestore (g : Guard) (d b : SReg)
  | slrestoreLit (g : Guard) (d : SReg) (lit : BitVec 32)
  | slstat (g : Guard) (d : SReg) (c : BitVec 3)
  | errwatch (g : Guard) (d b : SReg) (c : Fin 7)
  | errwatchLit (g : Guard) (d : SReg) (lit : BitVec 32) (c : Fin 7)
  | memhint (g : Guard) (crit : Bool) (d a : SReg)
  | memstat (g : Guard) (d a : SReg) (c : Fin 7)
  | qtailWrite (q : BitVec 10) (v : BitVec 32)
  | queueEnable (q : BitVec 10) (log2n : BitVec 5) (part : BitVec 6)
  | queueDisable (q : BitVec 10)
  | ovrClear (q : BitVec 10)
  | rerrClear (q : BitVec 10)
  | hostPartitionWrite (p : BitVec 6) (k : Nat) (v : Word)
  | podidWrite (v : Word)
  | pcapWrite (v : Word)
  | hostRegisterWrite (off : Nat) (v : Word)
  | hostMemAccess (pa n : Nat) (data : Option (List Byte))
  | ualinkRequestIn (grp : BitVec 4) (pa n : Nat) (data : Option (List Byte))
  | remoteRmaIn (grp : BitVec 4) (key : BitVec 32) (off n : Nat) (data : Option (List Byte))
  | timeMessage (t : Word)
  | packageReset
  | functionReady (k : BitVec 5)
  | computeDieReady (d : BitVec 2)
  | heartbeatTimeout (d : BitVec 2)
  | diePowerOff (d : BitVec 2)
  | boundaryDown (d : BitVec 2)
  | islandReturn (d : BitVec 2)
  | groupRequest (grp : BitVec 4) (wr : Bool)
  | groupDrainDone (grp : BitVec 4)
  | groupDrainTimeout (grp : BitVec 4)
  | groupRetargeted (grp : BitVec 4)
  | groupTrained (grp : BitVec 4)
  | groupTrainFailed (grp : BitVec 4)
  | taskStart (q : BitVec 10)
  | graphStart (q : BitVec 10)
  | createRecord (q : BitVec 10)
  | freeRecord (q : BitVec 10)
  | graphNodeStart (graph : Nat) (n : BitVec 6)
  | taskComplete (h : BitVec 32)
  | completionWordWrite (n : Nat)
  | place (d : BitVec 2)
  | standbyLoad (d : BitVec 2)
  | standbyLoadDone (h : BitVec 32)
  | sliceEnd (d : BitVec 2)
  | preempt (d : BitVec 2)
  | swapOut (h : BitVec 32)
  | swapOutDone (h : BitVec 32)
  | wakeTimeReached (h : BitVec 32)
  | moveStart (d : BitVec 2)
  | moveComplete (part : BitVec 6) (va : Nat)
  | demote (d : BitVec 2) (part : BitVec 6) (hbm : Bool)
  | wakeRecallTrigger (h : BitVec 32)
  | hotPagePromote (part : BitVec 6) (va : Nat)
  | hotWindowExpire (d : BitVec 2)
  | compact (d : BitVec 2) (pa : Nat)
  | streamFetch (id : BitVec 10) (q : QReg)
  | streamWrite (id : BitVec 10) (q : QReg)
  | waitmRecheck (id : BitVec 10)
  | waitmParkTimeout (id : BitVec 10)
  | wfeWake (id : BitVec 10)
  | ringstepTimeout (id : BitVec 10)
  | refreshDue (st : BitVec 3) (pc : Nat) (progress busy : Bool)
  | refreshEnd (st : BitVec 3) (pc : Nat) (bank : BitVec 5)
  | paybackStart (st : BitVec 3) (pc : Nat) (idle : BitVec 8)
  | allbankStart (st : BitVec 3) (pc : Nat)
  | allbankEnd (st : BitVec 3) (pc : Nat)
  | criticalTempAssert (st : BitVec 3)
  | selfrefEnter (st : BitVec 3)
  | criticalTempDeassert (st : BitVec 3)
  | selfrefExitStart (st : BitVec 3)
  | exitComplete (st : BitVec 3)
  | errorCorrected (k : Fin 3) (grp : BitVec 4) (u : Option (Nat × Nat))
  | watchWindowExpire
  | cutStart
  | stopTimeout (h : BitVec 32)
  | stopDone
  | copyDone
  | drainDone
  | cutFailure (cause : Fin 3)
  | restoreDone
  | boundaryUp (d : BitVec 2)
  | recordAccept (q : BitVec 10)
  | restoreFailure
  | perBankRefreshStart (st : BitVec 3) (pc : Nat) (bank : BitVec 5)
  | podBarrierArrival (k : BitVec 4) (n : Nat)
  | illegalEncoding
  | fetchFault
deriving DecidableEq, Repr

end Sys2Proof
end

