-- ==== Sys2Proof/WellFormed.lean ====
section
/-!
DEFINITION. Well-formedness: what the decode checks of R47 leave of an instruction that the typed operands do not
already say (the guard that is never performed, accepted formats, format pairs, alignment, unused rounding modes).
-/

namespace Sys2Proof

/-- The format pairs of VCVT (R183). -/
def vcvtPair (f sf : Fmt) : Bool := f.width ≤ 4 * sf.width && sf.width ≤ 4 * f.width

/-- The format pairs of VWADD and VWMUL (R184). -/
def vwidenPair (f sf : Fmt) : Bool :=
  (f.width == 2 * sf.width || f.width == 4 * sf.width) && ((f.classI && sf.classI) || (f.floating && sf.floating))

/-- The format pairs of VNARROW (R185). -/
def vnarrowPair (f sf : Fmt) : Bool := sf.width == 2 * f.width || sf.width == 4 * f.width

/-- The format pairs of QCVT (R196). -/
def qcvtPair (f sf : Fmt) : Bool := !(f == .e2m1 && sf == .fp32)

/-- The format pairs of QDCVT (R198). -/
def qdcvtPair (f sf : Fmt) : Bool := !(f == .fp32 && sf == .e2m1)

/-- A control register that some level may write (R70). -/
def csrWritable (c : Csr) : Bool := !(c == .core || c == .ctx || c == .dmap)

/-- Element formats of XPOSE and CFILL (R239). -/
def elemFmt (f : Fmt) : Bool := !(f == .int64) && !(f == .cb3)

/-- The alignment rule of R182: the register of the wide side is a multiple of the ratio. -/
def wideAligned (f sf : Fmt) (d a : VOp) : Bool :=
  if f.width ≥ sf.width then d.aligned (f.width / sf.width) else a.aligned (sf.width / f.width)

/-- How many index registers VPERM reads (R188). -/
def vpermRegs (f : Fmt) : Nat := max 1 (4096 / f.width / 256)

/-- The index registers of VPERM end at v55, and a queue stands there only when one register is read (R188). -/
def vpermAligned (f : Fmt) (b : VOp) : Bool :=
  match b with
  | .reg n => n.val + vpermRegs f ≤ 56
  | .queue _ => vpermRegs f == 1

/-- The flag rules of WLOAD (R229). -/
def wloadFlags (f : Fmt) (mx ue k32 : Bool) : Bool :=
  (!mx || f == .e2m1 || f == .e4m3 || f == .e5m2) && (!ue || mx) && (!k32 || f == .l16)

/-- The last tile of an MDRAIN's tile destination, D + w/8 - 1, is not past t15 (R225); a queue takes any format. -/
def mdrainFits (f : Fmt) (d : TOp) : Bool :=
  match d with
  | .tile t => t.toNat + f.width / 8 ≤ 16
  | .queue _ => true

/-- Is the instruction one that passes the checks of R47? Event rows have no encoding and are well formed. -/
def Instr.wellFormed (i : Instr) : Bool :=
  match i with
  | .add g _ _ _ _ => !g.never
  | .add64 g _ _ _ _ _ _ => !g.never
  | .add96 g _ _ _ _ _ _ => !g.never
  | .sub g _ _ _ _ => !g.never
  | .sub64 g _ _ _ _ _ _ => !g.never
  | .sub96 g _ _ _ _ _ _ => !g.never
  | .mul g _ _ _ _ => !g.never
  | .mul64 g _ _ _ _ _ _ => !g.never
  | .mul96 g _ _ _ _ _ _ => !g.never
  | .mulh g _ _ _ => !g.never
  | .mulh64 g _ _ _ _ => !g.never
  | .mulh96 g _ _ _ _ => !g.never
  | .div g _ _ _ => !g.never
  | .div64 g _ _ _ _ _ => !g.never
  | .div96 g _ _ _ _ _ => !g.never
  | .rem g _ _ _ => !g.never
  | .rem64 g _ _ _ _ => !g.never
  | .rem96 g _ _ _ _ => !g.never
  | .and g _ _ _ _ => !g.never
  | .and64 g _ _ _ _ => !g.never
  | .and96 g _ _ _ _ => !g.never
  | .or g _ _ _ _ => !g.never
  | .or64 g _ _ _ _ => !g.never
  | .or96 g _ _ _ _ => !g.never
  | .xor g _ _ _ _ => !g.never
  | .xor64 g _ _ _ _ => !g.never
  | .xor96 g _ _ _ _ => !g.never
  | .andn g _ _ _ _ => !g.never
  | .andn64 g _ _ _ _ => !g.never
  | .andn96 g _ _ _ _ => !g.never
  | .shl g _ _ _ _ => !g.never
  | .shl64 g _ _ _ _ _ => !g.never
  | .shl96 g _ _ _ _ _ => !g.never
  | .shr g _ _ _ _ => !g.never
  | .shr64 g _ _ _ _ _ => !g.never
  | .shr96 g _ _ _ _ _ => !g.never
  | .sra g _ _ _ _ => !g.never
  | .sra64 g _ _ _ _ _ => !g.never
  | .sra96 g _ _ _ _ _ => !g.never
  | .rol g _ _ _ => !g.never
  | .rol64 g _ _ _ _ => !g.never
  | .rol96 g _ _ _ _ => !g.never
  | .clz g _ _ => !g.never
  | .clz64 g _ _ _ => !g.never
  | .ctz g _ _ => !g.never
  | .ctz64 g _ _ _ => !g.never
  | .popc g _ _ => !g.never
  | .popc64 g _ _ _ => !g.never
  | .brev g _ _ => !g.never
  | .brev64 g _ _ _ => !g.never
  | .min g _ _ _ _ => !g.never
  | .min64 g _ _ _ _ _ => !g.never
  | .min96 g _ _ _ _ _ => !g.never
  | .max g _ _ _ _ => !g.never
  | .max64 g _ _ _ _ _ => !g.never
  | .max96 g _ _ _ _ _ => !g.never
  | .sel g _ _ _ _ => !g.never
  | .sel64 g _ _ _ _ _ => !g.never
  | .sel96 g _ _ _ _ _ => !g.never
  | .mov g _ _ _ => !g.never
  | .mov64 g _ _ _ => !g.never
  | .movi g _ _ _ => !g.never
  | .movi96 g _ _ _ _ => !g.never
  | .addi g _ _ _ => !g.never
  | .lea g _ _ _ _ => !g.never
  | .lea64 g _ _ _ _ _ => !g.never
  | .lea96 g _ _ _ _ _ => !g.never
  | .cmp g _ _ _ _ => !g.never
  | .cmp64 g _ _ _ _ _ => !g.never
  | .cmp96 g _ _ _ _ _ => !g.never
  | .pand g _ _ _ _ => !g.never
  | .pand64 g _ _ _ _ => !g.never
  | .por g _ _ _ _ => !g.never
  | .por64 g _ _ _ _ => !g.never
  | .pxor g _ _ _ _ => !g.never
  | .pxor64 g _ _ _ _ => !g.never
  | .pnot g _ _ _ => !g.never
  | .pnot64 g _ _ _ => !g.never
  | .br g _ => !g.never
  | .jmp g _ => !g.never
  | .jmp64 g _ => !g.never
  | .jmp96 g _ _ => !g.never
  | .call g _ => !g.never
  | .ret g _ => !g.never
  | .ret64 g _ => !g.never
  | .loop g _ _ => !g.never
  | .rep _ _ _ => true
  | .nop g _ => !g.never
  | .nop64 g _ => !g.never
  | .endTask g => !g.never
  | .endTask64 g => !g.never
  | .lds g _ _ _ => !g.never
  | .lds64 g _ _ sp _ _ _ => !g.never && sp != .reg
  | .lds96 g _ _ sp _ _ _ => !g.never && sp != .reg
  | .sts g _ _ _ => !g.never
  | .sts64 g _ _ sp _ _ _ => !g.never && sp != .reg
  | .sts96 g _ _ sp _ _ _ => !g.never && sp != .reg
  | .csrr g _ _ => !g.never
  | .csrw g _ csr => !g.never && csrWritable csr
  | .shld g _ sp _ _ _ => !g.never && sp != .reg
  | .shldLit g _ sp _ _ _ => !g.never && sp != .reg
  | .shst g _ sp _ _ _ => !g.never && sp != .reg
  | .shstLit g _ sp _ _ _ => !g.never && sp != .reg
  | .shset g _ _ _ => !g.never
  | .shsetLit g _ _ _ => !g.never
  | .shget g _ _ _ => !g.never
  | .shmov g _ _ => !g.never
  | .openR g _ _ _ => !g.never
  | .openW g _ _ _ => !g.never
  | .openG g _ _ _ _ => !g.never
  | .adv g _ _ => !g.never
  | .advLit g _ _ => !g.never
  | .close g _ => !g.never
  | .drain g _ => !g.never
  | .pld g _ _ _ _ _ => !g.never
  | .pldLit g _ _ _ _ _ => !g.never
  | .reside g _ _ _ _ => !g.never
  | .resideLit g _ _ _ _ => !g.never
  | .lookahead g _ _ => !g.never
  | .lookaheadLit g _ _ => !g.never
  | .posr g _ _ _ => !g.never
  | .qcnt g _ _ => !g.never
  | .vld g _ _ _ _ _ => !g.never
  | .vldLit g _ _ _ _ _ => !g.never
  | .vst g _ _ _ _ _ => !g.never
  | .vstLit g _ _ _ _ _ => !g.never
  | .scld g _ _ _ => !g.never
  | .scldLit g _ _ _ => !g.never
  | .pref g _ _ _ => !g.never
  | .prefLit g _ _ _ => !g.never
  | .vadd g f rm _ _ _ _ _ => !g.never && Fmt.classIF f && (f.floating || rm == .rne)
  | .vaddLit g f rm _ _ _ _ _ => !g.never && Fmt.classIF f && (f.floating || rm == .rne)
  | .vsub g f rm _ _ _ _ _ => !g.never && Fmt.classIF f && (f.floating || rm == .rne)
  | .vsubLit g f rm _ _ _ _ _ => !g.never && Fmt.classIF f && (f.floating || rm == .rne)
  | .vmul g f rm _ _ _ _ _ => !g.never && Fmt.classIF f && (f.floating || rm == .rne)
  | .vmulLit g f rm _ _ _ _ _ => !g.never && Fmt.classIF f && (f.floating || rm == .rne)
  | .vfma g f rm _ _ _ _ _ => !g.never && Fmt.classIF f && (f.floating || rm == .rne)
  | .vfms g f rm _ _ _ _ _ => !g.never && Fmt.classIF f && (f.floating || rm == .rne)
  | .vnfma g f rm _ _ _ _ _ => !g.never && Fmt.classIF f && (f.floating || rm == .rne)
  | .vmin g f _ _ _ _ => !g.never && Fmt.classIF f
  | .vminLit g f _ _ _ _ => !g.never && Fmt.classIF f
  | .vmax g f _ _ _ _ => !g.never && Fmt.classIF f
  | .vmaxLit g f _ _ _ _ => !g.never && Fmt.classIF f
  | .vabs g f _ _ _ _ => !g.never && Fmt.classIF f
  | .vneg g f _ _ _ _ => !g.never && Fmt.classIF f
  | .vand g f _ _ _ _ => !g.never && Fmt.classV f
  | .vandLit g f _ _ _ _ => !g.never && Fmt.classV f
  | .vor g f _ _ _ _ => !g.never && Fmt.classV f
  | .vorLit g f _ _ _ _ => !g.never && Fmt.classV f
  | .vxor g f _ _ _ _ => !g.never && Fmt.classV f
  | .vxorLit g f _ _ _ _ => !g.never && Fmt.classV f
  | .vnot g f _ _ _ => !g.never && Fmt.classV f
  | .vshl g f _ _ _ _ => !g.never && Fmt.classI f
  | .vshlLit g f _ _ _ _ => !g.never && Fmt.classI f
  | .vshr g f _ _ _ _ => !g.never && Fmt.classI f
  | .vshrLit g f _ _ _ _ => !g.never && Fmt.classI f
  | .vsra g f _ _ _ _ => !g.never && Fmt.classI f
  | .vsraLit g f _ _ _ _ => !g.never && Fmt.classI f
  | .vrol g f _ _ _ _ => !g.never && Fmt.classI f
  | .vrolLit g f _ _ _ _ => !g.never && Fmt.classI f
  | .vmulhi g f _ _ _ _ => !g.never && Fmt.classI f
  | .vmulhiLit g f _ _ _ _ => !g.never && Fmt.classI f
  | .vcmp g f _ _ _ _ => !g.never && Fmt.classV f
  | .vcmpLit g f _ _ _ _ => !g.never && Fmt.classV f
  | .vsel g f _ _ _ _ => !g.never && Fmt.classV f
  | .vmov g f _ _ _ => !g.never && Fmt.classV f
  | .vsplat g f _ _ _ => !g.never && Fmt.classV f
  | .vsplatLit g f rm _ _ _ _ => !g.never && Fmt.classV f && (f.floating || rm == .rne)
  | .viota g f _ _ _ => !g.never && Fmt.classI f
  | .viotaLit g f _ _ _ => !g.never && Fmt.classI f
  | .vcvt g f sf rm _ d a => !g.never && Fmt.classV f && Fmt.classV sf && vcvtPair f sf && wideAligned f sf d a && ((f.floating || sf.floating) || rm == .rne)
  | .vwadd g f sf rm _ d a _ => !g.never && Fmt.classV f && Fmt.classV sf && vwidenPair f sf && wideAligned f sf d a && (f.floating || rm == .rne)
  | .vwmul g f sf rm _ d a _ => !g.never && Fmt.classV f && Fmt.classV sf && vwidenPair f sf && wideAligned f sf d a && (f.floating || rm == .rne)
  | .vnarrow g f sf _ _ d a _ => !g.never && Fmt.classI f && Fmt.classI sf && vnarrowPair f sf && wideAligned f sf d a
  | .vnarrowLit g f sf _ _ d a _ => !g.never && Fmt.classI f && Fmt.classI sf && vnarrowPair f sf && wideAligned f sf d a
  | .vredsum g f rm _ _ _ _ => !g.never && Fmt.classIF f && (f.floating || rm == .rne)
  | .vredmax g f _ _ _ => !g.never && Fmt.classIF f
  | .vredmin g f _ _ _ => !g.never && Fmt.classIF f
  | .vscan g f rm _ _ _ _ => !g.never && Fmt.classIF f && (f.floating || rm == .rne)
  | .vperm g f _ _ b _ => !g.never && Fmt.classV f && vpermAligned f b
  | .vslide g f _ _ _ _ => !g.never && Fmt.classV f
  | .vslideLit g f _ _ _ _ => !g.never && Fmt.classV f
  | .vzip g f d _ _ => !g.never && Fmt.classV f && d.aligned 2
  | .vunzip g f d _ _ => !g.never && Fmt.classV f && d.aligned 2
  | .vcompress g f _ _ _ => !g.never && Fmt.classV f
  | .vexpand g f _ _ _ => !g.never && Fmt.classV f
  | .vins g f _ _ _ => !g.never && Fmt.classV f
  | .vinsLit g f _ _ _ => !g.never && Fmt.classV f
  | .vext g f _ _ _ => !g.never && Fmt.classV f
  | .vextLit g f _ _ _ => !g.never && Fmt.classV f
  | .vrcp g f _ _ _ _ _ => !g.never && Fmt.classF f
  | .vrsq g f _ _ _ _ _ => !g.never && Fmt.classF f
  | .vsqrt g f _ _ _ _ _ => !g.never && Fmt.classF f
  | .vexp2 g f _ _ _ _ _ => !g.never && Fmt.classF f
  | .vlog2 g f _ _ _ _ _ => !g.never && Fmt.classF f
  | .vtanh g f _ _ _ _ _ => !g.never && Fmt.classF f
  | .mand g _ _ _ => !g.never
  | .mor g _ _ _ => !g.never
  | .mxor g _ _ _ => !g.never
  | .mnot g _ _ => !g.never
  | .mpopc g _ _ => !g.never
  | .mfirst g _ _ => !g.never
  | .qcvt g f sf _ d a _ => !g.never && (fun f => f ∈ ([.e2m1, .e4m3, .e5m2, .int8] : List Fmt)) f && Fmt.classF sf && qcvtPair f sf && wideAligned f sf d a
  | .qdcvt g f sf _ _ d a _ => !g.never && Fmt.classF f && (fun f => f ∈ ([.e2m1, .e4m3, .e5m2, .int8] : List Fmt)) sf && qdcvtPair f sf && wideAligned f sf d a
  | .lq g f sf _ _ _ _ => !g.never && (fun f => f ∈ ([.l16] : List Fmt)) f && Fmt.classF sf
  | .lqLit g f sf _ _ _ _ => !g.never && (fun f => f ∈ ([.l16] : List Fmt)) f && Fmt.classF sf
  | .ldq g f sf _ _ _ _ _ => !g.never && Fmt.classF f && (fun f => f ∈ ([.l16] : List Fmt)) sf
  | .ldqLit g f sf _ _ _ _ _ => !g.never && Fmt.classF f && (fun f => f ∈ ([.l16] : List Fmt)) sf
  | .lqrep g f sf _ _ _ _ => !g.never && (fun f => f ∈ ([.l16] : List Fmt)) f && Fmt.classF sf
  | .lqrepLit g f sf _ _ _ _ => !g.never && (fun f => f ∈ ([.l16] : List Fmt)) f && Fmt.classF sf
  | .lstat g f sf _ _ _ => !g.never && (fun f => f ∈ ([.l16] : List Fmt)) f && Fmt.classF sf
  | .lstatLit g f sf _ _ _ => !g.never && (fun f => f ∈ ([.l16] : List Fmt)) f && Fmt.classF sf
  | .rngseed g _ => !g.never
  | .rngseedLit g _ => !g.never
  | .rngget g f _ _ => !g.never && (fun f => f ∈ ([.uint8, .uint16, .uint32] : List Fmt)) f
  | .scpush g _ _ => !g.never
  | .scpushLit g _ _ => !g.never
  | .scpop g _ _ => !g.never
  | .scpopLit g _ _ => !g.never
  | .mma g f _ _ _ _ => !g.never && (fun f => f ∈ ([.int8, .uint8, .int4, .uint4, .e4m3, .e5m2, .e2m1, .fp16, .bf16] : List Fmt)) f
  | .mmas g f _ _ _ b _ => !g.never && (fun f => f ∈ ([.int8, .uint8, .int4, .uint4, .e4m3, .e5m2, .e2m1, .fp16, .bf16] : List Fmt)) f && b.toNat % 2 == 0
  | .mmag g f _ _ _ _ _ => !g.never && (fun f => f ∈ ([.int8, .uint8, .int4, .uint4, .e4m3, .e5m2, .e2m1, .fp16, .bf16] : List Fmt)) f
  | .mmal g f _ _ _ _ => !g.never && (fun f => f ∈ ([.e4m3, .e5m2, .fp16, .bf16] : List Fmt)) f
  | .mzero g _ => !g.never
  | .mdrain g f _ _ sc _ sp _ d _ b => !g.never && (fun f => f ∈ ([.fp32, .bf16, .fp16, .e4m3, .e5m2, .int32, .int16, .int8] : List Fmt)) f && sp != .reg && (sp != .virt || (sc == .co && b == 0)) && mdrainFits f d
  | .mdrainLit g f _ _ _ _ sp _ d _ _ => !g.never && (fun f => f ∈ ([.fp32, .bf16, .fp16, .e4m3, .e5m2, .int32, .int16, .int8] : List Fmt)) f && sp != .reg && sp != .virt && mdrainFits f d
  | .mcfg g _ => !g.never
  | .mcfgLit g _ => !g.never
  | .wload g f _ sp mx ue k32 _ _ _ => !g.never && (fun f => f ∈ ([.int8, .uint8, .e4m3, .e5m2, .int4, .uint4, .e2m1, .fp16, .bf16, .l16, .cb3] : List Fmt)) f && sp != .reg && wloadFlags f mx ue k32
  | .wloadLit g f _ sp mx ue k32 _ _ _ => !g.never && (fun f => f ∈ ([.int8, .uint8, .e4m3, .e5m2, .int4, .uint4, .e2m1, .fp16, .bf16, .l16, .cb3] : List Fmt)) f && sp != .reg && wloadFlags f mx ue k32
  | .wtab g _ sp _ _ => !g.never && sp != .reg
  | .wtabLit g _ sp _ _ => !g.never && sp != .reg
  | .wstat g _ _ => !g.never
  | .mstat g _ _ => !g.never
  | .copy g _ _ dsp ssp _ _ _ => !g.never && !(dsp == .virt && ssp == .virt)
  | .copyLit g _ _ dsp ssp _ _ _ => !g.never && !(dsp == .virt && ssp == .virt)
  | .copyn g _ _ _ _ => !g.never
  | .gather g _ _ sp _ _ _ => !g.never && sp != .reg
  | .scatter g _ _ sp _ _ _ => !g.never && sp != .reg
  | .xpose g f _ _ dsp ssp _ _ _ => !g.never && elemFmt f && !(dsp == .virt && ssp == .virt) && dsp != .reg && ssp != .reg
  | .xposeLit g f _ _ dsp ssp _ _ _ => !g.never && elemFmt f && !(dsp == .virt && ssp == .virt) && dsp != .reg && ssp != .reg
  | .cfill g f _ _ _ _ _ _ => !g.never && elemFmt f
  | .cfillLit g f _ _ _ _ _ _ => !g.never && elemFmt f
  | .phase g _ _ => !g.never
  | .phaseLit g _ _ => !g.never
  | .vpush g _ _ _ _ => !g.never
  | .vpushLit g _ _ _ _ => !g.never
  | .cwb g _ _ => !g.never
  | .cwbLit g _ _ => !g.never
  | .cinv g _ _ => !g.never
  | .cinvLit g _ _ => !g.never
  | .fence g _ _ => !g.never
  | .fenceLit g _ _ => !g.never
  | .aadd g f rm _ _ sp _ _ _ _ => !g.never && (fun f => f ∈ ([.int32, .uint32, .int64, .fp32] : List Fmt)) f && ((f == .fp32) || rm == .rne) && sp != .reg && rm != .sr
  | .aaddLit g f rm _ _ sp _ _ _ _ => !g.never && (fun f => f ∈ ([.int32, .uint32, .int64, .fp32] : List Fmt)) f && ((f == .fp32) || rm == .rne) && sp != .reg && rm != .sr
  | .aand g f _ _ sp _ _ _ _ => !g.never && (fun f => f ∈ ([.int32, .uint32, .int64] : List Fmt)) f && sp != .reg
  | .aandLit g f _ _ sp _ _ _ _ => !g.never && (fun f => f ∈ ([.int32, .uint32, .int64] : List Fmt)) f && sp != .reg
  | .aor g f _ _ sp _ _ _ _ => !g.never && (fun f => f ∈ ([.int32, .uint32, .int64] : List Fmt)) f && sp != .reg
  | .aorLit g f _ _ sp _ _ _ _ => !g.never && (fun f => f ∈ ([.int32, .uint32, .int64] : List Fmt)) f && sp != .reg
  | .axor g f _ _ sp _ _ _ _ => !g.never && (fun f => f ∈ ([.int32, .uint32, .int64] : List Fmt)) f && sp != .reg
  | .axorLit g f _ _ sp _ _ _ _ => !g.never && (fun f => f ∈ ([.int32, .uint32, .int64] : List Fmt)) f && sp != .reg
  | .amin g f _ _ sp _ _ _ _ => !g.never && (fun f => f ∈ ([.int32, .uint32, .int64, .fp32] : List Fmt)) f && sp != .reg
  | .aminLit g f _ _ sp _ _ _ _ => !g.never && (fun f => f ∈ ([.int32, .uint32, .int64, .fp32] : List Fmt)) f && sp != .reg
  | .amax g f _ _ sp _ _ _ _ => !g.never && (fun f => f ∈ ([.int32, .uint32, .int64, .fp32] : List Fmt)) f && sp != .reg
  | .amaxLit g f _ _ sp _ _ _ _ => !g.never && (fun f => f ∈ ([.int32, .uint32, .int64, .fp32] : List Fmt)) f && sp != .reg
  | .axchg g f _ _ sp _ _ _ _ => !g.never && (fun f => f ∈ ([.int32, .uint32, .int64] : List Fmt)) f && sp != .reg
  | .axchgLit g f _ _ sp _ _ _ _ => !g.never && (fun f => f ∈ ([.int32, .uint32, .int64] : List Fmt)) f && sp != .reg
  | .acas g f _ _ sp _ _ _ _ => !g.never && (fun f => f ∈ ([.int32, .uint32, .int64] : List Fmt)) f && sp != .reg
  | .acasLit g f _ _ sp _ _ _ _ => !g.never && (fun f => f ∈ ([.int32, .uint32, .int64] : List Fmt)) f && sp != .reg
  | .vaor g f _ _ sp _ _ _ _ => !g.never && (fun f => f ∈ ([.int32, .uint32] : List Fmt)) f && sp != .reg
  | .vaadd g f _ _ sp _ _ _ _ => !g.never && (fun f => f ∈ ([.int32, .uint32, .fp32] : List Fmt)) f && sp != .reg
  | .vamax g f _ _ sp _ _ _ _ => !g.never && (fun f => f ∈ ([.int32, .uint32, .fp32] : List Fmt)) f && sp != .reg
  | .ownGive g _ sp frm d _ _ => !g.never && (sp == .vault || sp == .ns) && d != .res && frm != .res
  | .ownTake g sp _ _ _ => !g.never && (sp == .vault || sp == .ns)
  | .ownTest g sp _ _ _ => !g.never && (sp == .vault || sp == .ns)
  | .bar g sc _ _ _ => !g.never && sc != .co
  | .barLit g sc _ _ _ => !g.never && sc != .co
  | .sstep g sc _ _ _ => !g.never && sc != .co
  | .sstepLit g sc _ _ _ => !g.never && sc != .co
  | .waitm g f _ _ sp _ _ _ _ _ => !g.never && (fun f => f ∈ ([.uint32, .int64] : List Fmt)) f && sp != .reg
  | .waitmLit g f _ _ sp _ _ _ _ _ => !g.never && (fun f => f ∈ ([.uint32, .int64] : List Fmt)) f && sp != .reg
  | .signal g f _ _ sp _ _ _ => !g.never && (fun f => f ∈ ([.uint32, .int64] : List Fmt)) f && sp != .reg
  | .signalLit g f _ _ sp _ _ _ => !g.never && (fun f => f ∈ ([.uint32, .int64] : List Fmt)) f && sp != .reg
  | .cswap g _ => !g.never
  | .yield g => !g.never
  | .park g wr wt wk _ => !g.never && (wr || wt || wk)
  | .wakeat g _ _ => !g.never
  | .wakeatLit g _ _ => !g.never
  | .ctxnew g _ _ _ => !g.never
  | .ctxnewLit g _ _ _ => !g.never
  | .ctxfree g _ => !g.never
  | .ctxq g _ _ _ => !g.never
  | .ctxset g _ _ c => !g.never && (c.toNat == 1 || c.toNat == 2 || c.toNat == 3 || c.toNat == 6)
  | .ctxsetLit g _ _ c => !g.never && (c.toNat == 1 || c.toNat == 2 || c.toNat == 3 || c.toNat == 6)
  | .launch g _ _ _ => !g.never
  | .launchLit g _ _ _ => !g.never
  | .pgmap g _ _ _ _ => !g.never
  | .pgmapLit g _ _ _ _ => !g.never
  | .pgunmap g _ _ => !g.never
  | .pgunmapGrant g _ _ _ => !g.never
  | .pgunmapGrantLit g _ _ _ => !g.never
  | .pgpin g _ _ => !g.never
  | .pgunpin g _ _ => !g.never
  | .pgmove g _ _ _ => !g.never
  | .pghint g _ _ _ => !g.never
  | .kvalloc g _ _ _ => !g.never
  | .kvallocLit g _ _ _ => !g.never
  | .kvfree g _ _ _ _ => !g.never
  | .kvfreeLit g _ _ _ _ => !g.never
  | .kvappend g _ _ _ => !g.never
  | .kvinval g _ _ _ _ _ => !g.never
  | .kvinvalLit g _ _ _ _ _ => !g.never
  | .jbegin g _ _ => !g.never
  | .jbeginLit g _ _ => !g.never
  | .jcommit g _ => !g.never
  | .jrewind g _ => !g.never
  | .trap g _ => !g.never
  | .trapLit g _ => !g.never
  | .eret g => !g.never
  | .scrub g _ _ => !g.never
  | .partcfg g k rd _ _ b => !g.never && (k.toNat ≤ 15 || (rd && k.toNat ≤ 18)) && (!rd || b == 0)
  | .partcfgLit g k rd _ _ _ => !g.never && (k.toNat ≤ 15 || (rd && k.toNat ≤ 18)) && !rd
  | .qoscfg g rd _ _ b => !g.never && (!rd || b == 0)
  | .qoscfgLit g rd _ _ _ => !g.never && !rd
  | .intpost g _ => !g.never
  | .intpostLit g _ => !g.never
  | .resetdom g _ _ _ => !g.never
  | .tlbinv g _ _ => !g.never
  | .tlbinvLit g _ _ => !g.never
  | .rdtime g _ _ => !g.never
  | .rdlat g _ _ => !g.never
  | .wfe g _ _ => !g.never
  | .wfeLit g _ _ => !g.never
  | .haltc g => !g.never
  | .recast g _ _ _ _ _ => !g.never
  | .recastLit g _ _ _ _ _ => !g.never
  | .lnkstat g _ _ _ => !g.never
  | .ristat g _ _ _ => !g.never
  | .nsend g _ _ _ => !g.never
  | .nfetch g _ _ _ => !g.never
  | .ringstep g _ _ _ => !g.never
  | .ringstepLit g _ _ _ => !g.never
  | .slcut g _ _ => !g.never
  | .slwait g _ _ => !g.never
  | .slcommit g _ _ => !g.never
  | .slcommitLit g _ _ => !g.never
  | .slrestore g _ _ => !g.never
  | .slrestoreLit g _ _ => !g.never
  | .slstat g _ _ => !g.never
  | .errwatch g _ _ _ => !g.never
  | .errwatchLit g _ _ _ => !g.never
  | .memhint g _ _ _ => !g.never
  | .memstat g _ _ _ => !g.never
  | .qtailWrite _ _ => true
  | .queueEnable _ _ _ => true
  | .queueDisable _ => true
  | .ovrClear _ => true
  | .rerrClear _ => true
  | .hostPartitionWrite _ _ _ => true
  | .podidWrite _ => true
  | .pcapWrite _ => true
  | .hostRegisterWrite _ _ => true
  | .hostMemAccess _ _ _ => true
  | .ualinkRequestIn _ _ _ _ => true
  | .remoteRmaIn _ _ _ _ _ => true
  | .timeMessage _ => true
  | .packageReset => true
  | .functionReady _ => true
  | .computeDieReady _ => true
  | .heartbeatTimeout _ => true
  | .diePowerOff _ => true
  | .boundaryDown _ => true
  | .islandReturn _ => true
  | .groupRequest _ _ => true
  | .groupDrainDone _ => true
  | .groupDrainTimeout _ => true
  | .groupRetargeted _ => true
  | .groupTrained _ => true
  | .groupTrainFailed _ => true
  | .taskStart _ => true
  | .graphStart _ => true
  | .createRecord _ => true
  | .freeRecord _ => true
  | .graphNodeStart _ _ => true
  | .taskComplete _ => true
  | .completionWordWrite _ => true
  | .place _ => true
  | .standbyLoad _ => true
  | .standbyLoadDone _ => true
  | .sliceEnd _ => true
  | .preempt _ => true
  | .swapOut _ => true
  | .swapOutDone _ => true
  | .wakeTimeReached _ => true
  | .moveStart _ => true
  | .moveComplete _ _ => true
  | .demote _ _ _ => true
  | .wakeRecallTrigger _ => true
  | .hotPagePromote _ _ => true
  | .hotWindowExpire _ => true
  | .compact _ _ => true
  | .streamFetch _ _ => true
  | .streamWrite _ _ => true
  | .waitmRecheck _ => true
  | .waitmParkTimeout _ => true
  | .wfeWake _ => true
  | .ringstepTimeout _ => true
  | .refreshDue _ _ _ _ => true
  | .refreshEnd _ _ _ => true
  | .paybackStart _ _ _ => true
  | .allbankStart _ _ => true
  | .allbankEnd _ _ => true
  | .criticalTempAssert _ => true
  | .selfrefEnter _ => true
  | .criticalTempDeassert _ => true
  | .selfrefExitStart _ => true
  | .exitComplete _ => true
  | .errorCorrected _ _ _ => true
  | .watchWindowExpire => true
  | .cutStart => true
  | .stopTimeout _ => true
  | .stopDone => true
  | .copyDone => true
  | .drainDone => true
  | .cutFailure _ => true
  | .restoreDone => true
  | .boundaryUp _ => true
  | .recordAccept _ => true
  | .restoreFailure => true
  | .perBankRefreshStart _ _ _ => true
  | .podBarrierArrival _ _ => true
  | .illegalEncoding => true
  | .fetchFault => true

end Sys2Proof
end

