-- ==== Sys2Proof/Decode.lean ====
section
/-!
DEFINITION. The decoder of R47, total on any bytes and rejecting by reason, and after it the encoder written from the
same encoding tables. A `Form` is one row of a chapter's form table, and `Row` names it.

Decoding answers a row and its fields (`Decoded`), and `Decoded.instr` makes the instruction of them. The two are kept
apart because Lean's run time gives no object to a constructor numbered past 244, so the functions that construct an
`Instr` are marked noncomputable (the kernel evaluates them all the same) and the step has a compiled twin that goes from
the row straight to its meaning (Machine/Step.lean).
-/

namespace Sys2Proof

/-- Why a bit pattern is no instruction: the eight reasons of R47, or too few bytes were given to decode. -/
inductive Illegal where
  | opcode | length | function | zero | marker | field | operand | repetition
  | short
deriving DecidableEq, Repr

/-- The reason code of R47 (`short` never reaches the machine: a missing parcel is a fetch fault). -/
def Illegal.code : Illegal → Nat
  | .opcode => 1 | .length => 2 | .function => 3 | .zero => 4 | .marker => 5 | .field => 6 | .operand => 7
  | .repetition => 8 | .short => 0

/-- The reason with a given code. -/
def Illegal.ofCode (n : Nat) : Illegal :=
  match n with
  | 1 => .opcode | 2 => .length | 3 => .function | 4 => .zero | 5 => .marker | 6 => .field | 7 => .operand
  | 8 => .repetition | _ => .short

/-- The fields of the first parcel (R30), of the second (R31) and the literal (R33). -/
structure Raw where
  len : BitVec 2 := 0
  abit : Bool := false
  op : BitVec 7 := 0
  g : BitVec 3 := 0
  gn : Bool := false
  d : BitVec 6 := 0
  a : BitVec 6 := 0
  b : BitVec 6 := 0
  fn : BitVec 8 := 0
  c : BitVec 6 := 0
  cl : BitVec 4 := 0
  sc : BitVec 3 := 0
  rm : BitVec 3 := 0
  sat : Bool := false
  fmt : BitVec 6 := 0
  top : Bool := false
  lit : BitVec 32 := 0
deriving DecidableEq, Repr

/-- The fields read from three parcels; parcels past the length are given as zero. -/
def Raw.ofParcels (w0 w1 w2 : Parcel) : Raw :=
  { len := w0.extractLsb' 0 2, abit := w0.getLsbD 2, op := w0.extractLsb' 3 7, g := w0.extractLsb' 10 3,
    gn := w0.getLsbD 13, d := w0.extractLsb' 14 6, a := w0.extractLsb' 20 6, b := w0.extractLsb' 26 6,
    fn := w1.extractLsb' 0 8, c := w1.extractLsb' 8 6, cl := w1.extractLsb' 14 4, sc := w1.extractLsb' 18 3,
    rm := w1.extractLsb' 21 3, sat := w1.getLsbD 24, fmt := w1.extractLsb' 25 6, top := w1.getLsbD 31, lit := w2 }

/-- The first parcel of the fields (R30). -/
def Raw.parcel0 (r : Raw) : Parcel :=
  r.b ++ r.a ++ r.d ++ BitVec.ofBool r.gn ++ r.g ++ r.op ++ BitVec.ofBool r.abit ++ r.len

/-- The second parcel of the fields (R31). -/
def Raw.parcel1 (r : Raw) : Parcel :=
  BitVec.ofBool r.top ++ r.fmt ++ BitVec.ofBool r.sat ++ r.rm ++ r.sc ++ r.cl ++ r.c ++ r.fn

/-- The parcels of the fields, as many as LEN says (R29). -/
def Raw.parcels (r : Raw) : List Parcel :=
  match r.len.toNat with
  | 0 => [r.parcel0]
  | 1 => [r.parcel0, r.parcel1]
  | _ => [r.parcel0, r.parcel1, r.lit]

/-- The FMT field as a format. Before its own check has passed (reason 6) a code that is no format stands as INT8, so that RM of a literal
VSPLAT with such a code must be zero, otherwise the reason is 4 (DESIGN CHOICE, log 101: R175 says nothing of RM there). -/
def Raw.fmtD (r : Raw) : Fmt := (Fmt.ofCode r.fmt).getD .int8
/-- The SFMT field as a format; only read where the field check has passed. -/
def Raw.sfmtD (r : Raw) : Fmt := (Fmt.ofCode r.c).getD .int8
/-- Do the formats make a pair that VNARROW accepts, so that it uses RM (R175, R185)? -/
def Raw.narrows (r : Raw) : Bool :=
  match Fmt.ofCode r.fmt, Fmt.ofCode r.c with
  | some f, some sf => f.classI && sf.classI && vnarrowPair f sf
  | _, _ => false
/-- The CSR field as a control register; only read where the operand check has passed. -/
def Raw.csrD (r : Raw) : Csr := (Csr.ofCode (r.b ++ r.a)).getD .status

/-- The kind of operand that stands in a field (R34). -/
inductive Kind where
  | none               -- no operand: the field must be zero
  | scalar
  | vector             -- a register or a queue
  | queue              -- a queue only
  | tile               -- a tile or a queue
  | owner              -- a tile owner code
  | below (n : Nat)    -- a register number or small immediate below n
  | free               -- the bits belong to another layout, or are checked by the form
deriving DecidableEq, Repr

/-- Is the field value valid for its kind (R34)? -/
def Kind.valid (k : Kind) (v : BitVec 6) : Bool :=
  match k with
  | .none | .scalar | .vector | .free => true
  | .queue => 56 ≤ v.toNat
  | .tile => v.toNat < 16 || 56 ≤ v.toNat
  | .owner => v.toNat < 5 || v.toNat == 7
  | .below n => v.toNat < n

/-- Does a field of this kind hold an operand that REP may step (R40)? -/
def Kind.operand (k : Kind) : Bool :=
  match k with
  | .none | .free => false
  | _ => true

/-- Does the field value name an operand queue (R40)? -/
def Kind.namesQueue (k : Kind) (v : BitVec 6) : Bool :=
  match k with
  | .vector | .queue | .tile => 56 ≤ v.toNat
  | .below n => n == 56 && 56 ≤ v.toNat
  | _ => false

/-- The A bit an instruction may carry (R38). -/
inductive Mark where
  | forbidden | either | required
deriving DecidableEq, Repr

/-- The encoded rows of the opcode table, REP apart, by the names of their constructors. -/
inductive Row where
  | add | add64 | add96 | sub | sub64 | sub96 | mul | mul64 | mul96 | mulh | mulh64 | mulh96 | div | div64 | div96 
  | rem | rem64 | rem96 | and | and64 | and96 | or | or64 | or96 | xor | xor64 | xor96 | andn | andn64 | andn96 | shl 
  | shl64 | shl96 | shr | shr64 | shr96 | sra | sra64 | sra96 | rol | rol64 | rol96 | clz | clz64 | ctz | ctz64 
  | popc | popc64 | brev | brev64 | min | min64 | min96 | max | max64 | max96 | sel | sel64 | sel96 | mov | mov64 
  | movi | movi96 | addi | lea | lea64 | lea96 | cmp | cmp64 | cmp96 | pand | pand64 | por | por64 | pxor | pxor64 
  | pnot | pnot64 | br | jmp | jmp64 | jmp96 | call | ret | ret64 | loop | nop | nop64 | endTask | endTask64 | lds 
  | lds64 | lds96 | sts | sts64 | sts96 | csrr | csrw | shld | shldLit | shst | shstLit | shset | shsetLit | shget 
  | shmov | openR | openW | openG | adv | advLit | close | drain | pld | pldLit | reside | resideLit | lookahead 
  | lookaheadLit | posr | qcnt | vld | vldLit | vst | vstLit | scld | scldLit | pref | prefLit | vadd | vaddLit 
  | vsub | vsubLit | vmul | vmulLit | vfma | vfms | vnfma | vmin | vminLit | vmax | vmaxLit | vabs | vneg | vand 
  | vandLit | vor | vorLit | vxor | vxorLit | vnot | vshl | vshlLit | vshr | vshrLit | vsra | vsraLit | vrol 
  | vrolLit | vmulhi | vmulhiLit | vcmp | vcmpLit | vsel | vmov | vsplat | vsplatLit | viota | viotaLit | vcvt 
  | vwadd | vwmul | vnarrow | vnarrowLit | vredsum | vredmax | vredmin | vscan | vperm | vslide | vslideLit | vzip 
  | vunzip | vcompress | vexpand | vins | vinsLit | vext | vextLit | vrcp | vrsq | vsqrt | vexp2 | vlog2 | vtanh 
  | mand | mor | mxor | mnot | mpopc | mfirst | qcvt | qdcvt | lq | lqLit | ldq | ldqLit | lqrep | lqrepLit | lstat 
  | lstatLit | rngseed | rngseedLit | rngget | scpush | scpushLit | scpop | scpopLit | mma | mmas | mmag | mmal 
  | mzero | mdrain | mdrainLit | mcfg | mcfgLit | wload | wloadLit | wtab | wtabLit | wstat | mstat | copy | copyLit 
  | copyn | gather | scatter | xpose | xposeLit | cfill | cfillLit | phase | phaseLit | vpush | vpushLit | cwb 
  | cwbLit | cinv | cinvLit | fence | fenceLit | aadd | aaddLit | aand | aandLit | aor | aorLit | axor | axorLit 
  | amin | aminLit | amax | amaxLit | axchg | axchgLit | acas | acasLit | vaor | vaadd | vamax | ownGive | ownTake 
  | ownTest | bar | barLit | sstep | sstepLit | waitm | waitmLit | signal | signalLit | cswap | yield | park | wakeat 
  | wakeatLit | ctxnew | ctxnewLit | ctxfree | ctxq | ctxset | ctxsetLit | launch | launchLit | pgmap | pgmapLit 
  | pgunmap | pgunmapGrant | pgunmapGrantLit | pgpin | pgunpin | pgmove | pghint | kvalloc | kvallocLit | kvfree 
  | kvfreeLit | kvappend | kvinval | kvinvalLit | jbegin | jbeginLit | jcommit | jrewind | trap | trapLit | eret 
  | scrub | partcfg | partcfgLit | qoscfg | qoscfgLit | intpost | intpostLit | resetdom | tlbinv | tlbinvLit | rdtime 
  | rdlat | wfe | wfeLit | haltc | recast | recastLit | lnkstat | ristat | nsend | nfetch | ringstep | ringstepLit 
  | slcut | slwait | slcommit | slcommitLit | slrestore | slrestoreLit | slstat | errwatch | errwatchLit | memhint 
  | memstat 
deriving DecidableEq, Repr

/-- The instruction of a row, its operands read from the fields. -/
noncomputable def Row.instr (w : Row) (r : Raw) : Instr :=
  match w with
  | .add => .add ⟨r.g, r.gn⟩ r.abit r.d r.a r.b
  | .add64 => .add64 ⟨r.g, r.gn⟩ r.abit (ArithVar.ofCode r.fn) r.sat r.d r.a r.b
  | .add96 => .add96 ⟨r.g, r.gn⟩ r.abit (ArithVar.ofCode r.fn) r.sat r.d r.a r.lit
  | .sub => .sub ⟨r.g, r.gn⟩ r.abit r.d r.a r.b
  | .sub64 => .sub64 ⟨r.g, r.gn⟩ r.abit (ArithVar.ofCode r.fn) r.sat r.d r.a r.b
  | .sub96 => .sub96 ⟨r.g, r.gn⟩ r.abit (ArithVar.ofCode r.fn) r.sat r.d r.a r.lit
  | .mul => .mul ⟨r.g, r.gn⟩ r.abit r.d r.a r.b
  | .mul64 => .mul64 ⟨r.g, r.gn⟩ r.abit (ArithVar.ofCode r.fn) r.sat r.d r.a r.b
  | .mul96 => .mul96 ⟨r.g, r.gn⟩ r.abit (ArithVar.ofCode r.fn) r.sat r.d r.a r.lit
  | .mulh => .mulh ⟨r.g, r.gn⟩ r.d r.a r.b
  | .mulh64 => .mulh64 ⟨r.g, r.gn⟩ (MulhVar.ofCode r.fn) r.d r.a r.b
  | .mulh96 => .mulh96 ⟨r.g, r.gn⟩ (MulhVar.ofCode r.fn) r.d r.a r.lit
  | .div => .div ⟨r.g, r.gn⟩ r.d r.a r.b
  | .div64 => .div64 ⟨r.g, r.gn⟩ (DivVar.ofCode r.fn) r.sat r.d r.a r.b
  | .div96 => .div96 ⟨r.g, r.gn⟩ (DivVar.ofCode r.fn) r.sat r.d r.a r.lit
  | .rem => .rem ⟨r.g, r.gn⟩ r.d r.a r.b
  | .rem64 => .rem64 ⟨r.g, r.gn⟩ (DivVar.ofCode r.fn) r.d r.a r.b
  | .rem96 => .rem96 ⟨r.g, r.gn⟩ (DivVar.ofCode r.fn) r.d r.a r.lit
  | .and => .and ⟨r.g, r.gn⟩ r.abit r.d r.a r.b
  | .and64 => .and64 ⟨r.g, r.gn⟩ r.abit r.d r.a r.b
  | .and96 => .and96 ⟨r.g, r.gn⟩ r.abit r.d r.a r.lit
  | .or => .or ⟨r.g, r.gn⟩ r.abit r.d r.a r.b
  | .or64 => .or64 ⟨r.g, r.gn⟩ r.abit r.d r.a r.b
  | .or96 => .or96 ⟨r.g, r.gn⟩ r.abit r.d r.a r.lit
  | .xor => .xor ⟨r.g, r.gn⟩ r.abit r.d r.a r.b
  | .xor64 => .xor64 ⟨r.g, r.gn⟩ r.abit r.d r.a r.b
  | .xor96 => .xor96 ⟨r.g, r.gn⟩ r.abit r.d r.a r.lit
  | .andn => .andn ⟨r.g, r.gn⟩ r.abit r.d r.a r.b
  | .andn64 => .andn64 ⟨r.g, r.gn⟩ r.abit r.d r.a r.b
  | .andn96 => .andn96 ⟨r.g, r.gn⟩ r.abit r.d r.a r.lit
  | .shl => .shl ⟨r.g, r.gn⟩ r.abit r.d r.a r.b
  | .shl64 => .shl64 ⟨r.g, r.gn⟩ r.abit (WidthVar.ofCode r.fn) r.d r.a r.b
  | .shl96 => .shl96 ⟨r.g, r.gn⟩ r.abit (WidthVar.ofCode r.fn) r.d r.a r.lit
  | .shr => .shr ⟨r.g, r.gn⟩ r.abit r.d r.a r.b
  | .shr64 => .shr64 ⟨r.g, r.gn⟩ r.abit (WidthVar.ofCode r.fn) r.d r.a r.b
  | .shr96 => .shr96 ⟨r.g, r.gn⟩ r.abit (WidthVar.ofCode r.fn) r.d r.a r.lit
  | .sra => .sra ⟨r.g, r.gn⟩ r.abit r.d r.a r.b
  | .sra64 => .sra64 ⟨r.g, r.gn⟩ r.abit (WidthVar.ofCode r.fn) r.d r.a r.b
  | .sra96 => .sra96 ⟨r.g, r.gn⟩ r.abit (WidthVar.ofCode r.fn) r.d r.a r.lit
  | .rol => .rol ⟨r.g, r.gn⟩ r.d r.a r.b
  | .rol64 => .rol64 ⟨r.g, r.gn⟩ (WidthVar.ofCode r.fn) r.d r.a r.b
  | .rol96 => .rol96 ⟨r.g, r.gn⟩ (WidthVar.ofCode r.fn) r.d r.a r.lit
  | .clz => .clz ⟨r.g, r.gn⟩ r.d r.a
  | .clz64 => .clz64 ⟨r.g, r.gn⟩ (WidthVar.ofCode r.fn) r.d r.a
  | .ctz => .ctz ⟨r.g, r.gn⟩ r.d r.a
  | .ctz64 => .ctz64 ⟨r.g, r.gn⟩ (WidthVar.ofCode r.fn) r.d r.a
  | .popc => .popc ⟨r.g, r.gn⟩ r.d r.a
  | .popc64 => .popc64 ⟨r.g, r.gn⟩ (WidthVar.ofCode r.fn) r.d r.a
  | .brev => .brev ⟨r.g, r.gn⟩ r.d r.a
  | .brev64 => .brev64 ⟨r.g, r.gn⟩ (WidthVar.ofCode r.fn) r.d r.a
  | .min => .min ⟨r.g, r.gn⟩ r.abit r.d r.a r.b
  | .min64 => .min64 ⟨r.g, r.gn⟩ r.abit (SignVar.ofCode r.fn) r.d r.a r.b
  | .min96 => .min96 ⟨r.g, r.gn⟩ r.abit (SignVar.ofCode r.fn) r.d r.a r.lit
  | .max => .max ⟨r.g, r.gn⟩ r.abit r.d r.a r.b
  | .max64 => .max64 ⟨r.g, r.gn⟩ r.abit (SignVar.ofCode r.fn) r.d r.a r.b
  | .max96 => .max96 ⟨r.g, r.gn⟩ r.abit (SignVar.ofCode r.fn) r.d r.a r.lit
  | .sel => .sel ⟨r.g, r.gn⟩ r.abit r.d r.a r.b
  | .sel64 => .sel64 ⟨r.g, r.gn⟩ r.abit r.d r.a r.b (r.c.setWidth 3)
  | .sel96 => .sel96 ⟨r.g, r.gn⟩ r.abit r.d r.a r.lit (r.c.setWidth 3)
  | .mov => .mov ⟨r.g, r.gn⟩ r.abit r.d r.a
  | .mov64 => .mov64 ⟨r.g, r.gn⟩ r.abit r.d r.a
  | .movi => .movi ⟨r.g, r.gn⟩ r.abit r.d (r.b ++ r.a)
  | .movi96 => .movi96 ⟨r.g, r.gn⟩ r.abit (MoviVar.ofCode r.fn) r.d r.lit
  | .addi => .addi ⟨r.g, r.gn⟩ r.abit r.d (r.b ++ r.a)
  | .lea => .lea ⟨r.g, r.gn⟩ r.abit r.d r.a r.b
  | .lea64 => .lea64 ⟨r.g, r.gn⟩ r.abit r.d r.a r.b (r.c.setWidth 3)
  | .lea96 => .lea96 ⟨r.g, r.gn⟩ r.abit r.d r.a r.lit (r.c.setWidth 3)
  | .cmp => .cmp ⟨r.g, r.gn⟩ r.abit (r.d.setWidth 3) r.a r.b
  | .cmp64 => .cmp64 ⟨r.g, r.gn⟩ r.abit (Cond.ofCode r.fn) (r.d.setWidth 3) r.a r.b
  | .cmp96 => .cmp96 ⟨r.g, r.gn⟩ r.abit (Cond.ofCode r.fn) (r.d.setWidth 3) r.a r.lit
  | .pand => .pand ⟨r.g, r.gn⟩ r.abit (r.d.setWidth 3) (r.a.setWidth 3) (r.b.setWidth 3)
  | .pand64 => .pand64 ⟨r.g, r.gn⟩ r.abit (r.d.setWidth 3) (r.a.setWidth 3) (r.b.setWidth 3)
  | .por => .por ⟨r.g, r.gn⟩ r.abit (r.d.setWidth 3) (r.a.setWidth 3) (r.b.setWidth 3)
  | .por64 => .por64 ⟨r.g, r.gn⟩ r.abit (r.d.setWidth 3) (r.a.setWidth 3) (r.b.setWidth 3)
  | .pxor => .pxor ⟨r.g, r.gn⟩ r.abit (r.d.setWidth 3) (r.a.setWidth 3) (r.b.setWidth 3)
  | .pxor64 => .pxor64 ⟨r.g, r.gn⟩ r.abit (r.d.setWidth 3) (r.a.setWidth 3) (r.b.setWidth 3)
  | .pnot => .pnot ⟨r.g, r.gn⟩ r.abit (r.d.setWidth 3) (r.a.setWidth 3)
  | .pnot64 => .pnot64 ⟨r.g, r.gn⟩ r.abit (r.d.setWidth 3) (r.a.setWidth 3)
  | .br => .br ⟨r.g, r.gn⟩ (r.b ++ r.a ++ r.d)
  | .jmp => .jmp ⟨r.g, r.gn⟩ r.a
  | .jmp64 => .jmp64 ⟨r.g, r.gn⟩ r.a
  | .jmp96 => .jmp96 ⟨r.g, r.gn⟩ r.a r.lit
  | .call => .call ⟨r.g, r.gn⟩ (r.b ++ r.a ++ r.d)
  | .ret => .ret ⟨r.g, r.gn⟩ r.a
  | .ret64 => .ret64 ⟨r.g, r.gn⟩ r.a
  | .loop => .loop ⟨r.g, r.gn⟩ r.d (r.b ++ r.a)
  | .nop => .nop ⟨r.g, r.gn⟩ r.abit
  | .nop64 => .nop64 ⟨r.g, r.gn⟩ r.abit
  | .endTask => .endTask ⟨r.g, r.gn⟩
  | .endTask64 => .endTask64 ⟨r.g, r.gn⟩
  | .lds => .lds ⟨r.g, r.gn⟩ r.d r.a r.b
  | .lds64 => .lds64 ⟨r.g, r.gn⟩ (LdW.ofCode r.fn) r.cl (Space.ofCode (r.c.extractLsb' 0 2)) r.d r.a r.b
  | .lds96 => .lds96 ⟨r.g, r.gn⟩ (LdW.ofCode r.fn) r.cl (Space.ofCode (r.c.extractLsb' 0 2)) r.d r.a r.lit
  | .sts => .sts ⟨r.g, r.gn⟩ r.d r.a r.b
  | .sts64 => .sts64 ⟨r.g, r.gn⟩ (StW.ofCode r.fn) r.cl (Space.ofCode (r.c.extractLsb' 0 2)) r.d r.a r.b
  | .sts96 => .sts96 ⟨r.g, r.gn⟩ (StW.ofCode r.fn) r.cl (Space.ofCode (r.c.extractLsb' 0 2)) r.d r.a r.lit
  | .csrr => .csrr ⟨r.g, r.gn⟩ r.d r.csrD
  | .csrw => .csrw ⟨r.g, r.gn⟩ r.d r.csrD
  | .shld => .shld ⟨r.g, r.gn⟩ r.cl (Space.ofCode (r.c.extractLsb' 0 2)) (r.d.setWidth 4) r.a r.b
  | .shldLit => .shldLit ⟨r.g, r.gn⟩ r.cl (Space.ofCode (r.c.extractLsb' 0 2)) (r.d.setWidth 4) r.a r.lit
  | .shst => .shst ⟨r.g, r.gn⟩ r.cl (Space.ofCode (r.c.extractLsb' 0 2)) (r.d.setWidth 4) r.a r.b
  | .shstLit => .shstLit ⟨r.g, r.gn⟩ r.cl (Space.ofCode (r.c.extractLsb' 0 2)) (r.d.setWidth 4) r.a r.lit
  | .shset => .shset ⟨r.g, r.gn⟩ (r.d.setWidth 4) r.b (r.c.setWidth 3)
  | .shsetLit => .shsetLit ⟨r.g, r.gn⟩ (r.d.setWidth 4) r.lit (r.c.setWidth 3)
  | .shget => .shget ⟨r.g, r.gn⟩ r.d (r.a.setWidth 4) (r.c.setWidth 3)
  | .shmov => .shmov ⟨r.g, r.gn⟩ (r.d.setWidth 4) (r.a.setWidth 4)
  | .openR => .openR ⟨r.g, r.gn⟩ r.cl (r.d.setWidth 3) (r.a.setWidth 4)
  | .openW => .openW ⟨r.g, r.gn⟩ r.cl (r.d.setWidth 3) (r.a.setWidth 4)
  | .openG => .openG ⟨r.g, r.gn⟩ r.cl (r.d.setWidth 3) (r.a.setWidth 4) (r.b.setWidth 4)
  | .adv => .adv ⟨r.g, r.gn⟩ (r.d.setWidth 3) r.b
  | .advLit => .advLit ⟨r.g, r.gn⟩ (r.d.setWidth 3) r.lit
  | .close => .close ⟨r.g, r.gn⟩ (r.d.setWidth 3)
  | .drain => .drain ⟨r.g, r.gn⟩ (r.d.setWidth 3)
  | .pld => .pld ⟨r.g, r.gn⟩ r.cl (Fin.ofNat 56 r.d.toNat) (r.a.setWidth 4) r.b (r.c.setWidth 4)
  | .pldLit => .pldLit ⟨r.g, r.gn⟩ r.cl (Fin.ofNat 56 r.d.toNat) (r.a.setWidth 4) r.lit (r.c.setWidth 4)
  | .reside => .reside ⟨r.g, r.gn⟩ r.d (r.a.setWidth 4) r.b (r.c.setWidth 4)
  | .resideLit => .resideLit ⟨r.g, r.gn⟩ r.d (r.a.setWidth 4) r.lit (r.c.setWidth 4)
  | .lookahead => .lookahead ⟨r.g, r.gn⟩ (r.d.setWidth 3) r.b
  | .lookaheadLit => .lookaheadLit ⟨r.g, r.gn⟩ (r.d.setWidth 3) r.lit
  | .posr => .posr ⟨r.g, r.gn⟩ r.d (r.a.setWidth 3) (Fin.ofNat 3 r.c.toNat)
  | .qcnt => .qcnt ⟨r.g, r.gn⟩ r.d (r.a.setWidth 3)
  | .vld => .vld ⟨r.g, r.gn⟩ r.cl (Fin.ofNat 56 r.d.toNat) (r.a.setWidth 4) r.b (r.c.setWidth 4)
  | .vldLit => .vldLit ⟨r.g, r.gn⟩ r.cl (Fin.ofNat 56 r.d.toNat) (r.a.setWidth 4) r.lit (r.c.setWidth 4)
  | .vst => .vst ⟨r.g, r.gn⟩ r.cl (Fin.ofNat 56 r.d.toNat) (r.a.setWidth 4) r.b (r.c.setWidth 4)
  | .vstLit => .vstLit ⟨r.g, r.gn⟩ r.cl (Fin.ofNat 56 r.d.toNat) (r.a.setWidth 4) r.lit (r.c.setWidth 4)
  | .scld => .scld ⟨r.g, r.gn⟩ r.cl (r.a.setWidth 4) r.b
  | .scldLit => .scldLit ⟨r.g, r.gn⟩ r.cl (r.a.setWidth 4) r.lit
  | .pref => .pref ⟨r.g, r.gn⟩ (r.a.setWidth 4) r.b (Fin.ofNat 2 r.c.toNat)
  | .prefLit => .prefLit ⟨r.g, r.gn⟩ (r.a.setWidth 4) r.lit (Fin.ofNat 2 r.c.toNat)
  | .vadd => .vadd ⟨r.g, r.gn⟩ r.fmtD (Rm.ofCode r.rm) r.sat (VOp.ofCode r.d) (VOp.ofCode r.a) (VOp.ofCode r.b) (r.c.setWidth 4)
  | .vaddLit => .vaddLit ⟨r.g, r.gn⟩ r.fmtD (Rm.ofCode r.rm) r.sat (VOp.ofCode r.d) (VOp.ofCode r.a) r.lit (r.c.setWidth 4)
  | .vsub => .vsub ⟨r.g, r.gn⟩ r.fmtD (Rm.ofCode r.rm) r.sat (VOp.ofCode r.d) (VOp.ofCode r.a) (VOp.ofCode r.b) (r.c.setWidth 4)
  | .vsubLit => .vsubLit ⟨r.g, r.gn⟩ r.fmtD (Rm.ofCode r.rm) r.sat (VOp.ofCode r.d) (VOp.ofCode r.a) r.lit (r.c.setWidth 4)
  | .vmul => .vmul ⟨r.g, r.gn⟩ r.fmtD (Rm.ofCode r.rm) r.sat (VOp.ofCode r.d) (VOp.ofCode r.a) (VOp.ofCode r.b) (r.c.setWidth 4)
  | .vmulLit => .vmulLit ⟨r.g, r.gn⟩ r.fmtD (Rm.ofCode r.rm) r.sat (VOp.ofCode r.d) (VOp.ofCode r.a) r.lit (r.c.setWidth 4)
  | .vfma => .vfma ⟨r.g, r.gn⟩ r.fmtD (Rm.ofCode r.rm) r.sat (Fin.ofNat 56 r.d.toNat) (VOp.ofCode r.a) (VOp.ofCode r.b) (r.c.setWidth 4)
  | .vfms => .vfms ⟨r.g, r.gn⟩ r.fmtD (Rm.ofCode r.rm) r.sat (Fin.ofNat 56 r.d.toNat) (VOp.ofCode r.a) (VOp.ofCode r.b) (r.c.setWidth 4)
  | .vnfma => .vnfma ⟨r.g, r.gn⟩ r.fmtD (Rm.ofCode r.rm) r.sat (Fin.ofNat 56 r.d.toNat) (VOp.ofCode r.a) (VOp.ofCode r.b) (r.c.setWidth 4)
  | .vmin => .vmin ⟨r.g, r.gn⟩ r.fmtD (VOp.ofCode r.d) (VOp.ofCode r.a) (VOp.ofCode r.b) (r.c.setWidth 4)
  | .vminLit => .vminLit ⟨r.g, r.gn⟩ r.fmtD (VOp.ofCode r.d) (VOp.ofCode r.a) r.lit (r.c.setWidth 4)
  | .vmax => .vmax ⟨r.g, r.gn⟩ r.fmtD (VOp.ofCode r.d) (VOp.ofCode r.a) (VOp.ofCode r.b) (r.c.setWidth 4)
  | .vmaxLit => .vmaxLit ⟨r.g, r.gn⟩ r.fmtD (VOp.ofCode r.d) (VOp.ofCode r.a) r.lit (r.c.setWidth 4)
  | .vabs => .vabs ⟨r.g, r.gn⟩ r.fmtD r.sat (VOp.ofCode r.d) (VOp.ofCode r.a) (r.c.setWidth 4)
  | .vneg => .vneg ⟨r.g, r.gn⟩ r.fmtD r.sat (VOp.ofCode r.d) (VOp.ofCode r.a) (r.c.setWidth 4)
  | .vand => .vand ⟨r.g, r.gn⟩ r.fmtD (VOp.ofCode r.d) (VOp.ofCode r.a) (VOp.ofCode r.b) (r.c.setWidth 4)
  | .vandLit => .vandLit ⟨r.g, r.gn⟩ r.fmtD (VOp.ofCode r.d) (VOp.ofCode r.a) r.lit (r.c.setWidth 4)
  | .vor => .vor ⟨r.g, r.gn⟩ r.fmtD (VOp.ofCode r.d) (VOp.ofCode r.a) (VOp.ofCode r.b) (r.c.setWidth 4)
  | .vorLit => .vorLit ⟨r.g, r.gn⟩ r.fmtD (VOp.ofCode r.d) (VOp.ofCode r.a) r.lit (r.c.setWidth 4)
  | .vxor => .vxor ⟨r.g, r.gn⟩ r.fmtD (VOp.ofCode r.d) (VOp.ofCode r.a) (VOp.ofCode r.b) (r.c.setWidth 4)
  | .vxorLit => .vxorLit ⟨r.g, r.gn⟩ r.fmtD (VOp.ofCode r.d) (VOp.ofCode r.a) r.lit (r.c.setWidth 4)
  | .vnot => .vnot ⟨r.g, r.gn⟩ r.fmtD (VOp.ofCode r.d) (VOp.ofCode r.a) (r.c.setWidth 4)
  | .vshl => .vshl ⟨r.g, r.gn⟩ r.fmtD (VOp.ofCode r.d) (VOp.ofCode r.a) (VOp.ofCode r.b) (r.c.setWidth 4)
  | .vshlLit => .vshlLit ⟨r.g, r.gn⟩ r.fmtD (VOp.ofCode r.d) (VOp.ofCode r.a) r.lit (r.c.setWidth 4)
  | .vshr => .vshr ⟨r.g, r.gn⟩ r.fmtD (VOp.ofCode r.d) (VOp.ofCode r.a) (VOp.ofCode r.b) (r.c.setWidth 4)
  | .vshrLit => .vshrLit ⟨r.g, r.gn⟩ r.fmtD (VOp.ofCode r.d) (VOp.ofCode r.a) r.lit (r.c.setWidth 4)
  | .vsra => .vsra ⟨r.g, r.gn⟩ r.fmtD (VOp.ofCode r.d) (VOp.ofCode r.a) (VOp.ofCode r.b) (r.c.setWidth 4)
  | .vsraLit => .vsraLit ⟨r.g, r.gn⟩ r.fmtD (VOp.ofCode r.d) (VOp.ofCode r.a) r.lit (r.c.setWidth 4)
  | .vrol => .vrol ⟨r.g, r.gn⟩ r.fmtD (VOp.ofCode r.d) (VOp.ofCode r.a) (VOp.ofCode r.b) (r.c.setWidth 4)
  | .vrolLit => .vrolLit ⟨r.g, r.gn⟩ r.fmtD (VOp.ofCode r.d) (VOp.ofCode r.a) r.lit (r.c.setWidth 4)
  | .vmulhi => .vmulhi ⟨r.g, r.gn⟩ r.fmtD (VOp.ofCode r.d) (VOp.ofCode r.a) (VOp.ofCode r.b) (r.c.setWidth 4)
  | .vmulhiLit => .vmulhiLit ⟨r.g, r.gn⟩ r.fmtD (VOp.ofCode r.d) (VOp.ofCode r.a) r.lit (r.c.setWidth 4)
  | .vcmp => .vcmp ⟨r.g, r.gn⟩ r.fmtD (r.d.setWidth 4) (VOp.ofCode r.a) (VOp.ofCode r.b) (VCond.ofCode r.c)
  | .vcmpLit => .vcmpLit ⟨r.g, r.gn⟩ r.fmtD (r.d.setWidth 4) (VOp.ofCode r.a) r.lit (VCond.ofCode r.c)
  | .vsel => .vsel ⟨r.g, r.gn⟩ r.fmtD (VOp.ofCode r.d) (VOp.ofCode r.a) (VOp.ofCode r.b) (r.c.setWidth 4)
  | .vmov => .vmov ⟨r.g, r.gn⟩ r.fmtD (VOp.ofCode r.d) (VOp.ofCode r.a) (r.c.setWidth 4)
  | .vsplat => .vsplat ⟨r.g, r.gn⟩ r.fmtD (VOp.ofCode r.d) r.b (r.c.setWidth 4)
  | .vsplatLit => .vsplatLit ⟨r.g, r.gn⟩ r.fmtD (Rm.ofCode r.rm) r.sat (VOp.ofCode r.d) r.lit (r.c.setWidth 4)
  | .viota => .viota ⟨r.g, r.gn⟩ r.fmtD (VOp.ofCode r.d) r.b (r.c.setWidth 4)
  | .viotaLit => .viotaLit ⟨r.g, r.gn⟩ r.fmtD (VOp.ofCode r.d) r.lit (r.c.setWidth 4)
  | .vcvt => .vcvt ⟨r.g, r.gn⟩ r.fmtD r.sfmtD (Rm.ofCode r.rm) r.sat (VOp.ofCode r.d) (VOp.ofCode r.a)
  | .vwadd => .vwadd ⟨r.g, r.gn⟩ r.fmtD r.sfmtD (Rm.ofCode r.rm) r.sat (VOp.ofCode r.d) (VOp.ofCode r.a) (VOp.ofCode r.b)
  | .vwmul => .vwmul ⟨r.g, r.gn⟩ r.fmtD r.sfmtD (Rm.ofCode r.rm) r.sat (VOp.ofCode r.d) (VOp.ofCode r.a) (VOp.ofCode r.b)
  | .vnarrow => .vnarrow ⟨r.g, r.gn⟩ r.fmtD r.sfmtD (Rm.ofCode r.rm) r.sat (VOp.ofCode r.d) (VOp.ofCode r.a) r.b
  | .vnarrowLit => .vnarrowLit ⟨r.g, r.gn⟩ r.fmtD r.sfmtD (Rm.ofCode r.rm) r.sat (VOp.ofCode r.d) (VOp.ofCode r.a) r.lit
  | .vredsum => .vredsum ⟨r.g, r.gn⟩ r.fmtD (Rm.ofCode r.rm) r.sat (VOp.ofCode r.d) (VOp.ofCode r.a) (r.c.setWidth 4)
  | .vredmax => .vredmax ⟨r.g, r.gn⟩ r.fmtD (VOp.ofCode r.d) (VOp.ofCode r.a) (r.c.setWidth 4)
  | .vredmin => .vredmin ⟨r.g, r.gn⟩ r.fmtD (VOp.ofCode r.d) (VOp.ofCode r.a) (r.c.setWidth 4)
  | .vscan => .vscan ⟨r.g, r.gn⟩ r.fmtD (Rm.ofCode r.rm) r.sat (VOp.ofCode r.d) (VOp.ofCode r.a) (r.c.setWidth 4)
  | .vperm => .vperm ⟨r.g, r.gn⟩ r.fmtD (VOp.ofCode r.d) (VOp.ofCode r.a) (VOp.ofCode r.b) (r.c.setWidth 4)
  | .vslide => .vslide ⟨r.g, r.gn⟩ r.fmtD (VOp.ofCode r.d) (VOp.ofCode r.a) r.b (r.c.setWidth 4)
  | .vslideLit => .vslideLit ⟨r.g, r.gn⟩ r.fmtD (VOp.ofCode r.d) (VOp.ofCode r.a) r.lit (r.c.setWidth 4)
  | .vzip => .vzip ⟨r.g, r.gn⟩ r.fmtD (VOp.ofCode r.d) (VOp.ofCode r.a) (VOp.ofCode r.b)
  | .vunzip => .vunzip ⟨r.g, r.gn⟩ r.fmtD (VOp.ofCode r.d) (VOp.ofCode r.a) (VOp.ofCode r.b)
  | .vcompress => .vcompress ⟨r.g, r.gn⟩ r.fmtD (VOp.ofCode r.d) (VOp.ofCode r.a) (r.c.setWidth 4)
  | .vexpand => .vexpand ⟨r.g, r.gn⟩ r.fmtD (VOp.ofCode r.d) (VOp.ofCode r.a) (r.c.setWidth 4)
  | .vins => .vins ⟨r.g, r.gn⟩ r.fmtD (Fin.ofNat 56 r.d.toNat) r.a r.b
  | .vinsLit => .vinsLit ⟨r.g, r.gn⟩ r.fmtD (Fin.ofNat 56 r.d.toNat) r.a r.lit
  | .vext => .vext ⟨r.g, r.gn⟩ r.fmtD r.d (VOp.ofCode r.a) r.b
  | .vextLit => .vextLit ⟨r.g, r.gn⟩ r.fmtD r.d (VOp.ofCode r.a) r.lit
  | .vrcp => .vrcp ⟨r.g, r.gn⟩ r.fmtD (Rm.ofCode r.rm) r.sat (VOp.ofCode r.d) (VOp.ofCode r.a) (r.c.setWidth 4)
  | .vrsq => .vrsq ⟨r.g, r.gn⟩ r.fmtD (Rm.ofCode r.rm) r.sat (VOp.ofCode r.d) (VOp.ofCode r.a) (r.c.setWidth 4)
  | .vsqrt => .vsqrt ⟨r.g, r.gn⟩ r.fmtD (Rm.ofCode r.rm) r.sat (VOp.ofCode r.d) (VOp.ofCode r.a) (r.c.setWidth 4)
  | .vexp2 => .vexp2 ⟨r.g, r.gn⟩ r.fmtD (Rm.ofCode r.rm) r.sat (VOp.ofCode r.d) (VOp.ofCode r.a) (r.c.setWidth 4)
  | .vlog2 => .vlog2 ⟨r.g, r.gn⟩ r.fmtD (Rm.ofCode r.rm) r.sat (VOp.ofCode r.d) (VOp.ofCode r.a) (r.c.setWidth 4)
  | .vtanh => .vtanh ⟨r.g, r.gn⟩ r.fmtD (Rm.ofCode r.rm) r.sat (VOp.ofCode r.d) (VOp.ofCode r.a) (r.c.setWidth 4)
  | .mand => .mand ⟨r.g, r.gn⟩ (r.d.setWidth 4) (r.a.setWidth 4) (r.b.setWidth 4)
  | .mor => .mor ⟨r.g, r.gn⟩ (r.d.setWidth 4) (r.a.setWidth 4) (r.b.setWidth 4)
  | .mxor => .mxor ⟨r.g, r.gn⟩ (r.d.setWidth 4) (r.a.setWidth 4) (r.b.setWidth 4)
  | .mnot => .mnot ⟨r.g, r.gn⟩ (r.d.setWidth 4) (r.a.setWidth 4)
  | .mpopc => .mpopc ⟨r.g, r.gn⟩ r.d (r.a.setWidth 4)
  | .mfirst => .mfirst ⟨r.g, r.gn⟩ r.d (r.a.setWidth 4)
  | .qcvt => .qcvt ⟨r.g, r.gn⟩ r.fmtD r.sfmtD (Rm.ofCode r.rm) (VOp.ofCode r.d) (VOp.ofCode r.a) (r.b.setWidth 2)
  | .qdcvt => .qdcvt ⟨r.g, r.gn⟩ r.fmtD r.sfmtD (Rm.ofCode r.rm) r.sat (VOp.ofCode r.d) (VOp.ofCode r.a) (r.b.setWidth 1)
  | .lq => .lq ⟨r.g, r.gn⟩ r.fmtD r.sfmtD r.sat (Fin.ofNat 56 r.d.toNat) (VOp.ofCode r.a) r.b
  | .lqLit => .lqLit ⟨r.g, r.gn⟩ r.fmtD r.sfmtD r.sat (Fin.ofNat 56 r.d.toNat) (VOp.ofCode r.a) r.lit
  | .ldq => .ldq ⟨r.g, r.gn⟩ r.fmtD r.sfmtD (Rm.ofCode r.rm) r.sat (Fin.ofNat 56 r.d.toNat) (VOp.ofCode r.a) r.b
  | .ldqLit => .ldqLit ⟨r.g, r.gn⟩ r.fmtD r.sfmtD (Rm.ofCode r.rm) r.sat (Fin.ofNat 56 r.d.toNat) (VOp.ofCode r.a) r.lit
  | .lqrep => .lqrep ⟨r.g, r.gn⟩ r.fmtD r.sfmtD r.sat (Fin.ofNat 56 r.d.toNat) (VOp.ofCode r.a) r.b
  | .lqrepLit => .lqrepLit ⟨r.g, r.gn⟩ r.fmtD r.sfmtD r.sat (Fin.ofNat 56 r.d.toNat) (VOp.ofCode r.a) r.lit
  | .lstat => .lstat ⟨r.g, r.gn⟩ r.fmtD r.sfmtD r.d (VOp.ofCode r.a) r.b
  | .lstatLit => .lstatLit ⟨r.g, r.gn⟩ r.fmtD r.sfmtD r.d (VOp.ofCode r.a) r.lit
  | .rngseed => .rngseed ⟨r.g, r.gn⟩ r.b
  | .rngseedLit => .rngseedLit ⟨r.g, r.gn⟩ r.lit
  | .rngget => .rngget ⟨r.g, r.gn⟩ r.fmtD (VOp.ofCode r.d) (r.c.setWidth 4)
  | .scpush => .scpush ⟨r.g, r.gn⟩ (VOp.ofCode r.a) r.b
  | .scpushLit => .scpushLit ⟨r.g, r.gn⟩ (VOp.ofCode r.a) r.lit
  | .scpop => .scpop ⟨r.g, r.gn⟩ (Fin.ofNat 56 r.d.toNat) r.b
  | .scpopLit => .scpopLit ⟨r.g, r.gn⟩ (Fin.ofNat 56 r.d.toNat) r.lit
  | .mma => .mma ⟨r.g, r.gn⟩ r.fmtD r.sat (r.d.setWidth 3) (TOp.ofCode r.a) (r.b.setWidth 4)
  | .mmas => .mmas ⟨r.g, r.gn⟩ r.fmtD r.sat (r.d.setWidth 3) (TOp.ofCode r.a) (r.b.setWidth 4) (r.c.setWidth 4)
  | .mmag => .mmag ⟨r.g, r.gn⟩ r.fmtD r.sat (r.d.setWidth 3) (r.a.setWidth 4) (r.b.setWidth 4) (VOp.ofCode r.c)
  | .mmal => .mmal ⟨r.g, r.gn⟩ r.fmtD r.sat (r.d.setWidth 3) (TOp.ofCode r.a) (r.b.setWidth 4)
  | .mzero => .mzero ⟨r.g, r.gn⟩ (r.d.setWidth 3)
  | .mdrain => .mdrain ⟨r.g, r.gn⟩ r.fmtD (Rm.ofCode r.rm) r.sat (Scope.ofCode r.sc) r.cl (Space.ofCode (r.c.extractLsb' 0 2)) (r.c.getLsbD 2) (TOp.ofCode r.d) (r.a.setWidth 3) r.b
  | .mdrainLit => .mdrainLit ⟨r.g, r.gn⟩ r.fmtD (Rm.ofCode r.rm) r.sat (Scope.ofCode r.sc) r.cl (Space.ofCode (r.c.extractLsb' 0 2)) (r.c.getLsbD 2) (TOp.ofCode r.d) (r.a.setWidth 3) r.lit
  | .mcfg => .mcfg ⟨r.g, r.gn⟩ r.b
  | .mcfgLit => .mcfgLit ⟨r.g, r.gn⟩ r.lit
  | .wload => .wload ⟨r.g, r.gn⟩ r.fmtD r.cl (Space.ofCode (r.c.extractLsb' 0 2)) (r.c.getLsbD 2) (r.c.getLsbD 3) (r.c.getLsbD 4) (r.d.setWidth 4) r.a r.b
  | .wloadLit => .wloadLit ⟨r.g, r.gn⟩ r.fmtD r.cl (Space.ofCode (r.c.extractLsb' 0 2)) (r.c.getLsbD 2) (r.c.getLsbD 3) (r.c.getLsbD 4) (r.d.setWidth 4) r.a r.lit
  | .wtab => .wtab ⟨r.g, r.gn⟩ r.cl (Space.ofCode (r.c.extractLsb' 0 2)) r.a r.b
  | .wtabLit => .wtabLit ⟨r.g, r.gn⟩ r.cl (Space.ofCode (r.c.extractLsb' 0 2)) r.a r.lit
  | .wstat => .wstat ⟨r.g, r.gn⟩ r.d (r.b.setWidth 2)
  | .mstat => .mstat ⟨r.g, r.gn⟩ r.d (Fin.ofNat 5 r.b.toNat)
  | .copy => .copy ⟨r.g, r.gn⟩ (Scope.ofCode r.sc) r.cl (Space.ofCode (r.c.extractLsb' 0 2)) (Space.ofCode (r.c.extractLsb' 2 2)) r.d r.a r.b
  | .copyLit => .copyLit ⟨r.g, r.gn⟩ (Scope.ofCode r.sc) r.cl (Space.ofCode (r.c.extractLsb' 0 2)) (Space.ofCode (r.c.extractLsb' 2 2)) r.d r.a r.lit
  | .copyn => .copyn ⟨r.g, r.gn⟩ (Scope.ofCode r.sc) r.cl (r.d.setWidth 4) (r.a.setWidth 4)
  | .gather => .gather ⟨r.g, r.gn⟩ (Scope.ofCode r.sc) r.cl (Space.ofCode (r.c.extractLsb' 0 2)) r.d (r.a.setWidth 4) (r.b.setWidth 4)
  | .scatter => .scatter ⟨r.g, r.gn⟩ (Scope.ofCode r.sc) r.cl (Space.ofCode (r.c.extractLsb' 0 2)) (r.d.setWidth 4) r.a (r.b.setWidth 4)
  | .xpose => .xpose ⟨r.g, r.gn⟩ r.fmtD (Scope.ofCode r.sc) r.cl (Space.ofCode (r.c.extractLsb' 0 2)) (Space.ofCode (r.c.extractLsb' 2 2)) r.d r.a r.b
  | .xposeLit => .xposeLit ⟨r.g, r.gn⟩ r.fmtD (Scope.ofCode r.sc) r.cl (Space.ofCode (r.c.extractLsb' 0 2)) (Space.ofCode (r.c.extractLsb' 2 2)) r.d r.a r.lit
  | .cfill => .cfill ⟨r.g, r.gn⟩ r.fmtD (Scope.ofCode r.sc) r.cl (Space.ofCode (r.c.extractLsb' 0 2)) r.d r.a r.b
  | .cfillLit => .cfillLit ⟨r.g, r.gn⟩ r.fmtD (Scope.ofCode r.sc) r.cl (Space.ofCode (r.c.extractLsb' 0 2)) r.d r.a r.lit
  | .phase => .phase ⟨r.g, r.gn⟩ r.d r.b
  | .phaseLit => .phaseLit ⟨r.g, r.gn⟩ r.d r.lit
  | .vpush => .vpush ⟨r.g, r.gn⟩ r.cl (Fin.ofNat 56 r.d.toNat) r.a r.b
  | .vpushLit => .vpushLit ⟨r.g, r.gn⟩ r.cl (Fin.ofNat 56 r.d.toNat) r.a r.lit
  | .cwb => .cwb ⟨r.g, r.gn⟩ r.a r.b
  | .cwbLit => .cwbLit ⟨r.g, r.gn⟩ r.a r.lit
  | .cinv => .cinv ⟨r.g, r.gn⟩ r.a r.b
  | .cinvLit => .cinvLit ⟨r.g, r.gn⟩ r.a r.lit
  | .fence => .fence ⟨r.g, r.gn⟩ (Scope.ofCode r.sc) r.b
  | .fenceLit => .fenceLit ⟨r.g, r.gn⟩ (Scope.ofCode r.sc) r.lit
  | .aadd => .aadd ⟨r.g, r.gn⟩ r.fmtD (Rm.ofCode r.rm) (Scope.ofCode r.sc) r.cl (Space.ofCode (r.c.extractLsb' 0 2)) (Order.ofCode (r.c.extractLsb' 2 2)) r.d r.a r.b
  | .aaddLit => .aaddLit ⟨r.g, r.gn⟩ r.fmtD (Rm.ofCode r.rm) (Scope.ofCode r.sc) r.cl (Space.ofCode (r.c.extractLsb' 0 2)) (Order.ofCode (r.c.extractLsb' 2 2)) r.d r.a r.lit
  | .aand => .aand ⟨r.g, r.gn⟩ r.fmtD (Scope.ofCode r.sc) r.cl (Space.ofCode (r.c.extractLsb' 0 2)) (Order.ofCode (r.c.extractLsb' 2 2)) r.d r.a r.b
  | .aandLit => .aandLit ⟨r.g, r.gn⟩ r.fmtD (Scope.ofCode r.sc) r.cl (Space.ofCode (r.c.extractLsb' 0 2)) (Order.ofCode (r.c.extractLsb' 2 2)) r.d r.a r.lit
  | .aor => .aor ⟨r.g, r.gn⟩ r.fmtD (Scope.ofCode r.sc) r.cl (Space.ofCode (r.c.extractLsb' 0 2)) (Order.ofCode (r.c.extractLsb' 2 2)) r.d r.a r.b
  | .aorLit => .aorLit ⟨r.g, r.gn⟩ r.fmtD (Scope.ofCode r.sc) r.cl (Space.ofCode (r.c.extractLsb' 0 2)) (Order.ofCode (r.c.extractLsb' 2 2)) r.d r.a r.lit
  | .axor => .axor ⟨r.g, r.gn⟩ r.fmtD (Scope.ofCode r.sc) r.cl (Space.ofCode (r.c.extractLsb' 0 2)) (Order.ofCode (r.c.extractLsb' 2 2)) r.d r.a r.b
  | .axorLit => .axorLit ⟨r.g, r.gn⟩ r.fmtD (Scope.ofCode r.sc) r.cl (Space.ofCode (r.c.extractLsb' 0 2)) (Order.ofCode (r.c.extractLsb' 2 2)) r.d r.a r.lit
  | .amin => .amin ⟨r.g, r.gn⟩ r.fmtD (Scope.ofCode r.sc) r.cl (Space.ofCode (r.c.extractLsb' 0 2)) (Order.ofCode (r.c.extractLsb' 2 2)) r.d r.a r.b
  | .aminLit => .aminLit ⟨r.g, r.gn⟩ r.fmtD (Scope.ofCode r.sc) r.cl (Space.ofCode (r.c.extractLsb' 0 2)) (Order.ofCode (r.c.extractLsb' 2 2)) r.d r.a r.lit
  | .amax => .amax ⟨r.g, r.gn⟩ r.fmtD (Scope.ofCode r.sc) r.cl (Space.ofCode (r.c.extractLsb' 0 2)) (Order.ofCode (r.c.extractLsb' 2 2)) r.d r.a r.b
  | .amaxLit => .amaxLit ⟨r.g, r.gn⟩ r.fmtD (Scope.ofCode r.sc) r.cl (Space.ofCode (r.c.extractLsb' 0 2)) (Order.ofCode (r.c.extractLsb' 2 2)) r.d r.a r.lit
  | .axchg => .axchg ⟨r.g, r.gn⟩ r.fmtD (Scope.ofCode r.sc) r.cl (Space.ofCode (r.c.extractLsb' 0 2)) (Order.ofCode (r.c.extractLsb' 2 2)) r.d r.a r.b
  | .axchgLit => .axchgLit ⟨r.g, r.gn⟩ r.fmtD (Scope.ofCode r.sc) r.cl (Space.ofCode (r.c.extractLsb' 0 2)) (Order.ofCode (r.c.extractLsb' 2 2)) r.d r.a r.lit
  | .acas => .acas ⟨r.g, r.gn⟩ r.fmtD (Scope.ofCode r.sc) r.cl (Space.ofCode (r.c.extractLsb' 0 2)) (Order.ofCode (r.c.extractLsb' 2 2)) r.d r.a r.b
  | .acasLit => .acasLit ⟨r.g, r.gn⟩ r.fmtD (Scope.ofCode r.sc) r.cl (Space.ofCode (r.c.extractLsb' 0 2)) (Order.ofCode (r.c.extractLsb' 2 2)) r.d r.a r.lit
  | .vaor => .vaor ⟨r.g, r.gn⟩ r.fmtD (Scope.ofCode r.sc) r.cl (Space.ofCode (r.c.extractLsb' 0 2)) (r.c.extractLsb' 2 4) (Fin.ofNat 56 r.d.toNat) r.a (VOp.ofCode r.b)
  | .vaadd => .vaadd ⟨r.g, r.gn⟩ r.fmtD (Scope.ofCode r.sc) r.cl (Space.ofCode (r.c.extractLsb' 0 2)) (r.c.extractLsb' 2 4) (Fin.ofNat 56 r.d.toNat) r.a (VOp.ofCode r.b)
  | .vamax => .vamax ⟨r.g, r.gn⟩ r.fmtD (Scope.ofCode r.sc) r.cl (Space.ofCode (r.c.extractLsb' 0 2)) (r.c.extractLsb' 2 4) (Fin.ofNat 56 r.d.toNat) r.a (VOp.ofCode r.b)
  | .ownGive => .ownGive ⟨r.g, r.gn⟩ (Scope.ofCode r.sc) (Space.ofCode (r.c.extractLsb' 0 2)) (Owner.ofCode (r.c.extractLsb' 2 3)) (Owner.ofCode (r.d.setWidth 3)) r.a r.b
  | .ownTake => .ownTake ⟨r.g, r.gn⟩ (Space.ofCode (r.c.extractLsb' 0 2)) (Owner.ofCode (r.d.setWidth 3)) r.a r.b
  | .ownTest => .ownTest ⟨r.g, r.gn⟩ (Space.ofCode (r.c.extractLsb' 0 2)) r.d r.a (r.b.setWidth 4)
  | .bar => .bar ⟨r.g, r.gn⟩ (Scope.ofCode r.sc) r.d (r.a.setWidth 4) r.b
  | .barLit => .barLit ⟨r.g, r.gn⟩ (Scope.ofCode r.sc) r.d (r.a.setWidth 4) r.lit
  | .sstep => .sstep ⟨r.g, r.gn⟩ (Scope.ofCode r.sc) r.d (r.a.setWidth 4) r.b
  | .sstepLit => .sstepLit ⟨r.g, r.gn⟩ (Scope.ofCode r.sc) r.d (r.a.setWidth 4) r.lit
  | .waitm => .waitm ⟨r.g, r.gn⟩ r.fmtD (Scope.ofCode r.sc) r.cl (Space.ofCode (r.c.extractLsb' 0 2)) (WCond.ofCode (r.c.extractLsb' 2 3)) (r.c.getLsbD 5) r.d r.a r.b
  | .waitmLit => .waitmLit ⟨r.g, r.gn⟩ r.fmtD (Scope.ofCode r.sc) r.cl (Space.ofCode (r.c.extractLsb' 0 2)) (WCond.ofCode (r.c.extractLsb' 2 3)) (r.c.getLsbD 5) r.d r.a r.lit
  | .signal => .signal ⟨r.g, r.gn⟩ r.fmtD (Scope.ofCode r.sc) r.cl (Space.ofCode (r.c.extractLsb' 0 2)) (r.c.getLsbD 2) r.a r.b
  | .signalLit => .signalLit ⟨r.g, r.gn⟩ r.fmtD (Scope.ofCode r.sc) r.cl (Space.ofCode (r.c.extractLsb' 0 2)) (r.c.getLsbD 2) r.a r.lit
  | .cswap => .cswap ⟨r.g, r.gn⟩ r.d
  | .yield => .yield ⟨r.g, r.gn⟩
  | .park => .park ⟨r.g, r.gn⟩ (r.c.getLsbD 0) (r.c.getLsbD 1) (r.c.getLsbD 2) r.d
  | .wakeat => .wakeat ⟨r.g, r.gn⟩ (r.c.getLsbD 0) r.b
  | .wakeatLit => .wakeatLit ⟨r.g, r.gn⟩ (r.c.getLsbD 0) r.lit
  | .ctxnew => .ctxnew ⟨r.g, r.gn⟩ r.d r.a r.b
  | .ctxnewLit => .ctxnewLit ⟨r.g, r.gn⟩ r.d r.a r.lit
  | .ctxfree => .ctxfree ⟨r.g, r.gn⟩ r.a
  | .ctxq => .ctxq ⟨r.g, r.gn⟩ r.d r.a (Fin.ofNat 7 r.c.toNat)
  | .ctxset => .ctxset ⟨r.g, r.gn⟩ r.a r.b (r.c.setWidth 3)
  | .ctxsetLit => .ctxsetLit ⟨r.g, r.gn⟩ r.a r.lit (r.c.setWidth 3)
  | .launch => .launch ⟨r.g, r.gn⟩ r.d r.a r.b
  | .launchLit => .launchLit ⟨r.g, r.gn⟩ r.d r.a r.lit
  | .pgmap => .pgmap ⟨r.g, r.gn⟩ r.d r.a r.b r.c
  | .pgmapLit => .pgmapLit ⟨r.g, r.gn⟩ r.d r.a r.lit r.c
  | .pgunmap => .pgunmap ⟨r.g, r.gn⟩ r.d r.a
  | .pgunmapGrant => .pgunmapGrant ⟨r.g, r.gn⟩ r.d r.a r.b
  | .pgunmapGrantLit => .pgunmapGrantLit ⟨r.g, r.gn⟩ r.d r.a r.lit
  | .pgpin => .pgpin ⟨r.g, r.gn⟩ r.d r.a
  | .pgunpin => .pgunpin ⟨r.g, r.gn⟩ r.d r.a
  | .pgmove => .pgmove ⟨r.g, r.gn⟩ r.d r.a (Fin.ofNat 3 r.c.toNat)
  | .pghint => .pghint ⟨r.g, r.gn⟩ r.d r.a (Fin.ofNat 6 r.c.toNat)
  | .kvalloc => .kvalloc ⟨r.g, r.gn⟩ r.d r.a r.b
  | .kvallocLit => .kvallocLit ⟨r.g, r.gn⟩ r.d r.a r.lit
  | .kvfree => .kvfree ⟨r.g, r.gn⟩ (r.c.getLsbD 0) r.d r.a r.b
  | .kvfreeLit => .kvfreeLit ⟨r.g, r.gn⟩ (r.c.getLsbD 0) r.d r.a r.lit
  | .kvappend => .kvappend ⟨r.g, r.gn⟩ r.cl r.d r.a
  | .kvinval => .kvinval ⟨r.g, r.gn⟩ r.cl (r.c.getLsbD 0) r.d r.a r.b
  | .kvinvalLit => .kvinvalLit ⟨r.g, r.gn⟩ r.cl (r.c.getLsbD 0) r.d r.a r.lit
  | .jbegin => .jbegin ⟨r.g, r.gn⟩ r.a r.b
  | .jbeginLit => .jbeginLit ⟨r.g, r.gn⟩ r.a r.lit
  | .jcommit => .jcommit ⟨r.g, r.gn⟩ r.d
  | .jrewind => .jrewind ⟨r.g, r.gn⟩ r.d
  | .trap => .trap ⟨r.g, r.gn⟩ r.b
  | .trapLit => .trapLit ⟨r.g, r.gn⟩ r.lit
  | .eret => .eret ⟨r.g, r.gn⟩
  | .scrub => .scrub ⟨r.g, r.gn⟩ r.d r.a
  | .partcfg => .partcfg ⟨r.g, r.gn⟩ (r.c.extractLsb' 0 5) (r.c.getLsbD 5) r.d r.a r.b
  | .partcfgLit => .partcfgLit ⟨r.g, r.gn⟩ (r.c.extractLsb' 0 5) (r.c.getLsbD 5) r.d r.a r.lit
  | .qoscfg => .qoscfg ⟨r.g, r.gn⟩ (r.c.getLsbD 0) r.d r.a r.b
  | .qoscfgLit => .qoscfgLit ⟨r.g, r.gn⟩ (r.c.getLsbD 0) r.d r.a r.lit
  | .intpost => .intpost ⟨r.g, r.gn⟩ r.b
  | .intpostLit => .intpostLit ⟨r.g, r.gn⟩ r.lit
  | .resetdom => .resetdom ⟨r.g, r.gn⟩ r.d r.a (Fin.ofNat 6 r.c.toNat)
  | .tlbinv => .tlbinv ⟨r.g, r.gn⟩ r.a r.b
  | .tlbinvLit => .tlbinvLit ⟨r.g, r.gn⟩ r.a r.lit
  | .rdtime => .rdtime ⟨r.g, r.gn⟩ (r.c.getLsbD 0) r.d
  | .rdlat => .rdlat ⟨r.g, r.gn⟩ (r.c.getLsbD 0) r.d
  | .wfe => .wfe ⟨r.g, r.gn⟩ r.d r.b
  | .wfeLit => .wfeLit ⟨r.g, r.gn⟩ r.d r.lit
  | .haltc => .haltc ⟨r.g, r.gn⟩
  | .recast => .recast ⟨r.g, r.gn⟩ (Pers.ofCode (r.c.extractLsb' 0 2)) (r.c.getLsbD 2) r.d r.a r.b
  | .recastLit => .recastLit ⟨r.g, r.gn⟩ (Pers.ofCode (r.c.extractLsb' 0 2)) (r.c.getLsbD 2) r.d r.a r.lit
  | .lnkstat => .lnkstat ⟨r.g, r.gn⟩ r.d r.a (Fin.ofNat 6 r.c.toNat)
  | .ristat => .ristat ⟨r.g, r.gn⟩ r.d r.a (Fin.ofNat 4 r.c.toNat)
  | .nsend => .nsend ⟨r.g, r.gn⟩ r.cl r.d r.a
  | .nfetch => .nfetch ⟨r.g, r.gn⟩ r.cl r.d r.a
  | .ringstep => .ringstep ⟨r.g, r.gn⟩ r.d r.a r.b
  | .ringstepLit => .ringstepLit ⟨r.g, r.gn⟩ r.d r.a r.lit
  | .slcut => .slcut ⟨r.g, r.gn⟩ (r.c.getLsbD 0) r.d
  | .slwait => .slwait ⟨r.g, r.gn⟩ r.d (Fin.ofNat 2 r.c.toNat)
  | .slcommit => .slcommit ⟨r.g, r.gn⟩ r.d r.b
  | .slcommitLit => .slcommitLit ⟨r.g, r.gn⟩ r.d r.lit
  | .slrestore => .slrestore ⟨r.g, r.gn⟩ r.d r.b
  | .slrestoreLit => .slrestoreLit ⟨r.g, r.gn⟩ r.d r.lit
  | .slstat => .slstat ⟨r.g, r.gn⟩ r.d (r.c.setWidth 3)
  | .errwatch => .errwatch ⟨r.g, r.gn⟩ r.d r.b (Fin.ofNat 7 r.c.toNat)
  | .errwatchLit => .errwatchLit ⟨r.g, r.gn⟩ r.d r.lit (Fin.ofNat 7 r.c.toNat)
  | .memhint => .memhint ⟨r.g, r.gn⟩ (r.c.getLsbD 0) r.d r.a
  | .memstat => .memstat ⟨r.g, r.gn⟩ r.d r.a (Fin.ofNat 7 r.c.toNat)

/-- One row of a form table. -/
structure Form where
  len : Nat
  d : Kind := .none
  a : Kind := .none
  b : Kind := .none
  c : Kind := .none
  cZero : BitVec 6 := 0                       -- bits of C that must be zero
  mark : Mark := .forbidden
  fmt : Option (Fmt → Bool) := .none          -- accepted formats, where FMT is used
  sfmt : Option (Fmt → Bool) := .none         -- accepted source formats, where C holds SFMT
  rmUsed : Raw → Bool := fun _ => false
  satUsed : Bool := false
  scUsed : Bool := false
  clUsed : Bool := false
  zeroX : Raw → Bool := fun _ => true         -- a further must-be-zero check, reason 4
  fieldX : Raw → Bool := fun _ => true        -- a further field check, reason 6
  operX : Raw → Bool := fun _ => true         -- a further operand or alignment check, reason 7
  sel : Raw → Bool := fun _ => true           -- selects between forms of one FN and LEN
  fns : Nat := 1                              -- variants of a scalar instruction are FN below this
  repeatable : Bool := false                  -- R41
  row : Row

/-- RM is used when FMT satisfies a predicate (R175). -/
def rmIf (p : Fmt → Bool) (r : Raw) : Bool := p r.fmtD
/-- RM is used when FMT or SFMT satisfies a predicate (R175, VCVT). -/
def rmIf2 (p : Fmt → Bool) (r : Raw) : Bool := p r.fmtD || p r.sfmtD
/-- RM is used when FMT and SFMT both satisfy a predicate (R175, VWADD and VWMUL). -/
def rmBoth (p : Fmt → Bool) (r : Raw) : Bool := p r.fmtD && p r.sfmtD
/-- The low two bits of C do not name the register space (R132). -/
def spaceNotReg (c : BitVec 6) : Bool := c.extractLsb' 0 2 != 3
/-- COPY and XPOSE: not both spaces virtual (R239). -/
def notBothVirt (c : BitVec 6) : Bool := c.extractLsb' 0 4 != 0
/-- An even field, for the sparse slot of MMAS (R212). -/
def evenOk (v : BitVec 6) : Bool := !v.getLsbD 0
/-- The D rule of VZIP and VUNZIP (R189). -/
def alignOk (v : BitVec 6) (n : Nat) : Bool := (VOp.ofCode v).aligned n
/-- The B rule of VPERM (R188). -/
def vpermOk (r : Raw) : Bool := vpermAligned r.fmtD (VOp.ofCode r.b)
/-- The C rules of WLOAD (R229). -/
def wloadOk (r : Raw) : Bool :=
  spaceNotReg r.c && wloadFlags r.fmtD (r.c.getLsbD 2) (r.c.getLsbD 3) (r.c.getLsbD 4)
/-- MDRAIN names an amax space: only then has it an operand b, a LIT form and a scope (R212, R226). -/
def amaxNamed (c : BitVec 6) : Bool := c.extractLsb' 0 2 != 0
/-- The operand rules of MDRAIN: its amax space is not 0b11 (R212), and the last tile of a tile destination is not past t15 (R225). -/
def mdrainOk (r : Raw) : Bool := spaceNotReg r.c && mdrainFits r.fmtD (TOp.ofCode r.d)
/-- The ownership spaces are vault and NS (R281). -/
def ownSpaceOk (c : BitVec 6) : Bool := c.extractLsb' 0 2 == 1 || c.extractLsb' 0 2 == 2
/-- The owner codes of OWN.GIVE: not RES, not reserved, in either place (R269, R282). -/
def ownGiveOk (r : Raw) : Bool :=
  ownSpaceOk r.c && r.d.toNat != 4 && ((r.c.extractLsb' 2 3).toNat < 4 || (r.c.extractLsb' 2 3).toNat == 7)
/-- The attributes CTXSET may write (R304). -/
def ctxsetOk (c : BitVec 6) : Bool := c.toNat == 1 || c.toNat == 2 || c.toNat == 3 || c.toNat == 6
/-- The field numbers of PARTCFG: 0 to 18, and 16 to 18 only to read (R371). -/
def partcfgOk (r : Raw) : Bool :=
  (r.c.extractLsb' 0 5).toNat ≤ 15 || (r.c.getLsbD 5 && (r.c.extractLsb' 0 5).toNat ≤ 18)

/-- The forms of the scalar and control majors (R35, R44, R114), by OP. -/
def scalarForms (op : Nat) : List Form :=
  match op with
  | 0x01 => [{ len := 0, d := .scalar, a := .scalar, b := .scalar, mark := .either, repeatable := true, row := .add },
      { len := 1, d := .scalar, a := .scalar, b := .scalar, mark := .either, satUsed := true, repeatable := true, fns := 4, row := .add64 },
      { len := 2, d := .scalar, a := .scalar, mark := .either, satUsed := true, repeatable := true, fns := 4, row := .add96 }]
  | 0x02 => [{ len := 0, d := .scalar, a := .scalar, b := .scalar, mark := .either, repeatable := true, row := .sub },
      { len := 1, d := .scalar, a := .scalar, b := .scalar, mark := .either, satUsed := true, repeatable := true, fns := 4, row := .sub64 },
      { len := 2, d := .scalar, a := .scalar, mark := .either, satUsed := true, repeatable := true, fns := 4, row := .sub96 }]
  | 0x03 => [{ len := 0, d := .scalar, a := .scalar, b := .scalar, mark := .either, repeatable := true, row := .mul },
      { len := 1, d := .scalar, a := .scalar, b := .scalar, mark := .either, satUsed := true, repeatable := true, fns := 4, row := .mul64 },
      { len := 2, d := .scalar, a := .scalar, mark := .either, satUsed := true, repeatable := true, fns := 4, row := .mul96 }]
  | 0x04 => [{ len := 0, d := .scalar, a := .scalar, b := .scalar, repeatable := true, row := .mulh },
      { len := 1, d := .scalar, a := .scalar, b := .scalar, repeatable := true, fns := 3, row := .mulh64 },
      { len := 2, d := .scalar, a := .scalar, repeatable := true, fns := 3, row := .mulh96 }]
  | 0x05 => [{ len := 0, d := .scalar, a := .scalar, b := .scalar, repeatable := true, row := .div },
      { len := 1, d := .scalar, a := .scalar, b := .scalar, satUsed := true, repeatable := true, fns := 4, row := .div64 },
      { len := 2, d := .scalar, a := .scalar, satUsed := true, repeatable := true, fns := 4, row := .div96 }]
  | 0x06 => [{ len := 0, d := .scalar, a := .scalar, b := .scalar, repeatable := true, row := .rem },
      { len := 1, d := .scalar, a := .scalar, b := .scalar, repeatable := true, fns := 4, row := .rem64 },
      { len := 2, d := .scalar, a := .scalar, repeatable := true, fns := 4, row := .rem96 }]
  | 0x07 => [{ len := 0, d := .scalar, a := .scalar, b := .scalar, mark := .either, repeatable := true, row := .and },
      { len := 1, d := .scalar, a := .scalar, b := .scalar, mark := .either, repeatable := true, row := .and64 },
      { len := 2, d := .scalar, a := .scalar, mark := .either, repeatable := true, row := .and96 }]
  | 0x08 => [{ len := 0, d := .scalar, a := .scalar, b := .scalar, mark := .either, repeatable := true, row := .or },
      { len := 1, d := .scalar, a := .scalar, b := .scalar, mark := .either, repeatable := true, row := .or64 },
      { len := 2, d := .scalar, a := .scalar, mark := .either, repeatable := true, row := .or96 }]
  | 0x09 => [{ len := 0, d := .scalar, a := .scalar, b := .scalar, mark := .either, repeatable := true, row := .xor },
      { len := 1, d := .scalar, a := .scalar, b := .scalar, mark := .either, repeatable := true, row := .xor64 },
      { len := 2, d := .scalar, a := .scalar, mark := .either, repeatable := true, row := .xor96 }]
  | 0x0a => [{ len := 0, d := .scalar, a := .scalar, b := .scalar, mark := .either, repeatable := true, row := .andn },
      { len := 1, d := .scalar, a := .scalar, b := .scalar, mark := .either, repeatable := true, row := .andn64 },
      { len := 2, d := .scalar, a := .scalar, mark := .either, repeatable := true, row := .andn96 }]
  | 0x0b => [{ len := 0, d := .scalar, a := .scalar, b := .scalar, mark := .either, repeatable := true, row := .shl },
      { len := 1, d := .scalar, a := .scalar, b := .scalar, mark := .either, repeatable := true, fns := 2, row := .shl64 },
      { len := 2, d := .scalar, a := .scalar, mark := .either, repeatable := true, fns := 2, row := .shl96 }]
  | 0x0c => [{ len := 0, d := .scalar, a := .scalar, b := .scalar, mark := .either, repeatable := true, row := .shr },
      { len := 1, d := .scalar, a := .scalar, b := .scalar, mark := .either, repeatable := true, fns := 2, row := .shr64 },
      { len := 2, d := .scalar, a := .scalar, mark := .either, repeatable := true, fns := 2, row := .shr96 }]
  | 0x0d => [{ len := 0, d := .scalar, a := .scalar, b := .scalar, mark := .either, repeatable := true, row := .sra },
      { len := 1, d := .scalar, a := .scalar, b := .scalar, mark := .either, repeatable := true, fns := 2, row := .sra64 },
      { len := 2, d := .scalar, a := .scalar, mark := .either, repeatable := true, fns := 2, row := .sra96 }]
  | 0x0e => [{ len := 0, d := .scalar, a := .scalar, b := .scalar, repeatable := true, row := .rol },
      { len := 1, d := .scalar, a := .scalar, b := .scalar, repeatable := true, fns := 2, row := .rol64 },
      { len := 2, d := .scalar, a := .scalar, repeatable := true, fns := 2, row := .rol96 }]
  | 0x0f => [{ len := 0, d := .scalar, a := .scalar, repeatable := true, row := .clz },
      { len := 1, d := .scalar, a := .scalar, repeatable := true, fns := 2, row := .clz64 }]
  | 0x10 => [{ len := 0, d := .scalar, a := .scalar, repeatable := true, row := .ctz },
      { len := 1, d := .scalar, a := .scalar, repeatable := true, fns := 2, row := .ctz64 }]
  | 0x11 => [{ len := 0, d := .scalar, a := .scalar, repeatable := true, row := .popc },
      { len := 1, d := .scalar, a := .scalar, repeatable := true, fns := 2, row := .popc64 }]
  | 0x12 => [{ len := 0, d := .scalar, a := .scalar, repeatable := true, row := .brev },
      { len := 1, d := .scalar, a := .scalar, repeatable := true, fns := 2, row := .brev64 }]
  | 0x13 => [{ len := 0, d := .scalar, a := .scalar, b := .scalar, mark := .either, repeatable := true, row := .min },
      { len := 1, d := .scalar, a := .scalar, b := .scalar, mark := .either, repeatable := true, fns := 2, row := .min64 },
      { len := 2, d := .scalar, a := .scalar, mark := .either, repeatable := true, fns := 2, row := .min96 }]
  | 0x14 => [{ len := 0, d := .scalar, a := .scalar, b := .scalar, mark := .either, repeatable := true, row := .max },
      { len := 1, d := .scalar, a := .scalar, b := .scalar, mark := .either, repeatable := true, fns := 2, row := .max64 },
      { len := 2, d := .scalar, a := .scalar, mark := .either, repeatable := true, fns := 2, row := .max96 }]
  | 0x15 => [{ len := 0, d := .scalar, a := .scalar, b := .scalar, mark := .either, repeatable := true, row := .sel },
      { len := 1, d := .scalar, a := .scalar, b := .scalar, c := .below 8, mark := .either, repeatable := true, row := .sel64 },
      { len := 2, d := .scalar, a := .scalar, c := .below 8, mark := .either, repeatable := true, row := .sel96 }]
  | 0x16 => [{ len := 0, d := .scalar, a := .scalar, mark := .either, repeatable := true, row := .mov },
      { len := 1, d := .scalar, a := .scalar, mark := .either, repeatable := true, row := .mov64 }]
  | 0x17 => [{ len := 0, d := .scalar, a := .free, b := .free, mark := .either, repeatable := true, row := .movi },
      { len := 2, d := .scalar, mark := .either, repeatable := true, fns := 3, row := .movi96 }]
  | 0x18 => [{ len := 0, d := .scalar, a := .free, b := .free, mark := .either, repeatable := true, row := .addi }]
  | 0x19 => [{ len := 0, d := .scalar, a := .scalar, b := .scalar, mark := .either, repeatable := true, row := .lea },
      { len := 1, d := .scalar, a := .scalar, b := .scalar, c := .below 8, mark := .either, repeatable := true, row := .lea64 },
      { len := 2, d := .scalar, a := .scalar, c := .below 8, mark := .either, repeatable := true, row := .lea96 }]
  | 0x1a => [{ len := 0, d := .below 8, a := .scalar, b := .scalar, mark := .either, repeatable := true, row := .cmp },
      { len := 1, d := .below 8, a := .scalar, b := .scalar, mark := .either, repeatable := true, fns := 12, row := .cmp64 },
      { len := 2, d := .below 8, a := .scalar, mark := .either, repeatable := true, fns := 12, row := .cmp96 }]
  | 0x1b => [{ len := 0, d := .below 8, a := .below 8, b := .below 8, mark := .either, repeatable := true, row := .pand },
      { len := 1, d := .below 8, a := .below 8, b := .below 8, mark := .either, repeatable := true, row := .pand64 }]
  | 0x1c => [{ len := 0, d := .below 8, a := .below 8, b := .below 8, mark := .either, repeatable := true, row := .por },
      { len := 1, d := .below 8, a := .below 8, b := .below 8, mark := .either, repeatable := true, row := .por64 }]
  | 0x1d => [{ len := 0, d := .below 8, a := .below 8, b := .below 8, mark := .either, repeatable := true, row := .pxor },
      { len := 1, d := .below 8, a := .below 8, b := .below 8, mark := .either, repeatable := true, row := .pxor64 }]
  | 0x1e => [{ len := 0, d := .below 8, a := .below 8, mark := .either, repeatable := true, row := .pnot },
      { len := 1, d := .below 8, a := .below 8, mark := .either, repeatable := true, row := .pnot64 }]
  | 0x1f => [{ len := 0, d := .free, a := .free, b := .free, row := .br }]
  | 0x20 => [{ len := 0, a := .scalar, row := .jmp },
      { len := 1, a := .scalar, row := .jmp64 },
      { len := 2, a := .scalar, row := .jmp96 }]
  | 0x21 => [{ len := 0, d := .free, a := .free, b := .free, row := .call }]
  | 0x22 => [{ len := 0, a := .scalar, row := .ret },
      { len := 1, a := .scalar, row := .ret64 }]
  | 0x23 => [{ len := 0, d := .scalar, a := .free, b := .free, row := .loop }]
  | 0x25 => [{ len := 0, mark := .either, repeatable := true, row := .nop },
      { len := 1, mark := .either, repeatable := true, row := .nop64 }]
  | 0x26 => [{ len := 0, row := .endTask },
      { len := 1, row := .endTask64 }]
  | 0x27 => [{ len := 0, d := .scalar, a := .scalar, b := .scalar, repeatable := true, row := .lds },
      { len := 1, d := .scalar, a := .scalar, b := .scalar, c := .free, cZero := 0x3c, clUsed := true, operX := fun r => spaceNotReg r.c, repeatable := true, fns := 7, row := .lds64 },
      { len := 2, d := .scalar, a := .scalar, c := .free, cZero := 0x3c, clUsed := true, operX := fun r => spaceNotReg r.c, repeatable := true, fns := 7, row := .lds96 }]
  | 0x28 => [{ len := 0, d := .scalar, a := .scalar, b := .scalar, repeatable := true, row := .sts },
      { len := 1, d := .scalar, a := .scalar, b := .scalar, c := .free, cZero := 0x3c, clUsed := true, operX := fun r => spaceNotReg r.c, repeatable := true, fns := 4, row := .sts64 },
      { len := 2, d := .scalar, a := .scalar, c := .free, cZero := 0x3c, clUsed := true, operX := fun r => spaceNotReg r.c, repeatable := true, fns := 4, row := .sts96 }]
  | 0x29 => [{ len := 0, d := .scalar, a := .free, b := .free, operX := fun r => (Csr.ofCode (r.b ++ r.a)).isSome, repeatable := true, row := .csrr }]
  | 0x2a => [{ len := 0, d := .scalar, a := .free, b := .free, operX := fun r => (Csr.ofCode (r.b ++ r.a)).isSome, row := .csrw }]
  | _ => []

/-- The forms of OP 0x30, by FN (R45). -/
def accessForms (fn : Nat) : List Form :=
  match fn with
  | 0x00 => [{ len := 1, d := .below 16, a := .scalar, b := .scalar, c := .free, cZero := 0x3c, mark := .required, clUsed := true, operX := fun r => spaceNotReg r.c, row := .shld },
      { len := 2, d := .below 16, a := .scalar, c := .free, cZero := 0x3c, mark := .required, clUsed := true, operX := fun r => spaceNotReg r.c, row := .shldLit }]
  | 0x01 => [{ len := 1, d := .below 16, a := .scalar, b := .scalar, c := .free, cZero := 0x3c, mark := .required, clUsed := true, operX := fun r => spaceNotReg r.c, row := .shst },
      { len := 2, d := .below 16, a := .scalar, c := .free, cZero := 0x3c, mark := .required, clUsed := true, operX := fun r => spaceNotReg r.c, row := .shstLit }]
  | 0x02 => [{ len := 1, d := .below 16, b := .scalar, c := .below 8, mark := .required, row := .shset },
      { len := 2, d := .below 16, c := .below 8, mark := .required, row := .shsetLit }]
  | 0x03 => [{ len := 1, d := .scalar, a := .below 16, c := .below 8, mark := .required, repeatable := true, row := .shget }]
  | 0x04 => [{ len := 1, d := .below 16, a := .below 16, mark := .required, row := .shmov }]
  | 0x05 => [{ len := 1, d := .queue, a := .below 16, mark := .required, clUsed := true, row := .openR }]
  | 0x06 => [{ len := 1, d := .queue, a := .below 16, mark := .required, clUsed := true, row := .openW }]
  | 0x07 => [{ len := 1, d := .queue, a := .below 16, b := .below 16, mark := .required, clUsed := true, row := .openG }]
  | 0x08 => [{ len := 1, d := .queue, b := .scalar, mark := .required, repeatable := true, row := .adv },
      { len := 2, d := .queue, mark := .required, repeatable := true, row := .advLit }]
  | 0x09 => [{ len := 1, d := .queue, mark := .required, row := .close }]
  | 0x0a => [{ len := 1, d := .queue, mark := .required, row := .drain }]
  | 0x0b => [{ len := 1, d := .below 56, a := .below 16, b := .scalar, c := .below 16, mark := .required, clUsed := true, repeatable := true, row := .pld },
      { len := 2, d := .below 56, a := .below 16, c := .below 16, mark := .required, clUsed := true, repeatable := true, row := .pldLit }]
  | 0x0c => [{ len := 1, d := .scalar, a := .below 16, b := .scalar, c := .below 16, mark := .required, row := .reside },
      { len := 2, d := .scalar, a := .below 16, c := .below 16, mark := .required, row := .resideLit }]
  | 0x0d => [{ len := 1, d := .queue, b := .scalar, mark := .required, row := .lookahead },
      { len := 2, d := .queue, mark := .required, row := .lookaheadLit }]
  | 0x0e => [{ len := 1, d := .scalar, a := .queue, c := .below 3, mark := .required, row := .posr }]
  | 0x0f => [{ len := 1, d := .scalar, a := .queue, mark := .required, repeatable := true, row := .qcnt }]
  | 0x10 => [{ len := 1, d := .below 56, a := .below 16, b := .scalar, c := .below 16, mark := .required, clUsed := true, repeatable := true, row := .vld },
      { len := 2, d := .below 56, a := .below 16, c := .below 16, mark := .required, clUsed := true, repeatable := true, row := .vldLit }]
  | 0x11 => [{ len := 1, d := .below 56, a := .below 16, b := .scalar, c := .below 16, mark := .required, clUsed := true, repeatable := true, row := .vst },
      { len := 2, d := .below 56, a := .below 16, c := .below 16, mark := .required, clUsed := true, repeatable := true, row := .vstLit }]
  | 0x12 => [{ len := 1, a := .below 16, b := .scalar, mark := .required, clUsed := true, repeatable := true, row := .scld },
      { len := 2, a := .below 16, mark := .required, clUsed := true, repeatable := true, row := .scldLit }]
  | 0x13 => [{ len := 1, a := .below 16, b := .scalar, c := .below 2, mark := .required, repeatable := true, row := .pref },
      { len := 2, a := .below 16, c := .below 2, mark := .required, repeatable := true, row := .prefLit }]
  | _ => []

/-- The forms of OP 0x31, by FN (R45). A literal VSPLAT uses RM with each format that is no integer, as the table of R175 says, not only with
the floating-point ones of its prose (DESIGN CHOICE, log 101). -/
def vectorForms (fn : Nat) : List Form :=
  match fn with
  | 0x00 => [{ len := 1, d := .vector, a := .vector, b := .vector, c := .below 16, fmt := some (Fmt.classIF), rmUsed := fun r => rmIf Fmt.floating r, satUsed := true, repeatable := true, row := .vadd },
      { len := 2, d := .vector, a := .vector, c := .below 16, fmt := some (Fmt.classIF), rmUsed := fun r => rmIf Fmt.floating r, satUsed := true, repeatable := true, row := .vaddLit }]
  | 0x01 => [{ len := 1, d := .vector, a := .vector, b := .vector, c := .below 16, fmt := some (Fmt.classIF), rmUsed := fun r => rmIf Fmt.floating r, satUsed := true, repeatable := true, row := .vsub },
      { len := 2, d := .vector, a := .vector, c := .below 16, fmt := some (Fmt.classIF), rmUsed := fun r => rmIf Fmt.floating r, satUsed := true, repeatable := true, row := .vsubLit }]
  | 0x02 => [{ len := 1, d := .vector, a := .vector, b := .vector, c := .below 16, fmt := some (Fmt.classIF), rmUsed := fun r => rmIf Fmt.floating r, satUsed := true, repeatable := true, row := .vmul },
      { len := 2, d := .vector, a := .vector, c := .below 16, fmt := some (Fmt.classIF), rmUsed := fun r => rmIf Fmt.floating r, satUsed := true, repeatable := true, row := .vmulLit }]
  | 0x03 => [{ len := 1, d := .below 56, a := .vector, b := .vector, c := .below 16, fmt := some (Fmt.classIF), rmUsed := fun r => rmIf Fmt.floating r, satUsed := true, repeatable := true, row := .vfma }]
  | 0x04 => [{ len := 1, d := .below 56, a := .vector, b := .vector, c := .below 16, fmt := some (Fmt.classIF), rmUsed := fun r => rmIf Fmt.floating r, satUsed := true, repeatable := true, row := .vfms }]
  | 0x05 => [{ len := 1, d := .below 56, a := .vector, b := .vector, c := .below 16, fmt := some (Fmt.classIF), rmUsed := fun r => rmIf Fmt.floating r, satUsed := true, repeatable := true, row := .vnfma }]
  | 0x06 => [{ len := 1, d := .vector, a := .vector, b := .vector, c := .below 16, fmt := some (Fmt.classIF), repeatable := true, row := .vmin },
      { len := 2, d := .vector, a := .vector, c := .below 16, fmt := some (Fmt.classIF), repeatable := true, row := .vminLit }]
  | 0x07 => [{ len := 1, d := .vector, a := .vector, b := .vector, c := .below 16, fmt := some (Fmt.classIF), repeatable := true, row := .vmax },
      { len := 2, d := .vector, a := .vector, c := .below 16, fmt := some (Fmt.classIF), repeatable := true, row := .vmaxLit }]
  | 0x08 => [{ len := 1, d := .vector, a := .vector, c := .below 16, fmt := some (Fmt.classIF), satUsed := true, repeatable := true, row := .vabs }]
  | 0x09 => [{ len := 1, d := .vector, a := .vector, c := .below 16, fmt := some (Fmt.classIF), satUsed := true, repeatable := true, row := .vneg }]
  | 0x0a => [{ len := 1, d := .vector, a := .vector, b := .vector, c := .below 16, fmt := some (Fmt.classV), repeatable := true, row := .vand },
      { len := 2, d := .vector, a := .vector, c := .below 16, fmt := some (Fmt.classV), repeatable := true, row := .vandLit }]
  | 0x0b => [{ len := 1, d := .vector, a := .vector, b := .vector, c := .below 16, fmt := some (Fmt.classV), repeatable := true, row := .vor },
      { len := 2, d := .vector, a := .vector, c := .below 16, fmt := some (Fmt.classV), repeatable := true, row := .vorLit }]
  | 0x0c => [{ len := 1, d := .vector, a := .vector, b := .vector, c := .below 16, fmt := some (Fmt.classV), repeatable := true, row := .vxor },
      { len := 2, d := .vector, a := .vector, c := .below 16, fmt := some (Fmt.classV), repeatable := true, row := .vxorLit }]
  | 0x0d => [{ len := 1, d := .vector, a := .vector, c := .below 16, fmt := some (Fmt.classV), repeatable := true, row := .vnot }]
  | 0x0e => [{ len := 1, d := .vector, a := .vector, b := .vector, c := .below 16, fmt := some (Fmt.classI), repeatable := true, row := .vshl },
      { len := 2, d := .vector, a := .vector, c := .below 16, fmt := some (Fmt.classI), repeatable := true, row := .vshlLit }]
  | 0x0f => [{ len := 1, d := .vector, a := .vector, b := .vector, c := .below 16, fmt := some (Fmt.classI), repeatable := true, row := .vshr },
      { len := 2, d := .vector, a := .vector, c := .below 16, fmt := some (Fmt.classI), repeatable := true, row := .vshrLit }]
  | 0x10 => [{ len := 1, d := .vector, a := .vector, b := .vector, c := .below 16, fmt := some (Fmt.classI), repeatable := true, row := .vsra },
      { len := 2, d := .vector, a := .vector, c := .below 16, fmt := some (Fmt.classI), repeatable := true, row := .vsraLit }]
  | 0x11 => [{ len := 1, d := .vector, a := .vector, b := .vector, c := .below 16, fmt := some (Fmt.classI), repeatable := true, row := .vrol },
      { len := 2, d := .vector, a := .vector, c := .below 16, fmt := some (Fmt.classI), repeatable := true, row := .vrolLit }]
  | 0x12 => [{ len := 1, d := .vector, a := .vector, b := .vector, c := .below 16, fmt := some (Fmt.classI), repeatable := true, row := .vmulhi },
      { len := 2, d := .vector, a := .vector, c := .below 16, fmt := some (Fmt.classI), repeatable := true, row := .vmulhiLit }]
  | 0x13 => [{ len := 1, d := .below 16, a := .vector, b := .vector, c := .below 8, fmt := some (Fmt.classV), repeatable := true, row := .vcmp },
      { len := 2, d := .below 16, a := .vector, c := .below 8, fmt := some (Fmt.classV), repeatable := true, row := .vcmpLit }]
  | 0x14 => [{ len := 1, d := .vector, a := .vector, b := .vector, c := .below 16, fmt := some (Fmt.classV), repeatable := true, row := .vsel }]
  | 0x15 => [{ len := 1, d := .vector, a := .vector, c := .below 16, fmt := some (Fmt.classV), repeatable := true, row := .vmov }]
  | 0x16 => [{ len := 1, d := .vector, b := .scalar, c := .below 16, fmt := some (Fmt.classV), repeatable := true, row := .vsplat },
      { len := 2, d := .vector, c := .below 16, fmt := some (Fmt.classV), rmUsed := fun r => rmIf (fun f => !f.classI && f != .int64) r, satUsed := true, repeatable := true, row := .vsplatLit }]
  | 0x17 => [{ len := 1, d := .vector, b := .scalar, c := .below 16, fmt := some (Fmt.classI), repeatable := true, row := .viota },
      { len := 2, d := .vector, c := .below 16, fmt := some (Fmt.classI), repeatable := true, row := .viotaLit }]
  | 0x18 => [{ len := 1, d := .vector, a := .vector, c := .free, fmt := some (Fmt.classV), sfmt := some (Fmt.classV), rmUsed := fun r => rmIf2 Fmt.floating r, satUsed := true, fieldX := fun r => vcvtPair r.fmtD r.sfmtD, operX := fun r => wideAligned r.fmtD r.sfmtD (VOp.ofCode r.d) (VOp.ofCode r.a), repeatable := true, row := .vcvt }]
  | 0x19 => [{ len := 1, d := .vector, a := .vector, b := .vector, c := .free, fmt := some (Fmt.classV), sfmt := some (Fmt.classV), rmUsed := fun r => rmBoth Fmt.floating r, satUsed := true, fieldX := fun r => vwidenPair r.fmtD r.sfmtD, operX := fun r => wideAligned r.fmtD r.sfmtD (VOp.ofCode r.d) (VOp.ofCode r.a), repeatable := true, row := .vwadd }]
  | 0x1a => [{ len := 1, d := .vector, a := .vector, b := .vector, c := .free, fmt := some (Fmt.classV), sfmt := some (Fmt.classV), rmUsed := fun r => rmBoth Fmt.floating r, satUsed := true, fieldX := fun r => vwidenPair r.fmtD r.sfmtD, operX := fun r => wideAligned r.fmtD r.sfmtD (VOp.ofCode r.d) (VOp.ofCode r.a), repeatable := true, row := .vwmul }]
  | 0x1b => [{ len := 1, d := .vector, a := .vector, b := .scalar, c := .free, fmt := some (Fmt.classI), sfmt := some (Fmt.classI), rmUsed := Raw.narrows, satUsed := true, fieldX := fun r => vnarrowPair r.fmtD r.sfmtD, operX := fun r => wideAligned r.fmtD r.sfmtD (VOp.ofCode r.d) (VOp.ofCode r.a), repeatable := true, row := .vnarrow },
      { len := 2, d := .vector, a := .vector, c := .free, fmt := some (Fmt.classI), sfmt := some (Fmt.classI), rmUsed := Raw.narrows, satUsed := true, fieldX := fun r => vnarrowPair r.fmtD r.sfmtD, operX := fun r => wideAligned r.fmtD r.sfmtD (VOp.ofCode r.d) (VOp.ofCode r.a), repeatable := true, row := .vnarrowLit }]
  | 0x1c => [{ len := 1, d := .vector, a := .vector, c := .below 16, fmt := some (Fmt.classIF), rmUsed := fun r => rmIf Fmt.floating r, satUsed := true, repeatable := true, row := .vredsum }]
  | 0x1d => [{ len := 1, d := .vector, a := .vector, c := .below 16, fmt := some (Fmt.classIF), repeatable := true, row := .vredmax }]
  | 0x1e => [{ len := 1, d := .vector, a := .vector, c := .below 16, fmt := some (Fmt.classIF), repeatable := true, row := .vredmin }]
  | 0x1f => [{ len := 1, d := .vector, a := .vector, c := .below 16, fmt := some (Fmt.classIF), rmUsed := fun r => rmIf Fmt.floating r, satUsed := true, repeatable := true, row := .vscan }]
  | 0x20 => [{ len := 1, d := .vector, a := .vector, b := .vector, c := .below 16, fmt := some (Fmt.classV), operX := fun r => vpermOk r, repeatable := true, row := .vperm }]
  | 0x21 => [{ len := 1, d := .vector, a := .vector, b := .scalar, c := .below 16, fmt := some (Fmt.classV), repeatable := true, row := .vslide },
      { len := 2, d := .vector, a := .vector, c := .below 16, fmt := some (Fmt.classV), repeatable := true, row := .vslideLit }]
  | 0x22 => [{ len := 1, d := .vector, a := .vector, b := .vector, fmt := some (Fmt.classV), operX := fun r => alignOk r.d 2, repeatable := true, row := .vzip }]
  | 0x23 => [{ len := 1, d := .vector, a := .vector, b := .vector, fmt := some (Fmt.classV), operX := fun r => alignOk r.d 2, repeatable := true, row := .vunzip }]
  | 0x24 => [{ len := 1, d := .vector, a := .vector, c := .below 16, fmt := some (Fmt.classV), repeatable := true, row := .vcompress }]
  | 0x25 => [{ len := 1, d := .vector, a := .vector, c := .below 16, fmt := some (Fmt.classV), repeatable := true, row := .vexpand }]
  | 0x26 => [{ len := 1, d := .below 56, a := .scalar, b := .scalar, fmt := some (Fmt.classV), repeatable := true, row := .vins },
      { len := 2, d := .below 56, a := .scalar, fmt := some (Fmt.classV), repeatable := true, row := .vinsLit }]
  | 0x27 => [{ len := 1, d := .scalar, a := .vector, b := .scalar, fmt := some (Fmt.classV), repeatable := true, row := .vext },
      { len := 2, d := .scalar, a := .vector, fmt := some (Fmt.classV), repeatable := true, row := .vextLit }]
  | 0x28 => [{ len := 1, d := .vector, a := .vector, c := .below 16, fmt := some (Fmt.classF), rmUsed := fun r => rmIf Fmt.floating r, satUsed := true, repeatable := true, row := .vrcp }]
  | 0x29 => [{ len := 1, d := .vector, a := .vector, c := .below 16, fmt := some (Fmt.classF), rmUsed := fun r => rmIf Fmt.floating r, satUsed := true, repeatable := true, row := .vrsq }]
  | 0x2a => [{ len := 1, d := .vector, a := .vector, c := .below 16, fmt := some (Fmt.classF), rmUsed := fun r => rmIf Fmt.floating r, satUsed := true, repeatable := true, row := .vsqrt }]
  | 0x2b => [{ len := 1, d := .vector, a := .vector, c := .below 16, fmt := some (Fmt.classF), rmUsed := fun r => rmIf Fmt.floating r, satUsed := true, repeatable := true, row := .vexp2 }]
  | 0x2c => [{ len := 1, d := .vector, a := .vector, c := .below 16, fmt := some (Fmt.classF), rmUsed := fun r => rmIf Fmt.floating r, satUsed := true, repeatable := true, row := .vlog2 }]
  | 0x2d => [{ len := 1, d := .vector, a := .vector, c := .below 16, fmt := some (Fmt.classF), rmUsed := fun r => rmIf Fmt.floating r, satUsed := true, repeatable := true, row := .vtanh }]
  | 0x2e => [{ len := 1, d := .below 16, a := .below 16, b := .below 16, repeatable := true, row := .mand }]
  | 0x2f => [{ len := 1, d := .below 16, a := .below 16, b := .below 16, repeatable := true, row := .mor }]
  | 0x30 => [{ len := 1, d := .below 16, a := .below 16, b := .below 16, repeatable := true, row := .mxor }]
  | 0x31 => [{ len := 1, d := .below 16, a := .below 16, repeatable := true, row := .mnot }]
  | 0x32 => [{ len := 1, d := .scalar, a := .below 16, repeatable := true, row := .mpopc }]
  | 0x33 => [{ len := 1, d := .scalar, a := .below 16, repeatable := true, row := .mfirst }]
  | _ => []

/-- The forms of OP 0x32, by FN (R45). -/
def conversionForms (fn : Nat) : List Form :=
  match fn with
  | 0x00 => [{ len := 1, d := .vector, a := .vector, b := .below 4, c := .free, fmt := some ((fun f => f ∈ ([.e2m1, .e4m3, .e5m2, .int8] : List Fmt))), sfmt := some (Fmt.classF), rmUsed := fun _ => true, fieldX := fun r => qcvtPair r.fmtD r.sfmtD, operX := fun r => wideAligned r.fmtD r.sfmtD (VOp.ofCode r.d) (VOp.ofCode r.a), repeatable := true, row := .qcvt }]
  | 0x01 => [{ len := 1, d := .vector, a := .vector, b := .below 2, c := .free, fmt := some (Fmt.classF), sfmt := some ((fun f => f ∈ ([.e2m1, .e4m3, .e5m2, .int8] : List Fmt))), rmUsed := fun _ => true, satUsed := true, fieldX := fun r => qdcvtPair r.fmtD r.sfmtD, operX := fun r => wideAligned r.fmtD r.sfmtD (VOp.ofCode r.d) (VOp.ofCode r.a), repeatable := true, row := .qdcvt }]
  | 0x02 => [{ len := 1, d := .below 56, a := .vector, b := .scalar, c := .free, fmt := some ((fun f => f ∈ ([.l16] : List Fmt))), sfmt := some (Fmt.classF), satUsed := true, repeatable := true, row := .lq },
      { len := 2, d := .below 56, a := .vector, c := .free, fmt := some ((fun f => f ∈ ([.l16] : List Fmt))), sfmt := some (Fmt.classF), satUsed := true, repeatable := true, row := .lqLit }]
  | 0x03 => [{ len := 1, d := .below 56, a := .vector, b := .scalar, c := .free, fmt := some (Fmt.classF), sfmt := some ((fun f => f ∈ ([.l16] : List Fmt))), rmUsed := fun _ => true, satUsed := true, repeatable := true, row := .ldq },
      { len := 2, d := .below 56, a := .vector, c := .free, fmt := some (Fmt.classF), sfmt := some ((fun f => f ∈ ([.l16] : List Fmt))), rmUsed := fun _ => true, satUsed := true, repeatable := true, row := .ldqLit }]
  | 0x04 => [{ len := 1, d := .below 56, a := .vector, b := .scalar, c := .free, fmt := some ((fun f => f ∈ ([.l16] : List Fmt))), sfmt := some (Fmt.classF), satUsed := true, repeatable := true, row := .lqrep },
      { len := 2, d := .below 56, a := .vector, c := .free, fmt := some ((fun f => f ∈ ([.l16] : List Fmt))), sfmt := some (Fmt.classF), satUsed := true, repeatable := true, row := .lqrepLit }]
  | 0x05 => [{ len := 1, d := .scalar, a := .vector, b := .scalar, c := .free, fmt := some ((fun f => f ∈ ([.l16] : List Fmt))), sfmt := some (Fmt.classF), repeatable := true, row := .lstat },
      { len := 2, d := .scalar, a := .vector, c := .free, fmt := some ((fun f => f ∈ ([.l16] : List Fmt))), sfmt := some (Fmt.classF), repeatable := true, row := .lstatLit }]
  | 0x06 => [{ len := 1, b := .scalar, row := .rngseed },
      { len := 2, row := .rngseedLit }]
  | 0x07 => [{ len := 1, d := .vector, c := .below 16, fmt := some ((fun f => f ∈ ([.uint8, .uint16, .uint32] : List Fmt))), repeatable := true, row := .rngget }]
  | 0x08 => [{ len := 1, a := .vector, b := .scalar, repeatable := true, row := .scpush },
      { len := 2, a := .vector, repeatable := true, row := .scpushLit }]
  | 0x09 => [{ len := 1, d := .below 56, b := .scalar, repeatable := true, row := .scpop },
      { len := 2, d := .below 56, repeatable := true, row := .scpopLit }]
  | _ => []

/-- The forms of OP 0x33, by FN (R45). -/
def matrixForms (fn : Nat) : List Form :=
  match fn with
  | 0x00 => [{ len := 1, d := .below 8, a := .tile, b := .below 16, fmt := some ((fun f => f ∈ ([.int8, .uint8, .int4, .uint4, .e4m3, .e5m2, .e2m1, .fp16, .bf16] : List Fmt))), satUsed := true, repeatable := true, row := .mma }]
  | 0x01 => [{ len := 1, d := .below 8, a := .tile, b := .below 16, c := .below 16, fmt := some ((fun f => f ∈ ([.int8, .uint8, .int4, .uint4, .e4m3, .e5m2, .e2m1, .fp16, .bf16] : List Fmt))), satUsed := true, operX := fun r => evenOk r.b, repeatable := true, row := .mmas }]
  | 0x02 => [{ len := 1, d := .below 8, a := .below 16, b := .below 16, c := .vector, fmt := some ((fun f => f ∈ ([.int8, .uint8, .int4, .uint4, .e4m3, .e5m2, .e2m1, .fp16, .bf16] : List Fmt))), satUsed := true, repeatable := true, row := .mmag }]
  | 0x03 => [{ len := 1, d := .below 8, a := .tile, b := .below 16, c := .free, fmt := some ((fun f => f ∈ ([.e4m3, .e5m2, .fp16, .bf16] : List Fmt))), satUsed := true, fieldX := fun r => r.c == 0x20, repeatable := true, row := .mmal }]
  | 0x04 => [{ len := 1, d := .below 8, repeatable := true, row := .mzero }]
  | 0x05 => [{ len := 1, d := .tile, a := .below 8, c := .free, cZero := 0x38, fmt := some ((fun f => f ∈ ([.fp32, .bf16, .fp16, .e4m3, .e5m2, .int32, .int16, .int8] : List Fmt))), rmUsed := fun _ => true, satUsed := true, clUsed := true, operX := fun r => mdrainOk r, sel := fun r => !amaxNamed r.c, repeatable := true, row := .mdrain },
      { len := 1, d := .tile, a := .below 8, b := .scalar, c := .free, cZero := 0x38, fmt := some ((fun f => f ∈ ([.fp32, .bf16, .fp16, .e4m3, .e5m2, .int32, .int16, .int8] : List Fmt))), rmUsed := fun _ => true, satUsed := true, scUsed := true, clUsed := true, operX := fun r => mdrainOk r, sel := fun r => amaxNamed r.c, repeatable := true, row := .mdrain },
      { len := 2, d := .tile, a := .below 8, c := .free, cZero := 0x38, fmt := some ((fun f => f ∈ ([.fp32, .bf16, .fp16, .e4m3, .e5m2, .int32, .int16, .int8] : List Fmt))), rmUsed := fun _ => true, satUsed := true, scUsed := true, clUsed := true, operX := fun r => mdrainOk r, sel := fun r => amaxNamed r.c, repeatable := true, row := .mdrainLit }]
  | 0x06 => [{ len := 1, b := .scalar, row := .mcfg },
      { len := 2, row := .mcfgLit }]
  | 0x07 => [{ len := 1, d := .below 16, a := .scalar, b := .scalar, c := .free, cZero := 0x20, fmt := some ((fun f => f ∈ ([.int8, .uint8, .e4m3, .e5m2, .int4, .uint4, .e2m1, .fp16, .bf16, .l16, .cb3] : List Fmt))), clUsed := true, operX := fun r => wloadOk r, repeatable := true, row := .wload },
      { len := 2, d := .below 16, a := .scalar, c := .free, cZero := 0x20, fmt := some ((fun f => f ∈ ([.int8, .uint8, .e4m3, .e5m2, .int4, .uint4, .e2m1, .fp16, .bf16, .l16, .cb3] : List Fmt))), clUsed := true, operX := fun r => wloadOk r, repeatable := true, row := .wloadLit }]
  | 0x08 => [{ len := 1, a := .scalar, b := .scalar, c := .free, cZero := 0x3c, clUsed := true, operX := fun r => spaceNotReg r.c, row := .wtab },
      { len := 2, a := .scalar, c := .free, cZero := 0x3c, clUsed := true, operX := fun r => spaceNotReg r.c, row := .wtabLit }]
  | 0x09 => [{ len := 1, d := .scalar, b := .below 4, row := .wstat }]
  | 0x0a => [{ len := 1, d := .scalar, b := .below 5, row := .mstat }]
  | _ => []

/-- The forms of OP 0x34, by FN (R45). -/
def copyForms (fn : Nat) : List Form :=
  match fn with
  | 0x00 => [{ len := 1, d := .scalar, a := .scalar, b := .scalar, c := .free, cZero := 0x30, scUsed := true, clUsed := true, operX := fun r => notBothVirt r.c, repeatable := true, row := .copy },
      { len := 2, d := .scalar, a := .scalar, c := .free, cZero := 0x30, scUsed := true, clUsed := true, operX := fun r => notBothVirt r.c, repeatable := true, row := .copyLit }]
  | 0x01 => [{ len := 1, d := .below 16, a := .below 16, scUsed := true, clUsed := true, repeatable := true, row := .copyn }]
  | 0x02 => [{ len := 1, d := .scalar, a := .below 16, b := .below 16, c := .free, cZero := 0x3c, scUsed := true, clUsed := true, operX := fun r => spaceNotReg r.c, repeatable := true, row := .gather }]
  | 0x03 => [{ len := 1, d := .below 16, a := .scalar, b := .below 16, c := .free, cZero := 0x3c, scUsed := true, clUsed := true, operX := fun r => spaceNotReg r.c, repeatable := true, row := .scatter }]
  | 0x04 => [{ len := 1, d := .scalar, a := .scalar, b := .scalar, c := .free, cZero := 0x30, fmt := some (elemFmt), scUsed := true, clUsed := true, operX := fun r => (notBothVirt r.c && spaceNotReg r.c && spaceNotReg (r.c >>> 2)), repeatable := true, row := .xpose },
      { len := 2, d := .scalar, a := .scalar, c := .free, cZero := 0x30, fmt := some (elemFmt), scUsed := true, clUsed := true, operX := fun r => (notBothVirt r.c && spaceNotReg r.c && spaceNotReg (r.c >>> 2)), repeatable := true, row := .xposeLit }]
  | 0x05 => [{ len := 1, d := .scalar, a := .scalar, b := .scalar, c := .free, cZero := 0x3c, fmt := some (elemFmt), scUsed := true, clUsed := true, repeatable := true, row := .cfill },
      { len := 2, d := .scalar, a := .scalar, c := .free, cZero := 0x3c, fmt := some (elemFmt), scUsed := true, clUsed := true, repeatable := true, row := .cfillLit }]
  | 0x06 => [{ len := 1, d := .scalar, b := .scalar, row := .phase },
      { len := 2, d := .scalar, row := .phaseLit }]
  | 0x07 => [{ len := 1, d := .below 56, a := .scalar, b := .scalar, clUsed := true, repeatable := true, row := .vpush },
      { len := 2, d := .below 56, a := .scalar, clUsed := true, repeatable := true, row := .vpushLit }]
  | 0x08 => [{ len := 1, a := .scalar, b := .scalar, row := .cwb },
      { len := 2, a := .scalar, row := .cwbLit }]
  | 0x09 => [{ len := 1, a := .scalar, b := .scalar, row := .cinv },
      { len := 2, a := .scalar, row := .cinvLit }]
  | _ => []

/-- The forms of OP 0x35, by FN (R45). -/
def syncForms (fn : Nat) : List Form :=
  match fn with
  | 0x00 => [{ len := 1, b := .scalar, scUsed := true, row := .fence },
      { len := 2, scUsed := true, row := .fenceLit }]
  | 0x01 => [{ len := 1, d := .scalar, a := .scalar, b := .scalar, c := .free, cZero := 0x30, fmt := some ((fun f => f ∈ ([.int32, .uint32, .int64, .fp32] : List Fmt))), rmUsed := fun r => rmIf (fun f => f == .fp32) r, scUsed := true, clUsed := true, fieldX := fun r => r.rm.toNat ≤ 3, operX := fun r => spaceNotReg r.c, repeatable := true, row := .aadd },
      { len := 2, d := .scalar, a := .scalar, c := .free, cZero := 0x30, fmt := some ((fun f => f ∈ ([.int32, .uint32, .int64, .fp32] : List Fmt))), rmUsed := fun r => rmIf (fun f => f == .fp32) r, scUsed := true, clUsed := true, fieldX := fun r => r.rm.toNat ≤ 3, operX := fun r => spaceNotReg r.c, repeatable := true, row := .aaddLit }]
  | 0x02 => [{ len := 1, d := .scalar, a := .scalar, b := .scalar, c := .free, cZero := 0x30, fmt := some ((fun f => f ∈ ([.int32, .uint32, .int64] : List Fmt))), scUsed := true, clUsed := true, operX := fun r => spaceNotReg r.c, repeatable := true, row := .aand },
      { len := 2, d := .scalar, a := .scalar, c := .free, cZero := 0x30, fmt := some ((fun f => f ∈ ([.int32, .uint32, .int64] : List Fmt))), scUsed := true, clUsed := true, operX := fun r => spaceNotReg r.c, repeatable := true, row := .aandLit }]
  | 0x03 => [{ len := 1, d := .scalar, a := .scalar, b := .scalar, c := .free, cZero := 0x30, fmt := some ((fun f => f ∈ ([.int32, .uint32, .int64] : List Fmt))), scUsed := true, clUsed := true, operX := fun r => spaceNotReg r.c, repeatable := true, row := .aor },
      { len := 2, d := .scalar, a := .scalar, c := .free, cZero := 0x30, fmt := some ((fun f => f ∈ ([.int32, .uint32, .int64] : List Fmt))), scUsed := true, clUsed := true, operX := fun r => spaceNotReg r.c, repeatable := true, row := .aorLit }]
  | 0x04 => [{ len := 1, d := .scalar, a := .scalar, b := .scalar, c := .free, cZero := 0x30, fmt := some ((fun f => f ∈ ([.int32, .uint32, .int64] : List Fmt))), scUsed := true, clUsed := true, operX := fun r => spaceNotReg r.c, repeatable := true, row := .axor },
      { len := 2, d := .scalar, a := .scalar, c := .free, cZero := 0x30, fmt := some ((fun f => f ∈ ([.int32, .uint32, .int64] : List Fmt))), scUsed := true, clUsed := true, operX := fun r => spaceNotReg r.c, repeatable := true, row := .axorLit }]
  | 0x05 => [{ len := 1, d := .scalar, a := .scalar, b := .scalar, c := .free, cZero := 0x30, fmt := some ((fun f => f ∈ ([.int32, .uint32, .int64, .fp32] : List Fmt))), scUsed := true, clUsed := true, operX := fun r => spaceNotReg r.c, repeatable := true, row := .amin },
      { len := 2, d := .scalar, a := .scalar, c := .free, cZero := 0x30, fmt := some ((fun f => f ∈ ([.int32, .uint32, .int64, .fp32] : List Fmt))), scUsed := true, clUsed := true, operX := fun r => spaceNotReg r.c, repeatable := true, row := .aminLit }]
  | 0x06 => [{ len := 1, d := .scalar, a := .scalar, b := .scalar, c := .free, cZero := 0x30, fmt := some ((fun f => f ∈ ([.int32, .uint32, .int64, .fp32] : List Fmt))), scUsed := true, clUsed := true, operX := fun r => spaceNotReg r.c, repeatable := true, row := .amax },
      { len := 2, d := .scalar, a := .scalar, c := .free, cZero := 0x30, fmt := some ((fun f => f ∈ ([.int32, .uint32, .int64, .fp32] : List Fmt))), scUsed := true, clUsed := true, operX := fun r => spaceNotReg r.c, repeatable := true, row := .amaxLit }]
  | 0x07 => [{ len := 1, d := .scalar, a := .scalar, b := .scalar, c := .free, cZero := 0x30, fmt := some ((fun f => f ∈ ([.int32, .uint32, .int64] : List Fmt))), scUsed := true, clUsed := true, operX := fun r => spaceNotReg r.c, repeatable := true, row := .axchg },
      { len := 2, d := .scalar, a := .scalar, c := .free, cZero := 0x30, fmt := some ((fun f => f ∈ ([.int32, .uint32, .int64] : List Fmt))), scUsed := true, clUsed := true, operX := fun r => spaceNotReg r.c, repeatable := true, row := .axchgLit }]
  | 0x08 => [{ len := 1, d := .scalar, a := .scalar, b := .scalar, c := .free, cZero := 0x30, fmt := some ((fun f => f ∈ ([.int32, .uint32, .int64] : List Fmt))), scUsed := true, clUsed := true, operX := fun r => spaceNotReg r.c, repeatable := true, row := .acas },
      { len := 2, d := .scalar, a := .scalar, c := .free, cZero := 0x30, fmt := some ((fun f => f ∈ ([.int32, .uint32, .int64] : List Fmt))), scUsed := true, clUsed := true, operX := fun r => spaceNotReg r.c, repeatable := true, row := .acasLit }]
  | 0x09 => [{ len := 1, d := .below 56, a := .scalar, b := .vector, c := .free, fmt := some ((fun f => f ∈ ([.int32, .uint32] : List Fmt))), scUsed := true, clUsed := true, operX := fun r => spaceNotReg r.c, repeatable := true, row := .vaor }]
  | 0x0a => [{ len := 1, d := .below 56, a := .scalar, b := .vector, c := .free, fmt := some ((fun f => f ∈ ([.int32, .uint32, .fp32] : List Fmt))), scUsed := true, clUsed := true, operX := fun r => spaceNotReg r.c, repeatable := true, row := .vaadd }]
  | 0x0b => [{ len := 1, d := .below 56, a := .scalar, b := .vector, c := .free, fmt := some ((fun f => f ∈ ([.int32, .uint32, .fp32] : List Fmt))), scUsed := true, clUsed := true, operX := fun r => spaceNotReg r.c, repeatable := true, row := .vamax }]
  | 0x0c => [{ len := 1, d := .owner, a := .scalar, b := .below 64, c := .free, cZero := 0x20, scUsed := true, operX := fun r => ownGiveOk r, repeatable := true, row := .ownGive }]
  | 0x0d => [{ len := 1, d := .owner, a := .scalar, b := .below 64, c := .free, cZero := 0x3c, operX := fun r => ownSpaceOk r.c, repeatable := true, row := .ownTake }]
  | 0x0e => [{ len := 1, d := .scalar, a := .scalar, b := .below 16, c := .free, cZero := 0x3c, operX := fun r => ownSpaceOk r.c, repeatable := true, row := .ownTest }]
  | 0x0f => [{ len := 1, d := .scalar, a := .below 16, b := .scalar, scUsed := true, fieldX := fun r => r.sc != 0, row := .bar },
      { len := 2, d := .scalar, a := .below 16, scUsed := true, fieldX := fun r => r.sc != 0, row := .barLit }]
  | 0x10 => [{ len := 1, d := .scalar, a := .below 16, b := .scalar, scUsed := true, fieldX := fun r => r.sc != 0, row := .sstep },
      { len := 2, d := .scalar, a := .below 16, scUsed := true, fieldX := fun r => r.sc != 0, row := .sstepLit }]
  | 0x11 => [{ len := 1, d := .scalar, a := .scalar, b := .scalar, c := .free, fmt := some ((fun f => f ∈ ([.uint32, .int64] : List Fmt))), scUsed := true, clUsed := true, operX := fun r => (spaceNotReg r.c && (r.c.extractLsb' 2 3).toNat ≤ 5), row := .waitm },
      { len := 2, d := .scalar, a := .scalar, c := .free, fmt := some ((fun f => f ∈ ([.uint32, .int64] : List Fmt))), scUsed := true, clUsed := true, operX := fun r => (spaceNotReg r.c && (r.c.extractLsb' 2 3).toNat ≤ 5), row := .waitmLit }]
  | 0x12 => [{ len := 1, a := .scalar, b := .scalar, c := .free, cZero := 0x38, fmt := some ((fun f => f ∈ ([.uint32, .int64] : List Fmt))), scUsed := true, clUsed := true, operX := fun r => spaceNotReg r.c, row := .signal },
      { len := 2, a := .scalar, c := .free, cZero := 0x38, fmt := some ((fun f => f ∈ ([.uint32, .int64] : List Fmt))), scUsed := true, clUsed := true, operX := fun r => spaceNotReg r.c, row := .signalLit }]
  | _ => []

/-- The forms of OP 0x36, by FN (R45). -/
def contextForms (fn : Nat) : List Form :=
  match fn with
  | 0x00 => [{ len := 1, d := .scalar, row := .cswap }]
  | 0x01 => [{ len := 1, row := .yield }]
  | 0x02 => [{ len := 1, d := .scalar, c := .free, cZero := 0x38, operX := fun r => r.c.extractLsb' 0 3 != 0, row := .park }]
  | 0x03 => [{ len := 1, b := .scalar, c := .free, cZero := 0x3e, row := .wakeat },
      { len := 2, c := .free, cZero := 0x3e, row := .wakeatLit }]
  | 0x04 => [{ len := 1, d := .scalar, a := .scalar, b := .scalar, row := .ctxnew },
      { len := 2, d := .scalar, a := .scalar, row := .ctxnewLit }]
  | 0x05 => [{ len := 1, a := .scalar, row := .ctxfree }]
  | 0x06 => [{ len := 1, d := .scalar, a := .scalar, c := .below 7, row := .ctxq }]
  | 0x07 => [{ len := 1, a := .scalar, b := .scalar, c := .below 8, operX := fun r => ctxsetOk r.c, row := .ctxset },
      { len := 2, a := .scalar, c := .below 8, operX := fun r => ctxsetOk r.c, row := .ctxsetLit }]
  | 0x08 => [{ len := 1, d := .scalar, a := .scalar, b := .scalar, row := .launch },
      { len := 2, d := .scalar, a := .scalar, row := .launchLit }]
  | _ => []

/-- The forms of OP 0x37, by FN (R45). -/
def residencyForms (fn : Nat) : List Form :=
  match fn with
  | 0x00 => [{ len := 1, d := .scalar, a := .scalar, b := .scalar, c := .scalar, row := .pgmap },
      { len := 2, d := .scalar, a := .scalar, c := .scalar, row := .pgmapLit }]
  | 0x01 => [{ len := 1, d := .scalar, a := .scalar, c := .free, cZero := 0x3e, sel := fun r => r.c.getLsbD 0 == false, row := .pgunmap },
      { len := 1, d := .scalar, a := .scalar, b := .scalar, c := .free, cZero := 0x3e, sel := fun r => r.c.getLsbD 0, row := .pgunmapGrant },
      { len := 2, d := .scalar, a := .scalar, c := .free, cZero := 0x3e, sel := fun r => r.c.getLsbD 0, row := .pgunmapGrantLit }]
  | 0x02 => [{ len := 1, d := .scalar, a := .scalar, row := .pgpin }]
  | 0x03 => [{ len := 1, d := .scalar, a := .scalar, row := .pgunpin }]
  | 0x04 => [{ len := 1, d := .scalar, a := .scalar, c := .below 3, row := .pgmove }]
  | 0x05 => [{ len := 1, d := .scalar, a := .scalar, c := .below 6, row := .pghint }]
  | 0x06 => [{ len := 1, d := .scalar, a := .scalar, b := .scalar, row := .kvalloc },
      { len := 2, d := .scalar, a := .scalar, row := .kvallocLit }]
  | 0x07 => [{ len := 1, d := .scalar, a := .scalar, b := .scalar, c := .free, cZero := 0x3e, row := .kvfree },
      { len := 2, d := .scalar, a := .scalar, c := .free, cZero := 0x3e, row := .kvfreeLit }]
  | 0x08 => [{ len := 1, d := .scalar, a := .scalar, clUsed := true, row := .kvappend }]
  | 0x09 => [{ len := 1, d := .scalar, a := .scalar, b := .scalar, c := .free, cZero := 0x3e, clUsed := true, row := .kvinval },
      { len := 2, d := .scalar, a := .scalar, c := .free, cZero := 0x3e, clUsed := true, row := .kvinvalLit }]
  | 0x0a => [{ len := 1, a := .scalar, b := .scalar, row := .jbegin },
      { len := 2, a := .scalar, row := .jbeginLit }]
  | 0x0b => [{ len := 1, d := .scalar, row := .jcommit }]
  | 0x0c => [{ len := 1, d := .scalar, row := .jrewind }]
  | _ => []

/-- The forms of OP 0x38, by FN (R45). -/
def systemForms (fn : Nat) : List Form :=
  match fn with
  | 0x00 => [{ len := 1, b := .scalar, row := .trap },
      { len := 2, row := .trapLit }]
  | 0x01 => [{ len := 1, row := .eret }]
  | 0x02 => [{ len := 1, d := .scalar, a := .scalar, row := .scrub }]
  | 0x03 => [{ len := 1, d := .scalar, a := .scalar, b := .scalar, c := .free, zeroX := fun r => (!r.c.getLsbD 5 || r.b == 0), operX := fun r => partcfgOk r, row := .partcfg },
      { len := 2, d := .scalar, a := .scalar, c := .free, zeroX := fun r => (!r.c.getLsbD 5 || r.b == 0), operX := fun r => partcfgOk r, sel := fun r => !r.c.getLsbD 5, row := .partcfgLit }]
  | 0x04 => [{ len := 1, d := .scalar, a := .scalar, b := .scalar, c := .free, cZero := 0x3e, zeroX := fun r => (!r.c.getLsbD 0 || r.b == 0), row := .qoscfg },
      { len := 2, d := .scalar, a := .scalar, c := .free, cZero := 0x3e, zeroX := fun r => (!r.c.getLsbD 0 || r.b == 0), sel := fun r => !r.c.getLsbD 0, row := .qoscfgLit }]
  | 0x05 => [{ len := 1, b := .scalar, row := .intpost },
      { len := 2, row := .intpostLit }]
  | 0x06 => [{ len := 1, d := .scalar, a := .scalar, c := .below 6, row := .resetdom }]
  | 0x07 => [{ len := 1, a := .scalar, b := .scalar, row := .tlbinv },
      { len := 2, a := .scalar, row := .tlbinvLit }]
  | 0x08 => [{ len := 1, d := .scalar, c := .free, cZero := 0x3e, row := .rdtime }]
  | 0x09 => [{ len := 1, d := .scalar, c := .free, cZero := 0x3e, row := .rdlat }]
  | 0x0a => [{ len := 1, d := .scalar, b := .scalar, row := .wfe },
      { len := 2, d := .scalar, row := .wfeLit }]
  | 0x0b => [{ len := 1, row := .haltc }]
  | _ => []

/-- The forms of OP 0x39, by FN (R45). -/
def linkForms (fn : Nat) : List Form :=
  match fn with
  | 0x00 => [{ len := 1, d := .scalar, a := .scalar, b := .scalar, c := .free, cZero := 0x38, row := .recast },
      { len := 2, d := .scalar, a := .scalar, c := .free, cZero := 0x38, row := .recastLit }]
  | 0x01 => [{ len := 1, d := .scalar, a := .scalar, c := .below 6, row := .lnkstat }]
  | 0x02 => [{ len := 1, d := .scalar, a := .scalar, c := .below 4, row := .ristat }]
  | 0x03 => [{ len := 1, d := .scalar, a := .scalar, clUsed := true, row := .nsend }]
  | 0x04 => [{ len := 1, d := .scalar, a := .scalar, clUsed := true, row := .nfetch }]
  | 0x05 => [{ len := 1, d := .scalar, a := .scalar, b := .scalar, row := .ringstep },
      { len := 2, d := .scalar, a := .scalar, row := .ringstepLit }]
  | _ => []

/-- The forms of OP 0x3a, by FN (R45). -/
def slateForms (fn : Nat) : List Form :=
  match fn with
  | 0x00 => [{ len := 1, d := .scalar, c := .free, cZero := 0x3e, row := .slcut }]
  | 0x01 => [{ len := 1, d := .scalar, c := .below 2, row := .slwait }]
  | 0x02 => [{ len := 1, d := .scalar, b := .scalar, row := .slcommit },
      { len := 2, d := .scalar, row := .slcommitLit }]
  | 0x03 => [{ len := 1, d := .scalar, b := .scalar, row := .slrestore },
      { len := 2, d := .scalar, row := .slrestoreLit }]
  | 0x04 => [{ len := 1, d := .scalar, c := .below 8, row := .slstat }]
  | 0x05 => [{ len := 1, d := .scalar, b := .scalar, c := .below 7, row := .errwatch },
      { len := 2, d := .scalar, c := .below 7, row := .errwatchLit }]
  | _ => []

/-- The forms of OP 0x3b, by FN (R45). -/
def memStackForms (fn : Nat) : List Form :=
  match fn with
  | 0x00 => [{ len := 1, d := .scalar, a := .scalar, c := .free, cZero := 0x3e, row := .memhint }]
  | 0x01 => [{ len := 1, d := .scalar, a := .scalar, c := .below 7, row := .memstat }]
  | _ => []

/-- Every form of an OP and FN (R44, R45). A scalar major keeps its forms under OP, a class major under FN. -/
def formsOf (op fn : Nat) : List Form :=
  match op with
  | 0x30 => accessForms fn
  | 0x31 => vectorForms fn
  | 0x32 => conversionForms fn
  | 0x33 => matrixForms fn
  | 0x34 => copyForms fn
  | 0x35 => syncForms fn
  | 0x36 => contextForms fn
  | 0x37 => residencyForms fn
  | 0x38 => systemForms fn
  | 0x39 => linkForms fn
  | 0x3A => slateForms fn
  | 0x3B => memStackForms fn
  | _ => if fn < fnBound op then scalarForms op else []
where
  /-- FN of a scalar major is known when some length of it has that variant (R44). -/
  fnBound (op : Nat) : Nat := ((scalarForms op).map (·.fns)).foldl max 0

/-- The opcodes R43 leaves illegal. -/
def opIllegal (op : Nat) : Bool := op == 0x00 || op == 0x24 || (0x2B ≤ op && op ≤ 0x2F) || 0x3C ≤ op

/-- Every field the form does not use is zero (R32, R33, bit 63). A C field that a chapter's table gives as zero counts as unused: reason 4
(DESIGN CHOICE, log 81). -/
def Form.zeroOk (f : Form) (r : Raw) : Bool :=
  !r.top && (f.d != .none || r.d == 0) && (f.a != .none || r.a == 0) && (f.b != .none || r.b == 0)
    && (f.c != .none || r.c == 0) && (r.c &&& f.cZero == 0) && (f.fmt.isSome || r.fmt == 0)
    && (f.rmUsed r || r.rm == 0) && (f.satUsed || !r.sat) && (f.scUsed || r.sc == 0) && (f.clUsed || r.cl == 0)
    && f.zeroX r

/-- The A bit is as R38 requires. -/
def Form.markOk (f : Form) (r : Raw) : Bool :=
  match f.mark with
  | .forbidden => !r.abit
  | .either => true
  | .required => r.abit

/-- The guard, RM, SC and formats are legal and accepted (R31, R37, R46). -/
def Form.fieldOk (f : Form) (r : Raw) : Bool :=
  !(r.g == 0 && r.gn) && r.rm.toNat ≤ 4 && r.sc.toNat ≤ 4
    && (match f.fmt with
        | none => true
        | some p => (match Fmt.ofCode r.fmt with | some x => p x | none => false))
    && (match f.sfmt with
        | none => true
        | some p => (match Fmt.ofCode r.c with | some x => p x | none => false))
    && f.fieldX r

/-- Every operand field is valid for its kind and no alignment rule is broken (R34). -/
def Form.operOk (f : Form) (r : Raw) : Bool :=
  f.d.valid r.d && f.a.valid r.a && f.b.valid r.b && f.c.valid r.c && f.operX r

/-- A control register that CSRW may not write at the level (R70): cr.core, cr.ctx and cr.dmap at either level, and at
level U also cr.srg.ctr and cr.lat. The S-only cr.frec is the privilege trap's, not this check's. -/
def csrReadOnly (levelS : Bool) (c : Csr) : Bool :=
  match c with
  | .core | .ctx | .dmap => true
  | .ctr | .lat => !levelS
  | _ => false

/-- The last check of R47: a CSRW to a register read-only at the current level. -/
def csrwOk (levelS : Bool) (r : Raw) : Bool := !(r.op == 0x2A && csrReadOnly levelS r.csrD)

/-- Checks 4 to 7 of R47 in their order. -/
def Form.check (f : Form) (levelS : Bool) (r : Raw) : Except Illegal Row :=
  if !f.zeroOk r then .error .zero
  else if !f.markOk r then .error .marker
  else if !f.fieldOk r then .error .field
  else if !(f.operOk r && csrwOk levelS r) then .error .operand
  else .ok f.row

/-- Find the form of the fields: checks 1 to 3 of R47 and the length check after them. -/
def findForm (r : Raw) : Except Illegal Form :=
  if opIllegal r.op.toNat then .error .opcode
  else if 0x30 ≤ r.op.toNat && r.len == 0 then .error .length
  else match formsOf r.op.toNat r.fn.toNat with
    | [] => .error .function
    | f :: fs => match (f :: fs).find? (fun x => x.len == r.len.toNat && r.fn.toNat < fnsOf r x && x.sel r) with
      | some x => .ok x
      | none => .error .length
where
  /-- A class form has one FN, its own; a scalar form those below its bound. -/
  fnsOf (r : Raw) (x : Form) : Nat := if 0x30 ≤ r.op.toNat then 256 else x.fns

/-- `decode_one` of R47: the row of one instruction from its fields, at level S or U. -/
def decodeOne (levelS : Bool) (r : Raw) : Except Illegal Row :=
  match findForm r with
  | .error e => .error e
  | .ok f => f.check levelS r

/-- What the decoder reads: a REP prefix, or a row of the form tables with its fields. -/
inductive Decoded where
  | rep (step : BitVec 4) (mask : BitVec 3) (cnt : BitVec 7)
  | one (w : Row) (r : Raw)
deriving DecidableEq, Repr

/-- The instruction of what was decoded. -/
noncomputable def Decoded.instr (d : Decoded) : Instr :=
  match d with
  | .rep step mask cnt => .rep step mask cnt
  | .one w r => w.instr r

/-- The REP prefix of R39; its successor is checked when the prefix is performed, before anything takes effect. -/
def decodeRep (w : Parcel) : Except Illegal Decoded :=
  if w.getLsbD 2 || w.extractLsb' 17 15 != 0 then .error .zero
  else .ok (.rep (w.extractLsb' 13 4) (w.extractLsb' 10 3) (w.extractLsb' 3 7))

/-- How many parcels an instruction has, from its first parcel (R29). -/
def parcelCount (w0 : Parcel) : Nat :=
  match (w0.extractLsb' 0 2).toNat with
  | 1 => 2
  | 2 => 3
  | _ => 1

/-- The fields of the parcels of one instruction (R30, R31); parcels that are not there read as zero. -/
def rawOfParcels (ps : List Parcel) : Raw :=
  match ps with
  | [w0] => Raw.ofParcels w0 0 0
  | [w0, w1] => Raw.ofParcels w0 w1 0
  | w0 :: w1 :: w2 :: _ => Raw.ofParcels w0 w1 w2
  | [] => {}

/-- Decode the parcels of one instruction or prefix, as many as its first parcel says. -/
def decodeParcels (levelS : Bool) (ps : List Parcel) : Except Illegal Decoded :=
  match ps with
  | [] => .error .short
  | w0 :: _ =>
    if w0.extractLsb' 0 2 == 3 then decodeRep w0
    else if ps.length != parcelCount w0 then .error .short
    else match decodeOne levelS (rawOfParcels ps) with
      | .error e => .error e
      | .ok w => .ok (.one w (rawOfParcels ps))

/-- The first parcel of a byte list, little-endian (R5, R29), and the rest. -/
def takeParcel (bs : List Byte) : Option (Parcel × List Byte) :=
  match bs with
  | b0 :: b1 :: b2 :: b3 :: rest => some (b3 ++ b2 ++ b1 ++ b0, rest)
  | _ => none

/-- `n` parcels of a byte list, and the rest. -/
def takeParcels : Nat → List Byte → Option (List Parcel × List Byte)
  | 0, bs => some ([], bs)
  | n + 1, bs =>
    match takeParcel bs with
    | none => none
    | some (p, rest) =>
      match takeParcels n rest with
      | none => none
      | some (ps, rest') => some (p :: ps, rest')

/-- Decode the instruction at the head of a byte list; answers it with the bytes after it. -/
noncomputable def decode (levelS : Bool) (bs : List Byte) : Except Illegal (Instr × List Byte) :=
  match takeParcel bs with
  | none => .error .short
  | some (w0, _) =>
    match takeParcels (parcelCount w0) bs with
    | none => .error .short
    | some (ps, rest) =>
      match decodeParcels levelS ps with
      | .error e => .error e
      | .ok d => .ok (d.instr, rest)

/-- The little-endian bytes of a parcel (R5). -/
def parcelBytes (w : Parcel) : List Byte :=
  [w.extractLsb' 0 8, w.extractLsb' 8 8, w.extractLsb' 16 8, w.extractLsb' 24 8]

/-- The instruction the decoder reads, at level S, from a table row's bits: bit 0 of the first word first, the bits above
`nbits` zero, up to the three parcels of the longest instruction. -/
noncomputable def decodeTableWord (nbits w : Nat) : Option Instr :=
  let v : BitVec 96 := BitVec.ofNat 96 (w % 2 ^ nbits)
  match decode true (parcelBytes (v.extractLsb' 0 32) ++ parcelBytes (v.extractLsb' 32 32)
      ++ parcelBytes (v.extractLsb' 64 32)) with
  | .ok (i, _) => some i
  | .error _ => none

/-! The repetition checks of R40. -/

/-- Field number `j` of R40's loop: D 0, A 1, B 2. -/
def Raw.field (r : Raw) (j : Nat) : BitVec 6 :=
  match j with
  | 0 => r.d | 1 => r.a | _ => r.b

/-- The kind of field number `j`. -/
def Form.kindOf (f : Form) (j : Nat) : Kind :=
  match j with
  | 0 => f.d | 1 => f.a | _ => f.b

/-- The signed value of the stepped field at repetition `k`, before it is taken as a field (R40). -/
def steppedValue (v : BitVec 6) (step : BitVec 4) (k : Nat) : Int := (v.toNat : Int) + k * step.toInt

/-- The fields of repetition `k` (R40). -/
def Raw.repeated (r : Raw) (step : BitVec 4) (mask : BitVec 3) (k : Nat) : Raw :=
  let v (j : Nat) (x : BitVec 6) : BitVec 6 :=
    if mask.getLsbD j then BitVec.ofInt 6 (steppedValue x step k) else x
  { r with d := v 0 r.d, a := v 1 r.a, b := v 2 r.b }

/-- One stepped field at repetition `k`: it has an operand, stays in 0 to 63, names no queue and is valid (R40). -/
def stepFieldOk (f : Form) (r : Raw) (step : BitVec 4) (k j : Nat) : Bool :=
  let v := steppedValue (r.field j) step k
  (f.kindOf j).operand && decide (0 ≤ v) && decide (v < 64)
    && !(f.kindOf j).namesQueue (BitVec.ofInt 6 v) && (f.kindOf j).valid (BitVec.ofInt 6 v)

/-- Every repetition below `n` passes the checks of `rep_legal` (R40). -/
def repsOk (f : Form) (r : Raw) (step : BitVec 4) (mask : BitVec 3) : Nat → Bool
  | 0 => true
  | n + 1 =>
    (List.range 3).all (fun j => !mask.getLsbD j || stepFieldOk f r step n j)
      && f.operX (r.repeated step mask n) && repsOk f r step mask n

/-- `rep_legal` of R40: the row under the prefix, or the reason that stops it. -/
def repLegal (levelS : Bool) (step : BitVec 4) (mask : BitVec 3) (cnt : BitVec 7) (r : Raw) : Except Illegal Row :=
  if r.len == 3 then .error .repetition
  else match findForm r with
    | .error e => .error e
    | .ok f => match f.check levelS r with
      | .error e => .error e
      | .ok w => if f.repeatable && repsOk f r step mask (cnt.toNat + 1) then .ok w else .error .repetition

/-! The encoder. -/

/-- The fields of an encoded instruction, from the same tables; event rows and REP have none here. -/
def rawOf (i : Instr) : Option Raw :=
  match i with
  | .add g x d a b => some { op := 0x01, len := 0, g := g.p, gn := g.neg, abit := x, d := d, a := a, b := b }
  | .add64 g x v sat d a b => some { op := 0x01, len := 1, g := g.p, gn := g.neg, abit := x, fn := v.code, sat := sat, d := d, a := a, b := b }
  | .add96 g x v sat d a lit => some { op := 0x01, len := 2, g := g.p, gn := g.neg, abit := x, fn := v.code, sat := sat, d := d, a := a, lit := lit }
  | .sub g x d a b => some { op := 0x02, len := 0, g := g.p, gn := g.neg, abit := x, d := d, a := a, b := b }
  | .sub64 g x v sat d a b => some { op := 0x02, len := 1, g := g.p, gn := g.neg, abit := x, fn := v.code, sat := sat, d := d, a := a, b := b }
  | .sub96 g x v sat d a lit => some { op := 0x02, len := 2, g := g.p, gn := g.neg, abit := x, fn := v.code, sat := sat, d := d, a := a, lit := lit }
  | .mul g x d a b => some { op := 0x03, len := 0, g := g.p, gn := g.neg, abit := x, d := d, a := a, b := b }
  | .mul64 g x v sat d a b => some { op := 0x03, len := 1, g := g.p, gn := g.neg, abit := x, fn := v.code, sat := sat, d := d, a := a, b := b }
  | .mul96 g x v sat d a lit => some { op := 0x03, len := 2, g := g.p, gn := g.neg, abit := x, fn := v.code, sat := sat, d := d, a := a, lit := lit }
  | .mulh g d a b => some { op := 0x04, len := 0, g := g.p, gn := g.neg, d := d, a := a, b := b }
  | .mulh64 g v d a b => some { op := 0x04, len := 1, g := g.p, gn := g.neg, fn := v.code, d := d, a := a, b := b }
  | .mulh96 g v d a lit => some { op := 0x04, len := 2, g := g.p, gn := g.neg, fn := v.code, d := d, a := a, lit := lit }
  | .div g d a b => some { op := 0x05, len := 0, g := g.p, gn := g.neg, d := d, a := a, b := b }
  | .div64 g v sat d a b => some { op := 0x05, len := 1, g := g.p, gn := g.neg, fn := v.code, sat := sat, d := d, a := a, b := b }
  | .div96 g v sat d a lit => some { op := 0x05, len := 2, g := g.p, gn := g.neg, fn := v.code, sat := sat, d := d, a := a, lit := lit }
  | .rem g d a b => some { op := 0x06, len := 0, g := g.p, gn := g.neg, d := d, a := a, b := b }
  | .rem64 g v d a b => some { op := 0x06, len := 1, g := g.p, gn := g.neg, fn := v.code, d := d, a := a, b := b }
  | .rem96 g v d a lit => some { op := 0x06, len := 2, g := g.p, gn := g.neg, fn := v.code, d := d, a := a, lit := lit }
  | .and g x d a b => some { op := 0x07, len := 0, g := g.p, gn := g.neg, abit := x, d := d, a := a, b := b }
  | .and64 g x d a b => some { op := 0x07, len := 1, g := g.p, gn := g.neg, abit := x, d := d, a := a, b := b }
  | .and96 g x d a lit => some { op := 0x07, len := 2, g := g.p, gn := g.neg, abit := x, d := d, a := a, lit := lit }
  | .or g x d a b => some { op := 0x08, len := 0, g := g.p, gn := g.neg, abit := x, d := d, a := a, b := b }
  | .or64 g x d a b => some { op := 0x08, len := 1, g := g.p, gn := g.neg, abit := x, d := d, a := a, b := b }
  | .or96 g x d a lit => some { op := 0x08, len := 2, g := g.p, gn := g.neg, abit := x, d := d, a := a, lit := lit }
  | .xor g x d a b => some { op := 0x09, len := 0, g := g.p, gn := g.neg, abit := x, d := d, a := a, b := b }
  | .xor64 g x d a b => some { op := 0x09, len := 1, g := g.p, gn := g.neg, abit := x, d := d, a := a, b := b }
  | .xor96 g x d a lit => some { op := 0x09, len := 2, g := g.p, gn := g.neg, abit := x, d := d, a := a, lit := lit }
  | .andn g x d a b => some { op := 0x0a, len := 0, g := g.p, gn := g.neg, abit := x, d := d, a := a, b := b }
  | .andn64 g x d a b => some { op := 0x0a, len := 1, g := g.p, gn := g.neg, abit := x, d := d, a := a, b := b }
  | .andn96 g x d a lit => some { op := 0x0a, len := 2, g := g.p, gn := g.neg, abit := x, d := d, a := a, lit := lit }
  | .shl g x d a b => some { op := 0x0b, len := 0, g := g.p, gn := g.neg, abit := x, d := d, a := a, b := b }
  | .shl64 g x v d a b => some { op := 0x0b, len := 1, g := g.p, gn := g.neg, abit := x, fn := v.code, d := d, a := a, b := b }
  | .shl96 g x v d a lit => some { op := 0x0b, len := 2, g := g.p, gn := g.neg, abit := x, fn := v.code, d := d, a := a, lit := lit }
  | .shr g x d a b => some { op := 0x0c, len := 0, g := g.p, gn := g.neg, abit := x, d := d, a := a, b := b }
  | .shr64 g x v d a b => some { op := 0x0c, len := 1, g := g.p, gn := g.neg, abit := x, fn := v.code, d := d, a := a, b := b }
  | .shr96 g x v d a lit => some { op := 0x0c, len := 2, g := g.p, gn := g.neg, abit := x, fn := v.code, d := d, a := a, lit := lit }
  | .sra g x d a b => some { op := 0x0d, len := 0, g := g.p, gn := g.neg, abit := x, d := d, a := a, b := b }
  | .sra64 g x v d a b => some { op := 0x0d, len := 1, g := g.p, gn := g.neg, abit := x, fn := v.code, d := d, a := a, b := b }
  | .sra96 g x v d a lit => some { op := 0x0d, len := 2, g := g.p, gn := g.neg, abit := x, fn := v.code, d := d, a := a, lit := lit }
  | .rol g d a b => some { op := 0x0e, len := 0, g := g.p, gn := g.neg, d := d, a := a, b := b }
  | .rol64 g v d a b => some { op := 0x0e, len := 1, g := g.p, gn := g.neg, fn := v.code, d := d, a := a, b := b }
  | .rol96 g v d a lit => some { op := 0x0e, len := 2, g := g.p, gn := g.neg, fn := v.code, d := d, a := a, lit := lit }
  | .clz g d a => some { op := 0x0f, len := 0, g := g.p, gn := g.neg, d := d, a := a }
  | .clz64 g v d a => some { op := 0x0f, len := 1, g := g.p, gn := g.neg, fn := v.code, d := d, a := a }
  | .ctz g d a => some { op := 0x10, len := 0, g := g.p, gn := g.neg, d := d, a := a }
  | .ctz64 g v d a => some { op := 0x10, len := 1, g := g.p, gn := g.neg, fn := v.code, d := d, a := a }
  | .popc g d a => some { op := 0x11, len := 0, g := g.p, gn := g.neg, d := d, a := a }
  | .popc64 g v d a => some { op := 0x11, len := 1, g := g.p, gn := g.neg, fn := v.code, d := d, a := a }
  | .brev g d a => some { op := 0x12, len := 0, g := g.p, gn := g.neg, d := d, a := a }
  | .brev64 g v d a => some { op := 0x12, len := 1, g := g.p, gn := g.neg, fn := v.code, d := d, a := a }
  | .min g x d a b => some { op := 0x13, len := 0, g := g.p, gn := g.neg, abit := x, d := d, a := a, b := b }
  | .min64 g x v d a b => some { op := 0x13, len := 1, g := g.p, gn := g.neg, abit := x, fn := v.code, d := d, a := a, b := b }
  | .min96 g x v d a lit => some { op := 0x13, len := 2, g := g.p, gn := g.neg, abit := x, fn := v.code, d := d, a := a, lit := lit }
  | .max g x d a b => some { op := 0x14, len := 0, g := g.p, gn := g.neg, abit := x, d := d, a := a, b := b }
  | .max64 g x v d a b => some { op := 0x14, len := 1, g := g.p, gn := g.neg, abit := x, fn := v.code, d := d, a := a, b := b }
  | .max96 g x v d a lit => some { op := 0x14, len := 2, g := g.p, gn := g.neg, abit := x, fn := v.code, d := d, a := a, lit := lit }
  | .sel g x d a b => some { op := 0x15, len := 0, g := g.p, gn := g.neg, abit := x, d := d, a := a, b := b }
  | .sel64 g x d a b c => some { op := 0x15, len := 1, g := g.p, gn := g.neg, abit := x, d := d, a := a, b := b, c := c.setWidth 6 }
  | .sel96 g x d a lit c => some { op := 0x15, len := 2, g := g.p, gn := g.neg, abit := x, d := d, a := a, lit := lit, c := c.setWidth 6 }
  | .mov g x d a => some { op := 0x16, len := 0, g := g.p, gn := g.neg, abit := x, d := d, a := a }
  | .mov64 g x d a => some { op := 0x16, len := 1, g := g.p, gn := g.neg, abit := x, d := d, a := a }
  | .movi g x d imm => some { op := 0x17, len := 0, g := g.p, gn := g.neg, abit := x, d := d, a := imm.extractLsb' 0 6, b := imm.extractLsb' 6 6 }
  | .movi96 g x v d lit => some { op := 0x17, len := 2, g := g.p, gn := g.neg, abit := x, fn := v.code, d := d, lit := lit }
  | .addi g x d imm => some { op := 0x18, len := 0, g := g.p, gn := g.neg, abit := x, d := d, a := imm.extractLsb' 0 6, b := imm.extractLsb' 6 6 }
  | .lea g x d a b => some { op := 0x19, len := 0, g := g.p, gn := g.neg, abit := x, d := d, a := a, b := b }
  | .lea64 g x d a b c => some { op := 0x19, len := 1, g := g.p, gn := g.neg, abit := x, d := d, a := a, b := b, c := c.setWidth 6 }
  | .lea96 g x d a lit c => some { op := 0x19, len := 2, g := g.p, gn := g.neg, abit := x, d := d, a := a, lit := lit, c := c.setWidth 6 }
  | .cmp g x d a b => some { op := 0x1a, len := 0, g := g.p, gn := g.neg, abit := x, d := d.setWidth 6, a := a, b := b }
  | .cmp64 g x v d a b => some { op := 0x1a, len := 1, g := g.p, gn := g.neg, abit := x, fn := v.code, d := d.setWidth 6, a := a, b := b }
  | .cmp96 g x v d a lit => some { op := 0x1a, len := 2, g := g.p, gn := g.neg, abit := x, fn := v.code, d := d.setWidth 6, a := a, lit := lit }
  | .pand g x d a b => some { op := 0x1b, len := 0, g := g.p, gn := g.neg, abit := x, d := d.setWidth 6, a := a.setWidth 6, b := b.setWidth 6 }
  | .pand64 g x d a b => some { op := 0x1b, len := 1, g := g.p, gn := g.neg, abit := x, d := d.setWidth 6, a := a.setWidth 6, b := b.setWidth 6 }
  | .por g x d a b => some { op := 0x1c, len := 0, g := g.p, gn := g.neg, abit := x, d := d.setWidth 6, a := a.setWidth 6, b := b.setWidth 6 }
  | .por64 g x d a b => some { op := 0x1c, len := 1, g := g.p, gn := g.neg, abit := x, d := d.setWidth 6, a := a.setWidth 6, b := b.setWidth 6 }
  | .pxor g x d a b => some { op := 0x1d, len := 0, g := g.p, gn := g.neg, abit := x, d := d.setWidth 6, a := a.setWidth 6, b := b.setWidth 6 }
  | .pxor64 g x d a b => some { op := 0x1d, len := 1, g := g.p, gn := g.neg, abit := x, d := d.setWidth 6, a := a.setWidth 6, b := b.setWidth 6 }
  | .pnot g x d a => some { op := 0x1e, len := 0, g := g.p, gn := g.neg, abit := x, d := d.setWidth 6, a := a.setWidth 6 }
  | .pnot64 g x d a => some { op := 0x1e, len := 1, g := g.p, gn := g.neg, abit := x, d := d.setWidth 6, a := a.setWidth 6 }
  | .br g off => some { op := 0x1f, len := 0, g := g.p, gn := g.neg, d := off.extractLsb' 0 6, a := off.extractLsb' 6 6, b := off.extractLsb' 12 6 }
  | .jmp g a => some { op := 0x20, len := 0, g := g.p, gn := g.neg, a := a }
  | .jmp64 g a => some { op := 0x20, len := 1, g := g.p, gn := g.neg, a := a }
  | .jmp96 g a lit => some { op := 0x20, len := 2, g := g.p, gn := g.neg, a := a, lit := lit }
  | .call g off => some { op := 0x21, len := 0, g := g.p, gn := g.neg, d := off.extractLsb' 0 6, a := off.extractLsb' 6 6, b := off.extractLsb' 12 6 }
  | .ret g a => some { op := 0x22, len := 0, g := g.p, gn := g.neg, a := a }
  | .ret64 g a => some { op := 0x22, len := 1, g := g.p, gn := g.neg, a := a }
  | .loop g d off => some { op := 0x23, len := 0, g := g.p, gn := g.neg, d := d, a := off.extractLsb' 0 6, b := off.extractLsb' 6 6 }
  | .rep _ _ _ => none
  | .nop g x => some { op := 0x25, len := 0, g := g.p, gn := g.neg, abit := x }
  | .nop64 g x => some { op := 0x25, len := 1, g := g.p, gn := g.neg, abit := x }
  | .endTask g => some { op := 0x26, len := 0, g := g.p, gn := g.neg }
  | .endTask64 g => some { op := 0x26, len := 1, g := g.p, gn := g.neg }
  | .lds g d a b => some { op := 0x27, len := 0, g := g.p, gn := g.neg, d := d, a := a, b := b }
  | .lds64 g v cl sp d a b => some { op := 0x27, len := 1, g := g.p, gn := g.neg, fn := v.code, cl := cl, d := d, a := a, b := b, c := (0#4 ++ (sp.code : BitVec 2) : BitVec 6) }
  | .lds96 g v cl sp d a lit => some { op := 0x27, len := 2, g := g.p, gn := g.neg, fn := v.code, cl := cl, d := d, a := a, lit := lit, c := (0#4 ++ (sp.code : BitVec 2) : BitVec 6) }
  | .sts g d a b => some { op := 0x28, len := 0, g := g.p, gn := g.neg, d := d, a := a, b := b }
  | .sts64 g v cl sp d a b => some { op := 0x28, len := 1, g := g.p, gn := g.neg, fn := v.code, cl := cl, d := d, a := a, b := b, c := (0#4 ++ (sp.code : BitVec 2) : BitVec 6) }
  | .sts96 g v cl sp d a lit => some { op := 0x28, len := 2, g := g.p, gn := g.neg, fn := v.code, cl := cl, d := d, a := a, lit := lit, c := (0#4 ++ (sp.code : BitVec 2) : BitVec 6) }
  | .csrr g d csr => some { op := 0x29, len := 0, g := g.p, gn := g.neg, d := d, a := csr.code.extractLsb' 0 6, b := csr.code.extractLsb' 6 6 }
  | .csrw g d csr => some { op := 0x2a, len := 0, g := g.p, gn := g.neg, d := d, a := csr.code.extractLsb' 0 6, b := csr.code.extractLsb' 6 6 }
  | .shld g cl sp d a b => some { op := 0x30, len := 1, g := g.p, gn := g.neg, abit := true, cl := cl, d := d.setWidth 6, a := a, b := b, c := (0#4 ++ (sp.code : BitVec 2) : BitVec 6) }
  | .shldLit g cl sp d a lit => some { op := 0x30, len := 2, g := g.p, gn := g.neg, abit := true, cl := cl, d := d.setWidth 6, a := a, lit := lit, c := (0#4 ++ (sp.code : BitVec 2) : BitVec 6) }
  | .shst g cl sp d a b => some { op := 0x30, len := 1, g := g.p, gn := g.neg, abit := true, cl := cl, d := d.setWidth 6, a := a, b := b, fn := 0x01, c := (0#4 ++ (sp.code : BitVec 2) : BitVec 6) }
  | .shstLit g cl sp d a lit => some { op := 0x30, len := 2, g := g.p, gn := g.neg, abit := true, cl := cl, d := d.setWidth 6, a := a, lit := lit, fn := 0x01, c := (0#4 ++ (sp.code : BitVec 2) : BitVec 6) }
  | .shset g d b c => some { op := 0x30, len := 1, g := g.p, gn := g.neg, abit := true, d := d.setWidth 6, b := b, c := c.setWidth 6, fn := 0x02 }
  | .shsetLit g d lit c => some { op := 0x30, len := 2, g := g.p, gn := g.neg, abit := true, d := d.setWidth 6, lit := lit, c := c.setWidth 6, fn := 0x02 }
  | .shget g d a c => some { op := 0x30, len := 1, g := g.p, gn := g.neg, abit := true, d := d, a := a.setWidth 6, c := c.setWidth 6, fn := 0x03 }
  | .shmov g d a => some { op := 0x30, len := 1, g := g.p, gn := g.neg, abit := true, d := d.setWidth 6, a := a.setWidth 6, fn := 0x04 }
  | .openR g cl d a => some { op := 0x30, len := 1, g := g.p, gn := g.neg, abit := true, cl := cl, d := BitVec.ofNat 6 (56 + d.toNat), a := a.setWidth 6, fn := 0x05 }
  | .openW g cl d a => some { op := 0x30, len := 1, g := g.p, gn := g.neg, abit := true, cl := cl, d := BitVec.ofNat 6 (56 + d.toNat), a := a.setWidth 6, fn := 0x06 }
  | .openG g cl d a b => some { op := 0x30, len := 1, g := g.p, gn := g.neg, abit := true, cl := cl, d := BitVec.ofNat 6 (56 + d.toNat), a := a.setWidth 6, b := b.setWidth 6, fn := 0x07 }
  | .adv g d b => some { op := 0x30, len := 1, g := g.p, gn := g.neg, abit := true, d := BitVec.ofNat 6 (56 + d.toNat), b := b, fn := 0x08 }
  | .advLit g d lit => some { op := 0x30, len := 2, g := g.p, gn := g.neg, abit := true, d := BitVec.ofNat 6 (56 + d.toNat), lit := lit, fn := 0x08 }
  | .close g d => some { op := 0x30, len := 1, g := g.p, gn := g.neg, abit := true, d := BitVec.ofNat 6 (56 + d.toNat), fn := 0x09 }
  | .drain g d => some { op := 0x30, len := 1, g := g.p, gn := g.neg, abit := true, d := BitVec.ofNat 6 (56 + d.toNat), fn := 0x0a }
  | .pld g cl d a b c => some { op := 0x30, len := 1, g := g.p, gn := g.neg, abit := true, cl := cl, d := BitVec.ofNat 6 d.val, a := a.setWidth 6, b := b, c := c.setWidth 6, fn := 0x0b }
  | .pldLit g cl d a lit c => some { op := 0x30, len := 2, g := g.p, gn := g.neg, abit := true, cl := cl, d := BitVec.ofNat 6 d.val, a := a.setWidth 6, lit := lit, c := c.setWidth 6, fn := 0x0b }
  | .reside g d a b c => some { op := 0x30, len := 1, g := g.p, gn := g.neg, abit := true, d := d, a := a.setWidth 6, b := b, c := c.setWidth 6, fn := 0x0c }
  | .resideLit g d a lit c => some { op := 0x30, len := 2, g := g.p, gn := g.neg, abit := true, d := d, a := a.setWidth 6, lit := lit, c := c.setWidth 6, fn := 0x0c }
  | .lookahead g d b => some { op := 0x30, len := 1, g := g.p, gn := g.neg, abit := true, d := BitVec.ofNat 6 (56 + d.toNat), b := b, fn := 0x0d }
  | .lookaheadLit g d lit => some { op := 0x30, len := 2, g := g.p, gn := g.neg, abit := true, d := BitVec.ofNat 6 (56 + d.toNat), lit := lit, fn := 0x0d }
  | .posr g d a c => some { op := 0x30, len := 1, g := g.p, gn := g.neg, abit := true, d := d, a := BitVec.ofNat 6 (56 + a.toNat), c := BitVec.ofNat 6 c.val, fn := 0x0e }
  | .qcnt g d a => some { op := 0x30, len := 1, g := g.p, gn := g.neg, abit := true, d := d, a := BitVec.ofNat 6 (56 + a.toNat), fn := 0x0f }
  | .vld g cl d a b c => some { op := 0x30, len := 1, g := g.p, gn := g.neg, abit := true, cl := cl, d := BitVec.ofNat 6 d.val, a := a.setWidth 6, b := b, c := c.setWidth 6, fn := 0x10 }
  | .vldLit g cl d a lit c => some { op := 0x30, len := 2, g := g.p, gn := g.neg, abit := true, cl := cl, d := BitVec.ofNat 6 d.val, a := a.setWidth 6, lit := lit, c := c.setWidth 6, fn := 0x10 }
  | .vst g cl d a b c => some { op := 0x30, len := 1, g := g.p, gn := g.neg, abit := true, cl := cl, d := BitVec.ofNat 6 d.val, a := a.setWidth 6, b := b, c := c.setWidth 6, fn := 0x11 }
  | .vstLit g cl d a lit c => some { op := 0x30, len := 2, g := g.p, gn := g.neg, abit := true, cl := cl, d := BitVec.ofNat 6 d.val, a := a.setWidth 6, lit := lit, c := c.setWidth 6, fn := 0x11 }
  | .scld g cl a b => some { op := 0x30, len := 1, g := g.p, gn := g.neg, abit := true, cl := cl, a := a.setWidth 6, b := b, fn := 0x12 }
  | .scldLit g cl a lit => some { op := 0x30, len := 2, g := g.p, gn := g.neg, abit := true, cl := cl, a := a.setWidth 6, lit := lit, fn := 0x12 }
  | .pref g a b c => some { op := 0x30, len := 1, g := g.p, gn := g.neg, abit := true, a := a.setWidth 6, b := b, c := BitVec.ofNat 6 c.val, fn := 0x13 }
  | .prefLit g a lit c => some { op := 0x30, len := 2, g := g.p, gn := g.neg, abit := true, a := a.setWidth 6, lit := lit, c := BitVec.ofNat 6 c.val, fn := 0x13 }
  | .vadd g f rm sat d a b c => some { op := 0x31, len := 1, g := g.p, gn := g.neg, fmt := f.code, rm := rm.code, sat := sat, d := d.code, a := a.code, b := b.code, c := c.setWidth 6 }
  | .vaddLit g f rm sat d a lit c => some { op := 0x31, len := 2, g := g.p, gn := g.neg, fmt := f.code, rm := rm.code, sat := sat, d := d.code, a := a.code, lit := lit, c := c.setWidth 6 }
  | .vsub g f rm sat d a b c => some { op := 0x31, len := 1, g := g.p, gn := g.neg, fmt := f.code, rm := rm.code, sat := sat, d := d.code, a := a.code, b := b.code, c := c.setWidth 6, fn := 0x01 }
  | .vsubLit g f rm sat d a lit c => some { op := 0x31, len := 2, g := g.p, gn := g.neg, fmt := f.code, rm := rm.code, sat := sat, d := d.code, a := a.code, lit := lit, c := c.setWidth 6, fn := 0x01 }
  | .vmul g f rm sat d a b c => some { op := 0x31, len := 1, g := g.p, gn := g.neg, fmt := f.code, rm := rm.code, sat := sat, d := d.code, a := a.code, b := b.code, c := c.setWidth 6, fn := 0x02 }
  | .vmulLit g f rm sat d a lit c => some { op := 0x31, len := 2, g := g.p, gn := g.neg, fmt := f.code, rm := rm.code, sat := sat, d := d.code, a := a.code, lit := lit, c := c.setWidth 6, fn := 0x02 }
  | .vfma g f rm sat d a b c => some { op := 0x31, len := 1, g := g.p, gn := g.neg, fmt := f.code, rm := rm.code, sat := sat, d := BitVec.ofNat 6 d.val, a := a.code, b := b.code, c := c.setWidth 6, fn := 0x03 }
  | .vfms g f rm sat d a b c => some { op := 0x31, len := 1, g := g.p, gn := g.neg, fmt := f.code, rm := rm.code, sat := sat, d := BitVec.ofNat 6 d.val, a := a.code, b := b.code, c := c.setWidth 6, fn := 0x04 }
  | .vnfma g f rm sat d a b c => some { op := 0x31, len := 1, g := g.p, gn := g.neg, fmt := f.code, rm := rm.code, sat := sat, d := BitVec.ofNat 6 d.val, a := a.code, b := b.code, c := c.setWidth 6, fn := 0x05 }
  | .vmin g f d a b c => some { op := 0x31, len := 1, g := g.p, gn := g.neg, fmt := f.code, d := d.code, a := a.code, b := b.code, c := c.setWidth 6, fn := 0x06 }
  | .vminLit g f d a lit c => some { op := 0x31, len := 2, g := g.p, gn := g.neg, fmt := f.code, d := d.code, a := a.code, lit := lit, c := c.setWidth 6, fn := 0x06 }
  | .vmax g f d a b c => some { op := 0x31, len := 1, g := g.p, gn := g.neg, fmt := f.code, d := d.code, a := a.code, b := b.code, c := c.setWidth 6, fn := 0x07 }
  | .vmaxLit g f d a lit c => some { op := 0x31, len := 2, g := g.p, gn := g.neg, fmt := f.code, d := d.code, a := a.code, lit := lit, c := c.setWidth 6, fn := 0x07 }
  | .vabs g f sat d a c => some { op := 0x31, len := 1, g := g.p, gn := g.neg, fmt := f.code, sat := sat, d := d.code, a := a.code, c := c.setWidth 6, fn := 0x08 }
  | .vneg g f sat d a c => some { op := 0x31, len := 1, g := g.p, gn := g.neg, fmt := f.code, sat := sat, d := d.code, a := a.code, c := c.setWidth 6, fn := 0x09 }
  | .vand g f d a b c => some { op := 0x31, len := 1, g := g.p, gn := g.neg, fmt := f.code, d := d.code, a := a.code, b := b.code, c := c.setWidth 6, fn := 0x0a }
  | .vandLit g f d a lit c => some { op := 0x31, len := 2, g := g.p, gn := g.neg, fmt := f.code, d := d.code, a := a.code, lit := lit, c := c.setWidth 6, fn := 0x0a }
  | .vor g f d a b c => some { op := 0x31, len := 1, g := g.p, gn := g.neg, fmt := f.code, d := d.code, a := a.code, b := b.code, c := c.setWidth 6, fn := 0x0b }
  | .vorLit g f d a lit c => some { op := 0x31, len := 2, g := g.p, gn := g.neg, fmt := f.code, d := d.code, a := a.code, lit := lit, c := c.setWidth 6, fn := 0x0b }
  | .vxor g f d a b c => some { op := 0x31, len := 1, g := g.p, gn := g.neg, fmt := f.code, d := d.code, a := a.code, b := b.code, c := c.setWidth 6, fn := 0x0c }
  | .vxorLit g f d a lit c => some { op := 0x31, len := 2, g := g.p, gn := g.neg, fmt := f.code, d := d.code, a := a.code, lit := lit, c := c.setWidth 6, fn := 0x0c }
  | .vnot g f d a c => some { op := 0x31, len := 1, g := g.p, gn := g.neg, fmt := f.code, d := d.code, a := a.code, c := c.setWidth 6, fn := 0x0d }
  | .vshl g f d a b c => some { op := 0x31, len := 1, g := g.p, gn := g.neg, fmt := f.code, d := d.code, a := a.code, b := b.code, c := c.setWidth 6, fn := 0x0e }
  | .vshlLit g f d a lit c => some { op := 0x31, len := 2, g := g.p, gn := g.neg, fmt := f.code, d := d.code, a := a.code, lit := lit, c := c.setWidth 6, fn := 0x0e }
  | .vshr g f d a b c => some { op := 0x31, len := 1, g := g.p, gn := g.neg, fmt := f.code, d := d.code, a := a.code, b := b.code, c := c.setWidth 6, fn := 0x0f }
  | .vshrLit g f d a lit c => some { op := 0x31, len := 2, g := g.p, gn := g.neg, fmt := f.code, d := d.code, a := a.code, lit := lit, c := c.setWidth 6, fn := 0x0f }
  | .vsra g f d a b c => some { op := 0x31, len := 1, g := g.p, gn := g.neg, fmt := f.code, d := d.code, a := a.code, b := b.code, c := c.setWidth 6, fn := 0x10 }
  | .vsraLit g f d a lit c => some { op := 0x31, len := 2, g := g.p, gn := g.neg, fmt := f.code, d := d.code, a := a.code, lit := lit, c := c.setWidth 6, fn := 0x10 }
  | .vrol g f d a b c => some { op := 0x31, len := 1, g := g.p, gn := g.neg, fmt := f.code, d := d.code, a := a.code, b := b.code, c := c.setWidth 6, fn := 0x11 }
  | .vrolLit g f d a lit c => some { op := 0x31, len := 2, g := g.p, gn := g.neg, fmt := f.code, d := d.code, a := a.code, lit := lit, c := c.setWidth 6, fn := 0x11 }
  | .vmulhi g f d a b c => some { op := 0x31, len := 1, g := g.p, gn := g.neg, fmt := f.code, d := d.code, a := a.code, b := b.code, c := c.setWidth 6, fn := 0x12 }
  | .vmulhiLit g f d a lit c => some { op := 0x31, len := 2, g := g.p, gn := g.neg, fmt := f.code, d := d.code, a := a.code, lit := lit, c := c.setWidth 6, fn := 0x12 }
  | .vcmp g f d a b c => some { op := 0x31, len := 1, g := g.p, gn := g.neg, fmt := f.code, d := d.setWidth 6, a := a.code, b := b.code, c := c.code, fn := 0x13 }
  | .vcmpLit g f d a lit c => some { op := 0x31, len := 2, g := g.p, gn := g.neg, fmt := f.code, d := d.setWidth 6, a := a.code, lit := lit, c := c.code, fn := 0x13 }
  | .vsel g f d a b c => some { op := 0x31, len := 1, g := g.p, gn := g.neg, fmt := f.code, d := d.code, a := a.code, b := b.code, c := c.setWidth 6, fn := 0x14 }
  | .vmov g f d a c => some { op := 0x31, len := 1, g := g.p, gn := g.neg, fmt := f.code, d := d.code, a := a.code, c := c.setWidth 6, fn := 0x15 }
  | .vsplat g f d b c => some { op := 0x31, len := 1, g := g.p, gn := g.neg, fmt := f.code, d := d.code, b := b, c := c.setWidth 6, fn := 0x16 }
  | .vsplatLit g f rm sat d lit c => some { op := 0x31, len := 2, g := g.p, gn := g.neg, fmt := f.code, rm := rm.code, sat := sat, d := d.code, lit := lit, c := c.setWidth 6, fn := 0x16 }
  | .viota g f d b c => some { op := 0x31, len := 1, g := g.p, gn := g.neg, fmt := f.code, d := d.code, b := b, c := c.setWidth 6, fn := 0x17 }
  | .viotaLit g f d lit c => some { op := 0x31, len := 2, g := g.p, gn := g.neg, fmt := f.code, d := d.code, lit := lit, c := c.setWidth 6, fn := 0x17 }
  | .vcvt g f sf rm sat d a => some { op := 0x31, len := 1, g := g.p, gn := g.neg, fmt := f.code, c := sf.code, rm := rm.code, sat := sat, d := d.code, a := a.code, fn := 0x18 }
  | .vwadd g f sf rm sat d a b => some { op := 0x31, len := 1, g := g.p, gn := g.neg, fmt := f.code, c := sf.code, rm := rm.code, sat := sat, d := d.code, a := a.code, b := b.code, fn := 0x19 }
  | .vwmul g f sf rm sat d a b => some { op := 0x31, len := 1, g := g.p, gn := g.neg, fmt := f.code, c := sf.code, rm := rm.code, sat := sat, d := d.code, a := a.code, b := b.code, fn := 0x1a }
  | .vnarrow g f sf rm sat d a b => some { op := 0x31, len := 1, g := g.p, gn := g.neg, fmt := f.code, c := sf.code, rm := rm.code, sat := sat, d := d.code, a := a.code, b := b, fn := 0x1b }
  | .vnarrowLit g f sf rm sat d a lit => some { op := 0x31, len := 2, g := g.p, gn := g.neg, fmt := f.code, c := sf.code, rm := rm.code, sat := sat, d := d.code, a := a.code, lit := lit, fn := 0x1b }
  | .vredsum g f rm sat d a c => some { op := 0x31, len := 1, g := g.p, gn := g.neg, fmt := f.code, rm := rm.code, sat := sat, d := d.code, a := a.code, c := c.setWidth 6, fn := 0x1c }
  | .vredmax g f d a c => some { op := 0x31, len := 1, g := g.p, gn := g.neg, fmt := f.code, d := d.code, a := a.code, c := c.setWidth 6, fn := 0x1d }
  | .vredmin g f d a c => some { op := 0x31, len := 1, g := g.p, gn := g.neg, fmt := f.code, d := d.code, a := a.code, c := c.setWidth 6, fn := 0x1e }
  | .vscan g f rm sat d a c => some { op := 0x31, len := 1, g := g.p, gn := g.neg, fmt := f.code, rm := rm.code, sat := sat, d := d.code, a := a.code, c := c.setWidth 6, fn := 0x1f }
  | .vperm g f d a b c => some { op := 0x31, len := 1, g := g.p, gn := g.neg, fmt := f.code, d := d.code, a := a.code, b := b.code, c := c.setWidth 6, fn := 0x20 }
  | .vslide g f d a b c => some { op := 0x31, len := 1, g := g.p, gn := g.neg, fmt := f.code, d := d.code, a := a.code, b := b, c := c.setWidth 6, fn := 0x21 }
  | .vslideLit g f d a lit c => some { op := 0x31, len := 2, g := g.p, gn := g.neg, fmt := f.code, d := d.code, a := a.code, lit := lit, c := c.setWidth 6, fn := 0x21 }
  | .vzip g f d a b => some { op := 0x31, len := 1, g := g.p, gn := g.neg, fmt := f.code, d := d.code, a := a.code, b := b.code, fn := 0x22 }
  | .vunzip g f d a b => some { op := 0x31, len := 1, g := g.p, gn := g.neg, fmt := f.code, d := d.code, a := a.code, b := b.code, fn := 0x23 }
  | .vcompress g f d a c => some { op := 0x31, len := 1, g := g.p, gn := g.neg, fmt := f.code, d := d.code, a := a.code, c := c.setWidth 6, fn := 0x24 }
  | .vexpand g f d a c => some { op := 0x31, len := 1, g := g.p, gn := g.neg, fmt := f.code, d := d.code, a := a.code, c := c.setWidth 6, fn := 0x25 }
  | .vins g f d a b => some { op := 0x31, len := 1, g := g.p, gn := g.neg, fmt := f.code, d := BitVec.ofNat 6 d.val, a := a, b := b, fn := 0x26 }
  | .vinsLit g f d a lit => some { op := 0x31, len := 2, g := g.p, gn := g.neg, fmt := f.code, d := BitVec.ofNat 6 d.val, a := a, lit := lit, fn := 0x26 }
  | .vext g f d a b => some { op := 0x31, len := 1, g := g.p, gn := g.neg, fmt := f.code, d := d, a := a.code, b := b, fn := 0x27 }
  | .vextLit g f d a lit => some { op := 0x31, len := 2, g := g.p, gn := g.neg, fmt := f.code, d := d, a := a.code, lit := lit, fn := 0x27 }
  | .vrcp g f rm sat d a c => some { op := 0x31, len := 1, g := g.p, gn := g.neg, fmt := f.code, rm := rm.code, sat := sat, d := d.code, a := a.code, c := c.setWidth 6, fn := 0x28 }
  | .vrsq g f rm sat d a c => some { op := 0x31, len := 1, g := g.p, gn := g.neg, fmt := f.code, rm := rm.code, sat := sat, d := d.code, a := a.code, c := c.setWidth 6, fn := 0x29 }
  | .vsqrt g f rm sat d a c => some { op := 0x31, len := 1, g := g.p, gn := g.neg, fmt := f.code, rm := rm.code, sat := sat, d := d.code, a := a.code, c := c.setWidth 6, fn := 0x2a }
  | .vexp2 g f rm sat d a c => some { op := 0x31, len := 1, g := g.p, gn := g.neg, fmt := f.code, rm := rm.code, sat := sat, d := d.code, a := a.code, c := c.setWidth 6, fn := 0x2b }
  | .vlog2 g f rm sat d a c => some { op := 0x31, len := 1, g := g.p, gn := g.neg, fmt := f.code, rm := rm.code, sat := sat, d := d.code, a := a.code, c := c.setWidth 6, fn := 0x2c }
  | .vtanh g f rm sat d a c => some { op := 0x31, len := 1, g := g.p, gn := g.neg, fmt := f.code, rm := rm.code, sat := sat, d := d.code, a := a.code, c := c.setWidth 6, fn := 0x2d }
  | .mand g d a b => some { op := 0x31, len := 1, g := g.p, gn := g.neg, d := d.setWidth 6, a := a.setWidth 6, b := b.setWidth 6, fn := 0x2e }
  | .mor g d a b => some { op := 0x31, len := 1, g := g.p, gn := g.neg, d := d.setWidth 6, a := a.setWidth 6, b := b.setWidth 6, fn := 0x2f }
  | .mxor g d a b => some { op := 0x31, len := 1, g := g.p, gn := g.neg, d := d.setWidth 6, a := a.setWidth 6, b := b.setWidth 6, fn := 0x30 }
  | .mnot g d a => some { op := 0x31, len := 1, g := g.p, gn := g.neg, d := d.setWidth 6, a := a.setWidth 6, fn := 0x31 }
  | .mpopc g d a => some { op := 0x31, len := 1, g := g.p, gn := g.neg, d := d, a := a.setWidth 6, fn := 0x32 }
  | .mfirst g d a => some { op := 0x31, len := 1, g := g.p, gn := g.neg, d := d, a := a.setWidth 6, fn := 0x33 }
  | .qcvt g f sf rm d a b => some { op := 0x32, len := 1, g := g.p, gn := g.neg, fmt := f.code, c := sf.code, rm := rm.code, d := d.code, a := a.code, b := b.setWidth 6 }
  | .qdcvt g f sf rm sat d a b => some { op := 0x32, len := 1, g := g.p, gn := g.neg, fmt := f.code, c := sf.code, rm := rm.code, sat := sat, d := d.code, a := a.code, b := b.setWidth 6, fn := 0x01 }
  | .lq g f sf sat d a b => some { op := 0x32, len := 1, g := g.p, gn := g.neg, fmt := f.code, c := sf.code, sat := sat, d := BitVec.ofNat 6 d.val, a := a.code, b := b, fn := 0x02 }
  | .lqLit g f sf sat d a lit => some { op := 0x32, len := 2, g := g.p, gn := g.neg, fmt := f.code, c := sf.code, sat := sat, d := BitVec.ofNat 6 d.val, a := a.code, lit := lit, fn := 0x02 }
  | .ldq g f sf rm sat d a b => some { op := 0x32, len := 1, g := g.p, gn := g.neg, fmt := f.code, c := sf.code, rm := rm.code, sat := sat, d := BitVec.ofNat 6 d.val, a := a.code, b := b, fn := 0x03 }
  | .ldqLit g f sf rm sat d a lit => some { op := 0x32, len := 2, g := g.p, gn := g.neg, fmt := f.code, c := sf.code, rm := rm.code, sat := sat, d := BitVec.ofNat 6 d.val, a := a.code, lit := lit, fn := 0x03 }
  | .lqrep g f sf sat d a b => some { op := 0x32, len := 1, g := g.p, gn := g.neg, fmt := f.code, c := sf.code, sat := sat, d := BitVec.ofNat 6 d.val, a := a.code, b := b, fn := 0x04 }
  | .lqrepLit g f sf sat d a lit => some { op := 0x32, len := 2, g := g.p, gn := g.neg, fmt := f.code, c := sf.code, sat := sat, d := BitVec.ofNat 6 d.val, a := a.code, lit := lit, fn := 0x04 }
  | .lstat g f sf d a b => some { op := 0x32, len := 1, g := g.p, gn := g.neg, fmt := f.code, c := sf.code, d := d, a := a.code, b := b, fn := 0x05 }
  | .lstatLit g f sf d a lit => some { op := 0x32, len := 2, g := g.p, gn := g.neg, fmt := f.code, c := sf.code, d := d, a := a.code, lit := lit, fn := 0x05 }
  | .rngseed g b => some { op := 0x32, len := 1, g := g.p, gn := g.neg, b := b, fn := 0x06 }
  | .rngseedLit g lit => some { op := 0x32, len := 2, g := g.p, gn := g.neg, lit := lit, fn := 0x06 }
  | .rngget g f d c => some { op := 0x32, len := 1, g := g.p, gn := g.neg, fmt := f.code, d := d.code, c := c.setWidth 6, fn := 0x07 }
  | .scpush g a b => some { op := 0x32, len := 1, g := g.p, gn := g.neg, a := a.code, b := b, fn := 0x08 }
  | .scpushLit g a lit => some { op := 0x32, len := 2, g := g.p, gn := g.neg, a := a.code, lit := lit, fn := 0x08 }
  | .scpop g d b => some { op := 0x32, len := 1, g := g.p, gn := g.neg, d := BitVec.ofNat 6 d.val, b := b, fn := 0x09 }
  | .scpopLit g d lit => some { op := 0x32, len := 2, g := g.p, gn := g.neg, d := BitVec.ofNat 6 d.val, lit := lit, fn := 0x09 }
  | .mma g f sat d a b => some { op := 0x33, len := 1, g := g.p, gn := g.neg, fmt := f.code, sat := sat, d := d.setWidth 6, a := a.code, b := b.setWidth 6 }
  | .mmas g f sat d a b c => some { op := 0x33, len := 1, g := g.p, gn := g.neg, fmt := f.code, sat := sat, d := d.setWidth 6, a := a.code, b := b.setWidth 6, c := c.setWidth 6, fn := 0x01 }
  | .mmag g f sat d a b c => some { op := 0x33, len := 1, g := g.p, gn := g.neg, fmt := f.code, sat := sat, d := d.setWidth 6, a := a.setWidth 6, b := b.setWidth 6, c := c.code, fn := 0x02 }
  | .mmal g f sat d a b => some { op := 0x33, len := 1, g := g.p, gn := g.neg, fmt := f.code, sat := sat, d := d.setWidth 6, a := a.code, b := b.setWidth 6, fn := 0x03, c := 0x20 }
  | .mzero g d => some { op := 0x33, len := 1, g := g.p, gn := g.neg, d := d.setWidth 6, fn := 0x04 }
  | .mdrain g f rm sat sc cl sp z d a b => some { op := 0x33, len := 1, g := g.p, gn := g.neg, fmt := f.code, rm := rm.code, sat := sat, sc := sc.code, cl := cl, d := d.code, a := a.setWidth 6, b := b, fn := 0x05, c := (0#3 ++ (BitVec.ofBool z : BitVec 1) ++ (sp.code : BitVec 2) : BitVec 6) }
  | .mdrainLit g f rm sat sc cl sp z d a lit => some { op := 0x33, len := 2, g := g.p, gn := g.neg, fmt := f.code, rm := rm.code, sat := sat, sc := sc.code, cl := cl, d := d.code, a := a.setWidth 6, lit := lit, fn := 0x05, c := (0#3 ++ (BitVec.ofBool z : BitVec 1) ++ (sp.code : BitVec 2) : BitVec 6) }
  | .mcfg g b => some { op := 0x33, len := 1, g := g.p, gn := g.neg, b := b, fn := 0x06 }
  | .mcfgLit g lit => some { op := 0x33, len := 2, g := g.p, gn := g.neg, lit := lit, fn := 0x06 }
  | .wload g f cl sp mx ue k32 d a b => some { op := 0x33, len := 1, g := g.p, gn := g.neg, fmt := f.code, cl := cl, d := d.setWidth 6, a := a, b := b, fn := 0x07, c := (0#1 ++ (BitVec.ofBool k32 : BitVec 1) ++ (BitVec.ofBool ue : BitVec 1) ++ (BitVec.ofBool mx : BitVec 1) ++ (sp.code : BitVec 2) : BitVec 6) }
  | .wloadLit g f cl sp mx ue k32 d a lit => some { op := 0x33, len := 2, g := g.p, gn := g.neg, fmt := f.code, cl := cl, d := d.setWidth 6, a := a, lit := lit, fn := 0x07, c := (0#1 ++ (BitVec.ofBool k32 : BitVec 1) ++ (BitVec.ofBool ue : BitVec 1) ++ (BitVec.ofBool mx : BitVec 1) ++ (sp.code : BitVec 2) : BitVec 6) }
  | .wtab g cl sp a b => some { op := 0x33, len := 1, g := g.p, gn := g.neg, cl := cl, a := a, b := b, fn := 0x08, c := (0#4 ++ (sp.code : BitVec 2) : BitVec 6) }
  | .wtabLit g cl sp a lit => some { op := 0x33, len := 2, g := g.p, gn := g.neg, cl := cl, a := a, lit := lit, fn := 0x08, c := (0#4 ++ (sp.code : BitVec 2) : BitVec 6) }
  | .wstat g d b => some { op := 0x33, len := 1, g := g.p, gn := g.neg, d := d, b := b.setWidth 6, fn := 0x09 }
  | .mstat g d b => some { op := 0x33, len := 1, g := g.p, gn := g.neg, d := d, b := BitVec.ofNat 6 b.val, fn := 0x0a }
  | .copy g sc cl dsp ssp d a b => some { op := 0x34, len := 1, g := g.p, gn := g.neg, sc := sc.code, cl := cl, d := d, a := a, b := b, c := (0#2 ++ (ssp.code : BitVec 2) ++ (dsp.code : BitVec 2) : BitVec 6) }
  | .copyLit g sc cl dsp ssp d a lit => some { op := 0x34, len := 2, g := g.p, gn := g.neg, sc := sc.code, cl := cl, d := d, a := a, lit := lit, c := (0#2 ++ (ssp.code : BitVec 2) ++ (dsp.code : BitVec 2) : BitVec 6) }
  | .copyn g sc cl d a => some { op := 0x34, len := 1, g := g.p, gn := g.neg, sc := sc.code, cl := cl, d := d.setWidth 6, a := a.setWidth 6, fn := 0x01 }
  | .gather g sc cl sp d a b => some { op := 0x34, len := 1, g := g.p, gn := g.neg, sc := sc.code, cl := cl, d := d, a := a.setWidth 6, b := b.setWidth 6, fn := 0x02, c := (0#4 ++ (sp.code : BitVec 2) : BitVec 6) }
  | .scatter g sc cl sp d a b => some { op := 0x34, len := 1, g := g.p, gn := g.neg, sc := sc.code, cl := cl, d := d.setWidth 6, a := a, b := b.setWidth 6, fn := 0x03, c := (0#4 ++ (sp.code : BitVec 2) : BitVec 6) }
  | .xpose g f sc cl dsp ssp d a b => some { op := 0x34, len := 1, g := g.p, gn := g.neg, fmt := f.code, sc := sc.code, cl := cl, d := d, a := a, b := b, fn := 0x04, c := (0#2 ++ (ssp.code : BitVec 2) ++ (dsp.code : BitVec 2) : BitVec 6) }
  | .xposeLit g f sc cl dsp ssp d a lit => some { op := 0x34, len := 2, g := g.p, gn := g.neg, fmt := f.code, sc := sc.code, cl := cl, d := d, a := a, lit := lit, fn := 0x04, c := (0#2 ++ (ssp.code : BitVec 2) ++ (dsp.code : BitVec 2) : BitVec 6) }
  | .cfill g f sc cl sp d a b => some { op := 0x34, len := 1, g := g.p, gn := g.neg, fmt := f.code, sc := sc.code, cl := cl, d := d, a := a, b := b, fn := 0x05, c := (0#4 ++ (sp.code : BitVec 2) : BitVec 6) }
  | .cfillLit g f sc cl sp d a lit => some { op := 0x34, len := 2, g := g.p, gn := g.neg, fmt := f.code, sc := sc.code, cl := cl, d := d, a := a, lit := lit, fn := 0x05, c := (0#4 ++ (sp.code : BitVec 2) : BitVec 6) }
  | .phase g d b => some { op := 0x34, len := 1, g := g.p, gn := g.neg, d := d, b := b, fn := 0x06 }
  | .phaseLit g d lit => some { op := 0x34, len := 2, g := g.p, gn := g.neg, d := d, lit := lit, fn := 0x06 }
  | .vpush g cl d a b => some { op := 0x34, len := 1, g := g.p, gn := g.neg, cl := cl, d := BitVec.ofNat 6 d.val, a := a, b := b, fn := 0x07 }
  | .vpushLit g cl d a lit => some { op := 0x34, len := 2, g := g.p, gn := g.neg, cl := cl, d := BitVec.ofNat 6 d.val, a := a, lit := lit, fn := 0x07 }
  | .cwb g a b => some { op := 0x34, len := 1, g := g.p, gn := g.neg, a := a, b := b, fn := 0x08 }
  | .cwbLit g a lit => some { op := 0x34, len := 2, g := g.p, gn := g.neg, a := a, lit := lit, fn := 0x08 }
  | .cinv g a b => some { op := 0x34, len := 1, g := g.p, gn := g.neg, a := a, b := b, fn := 0x09 }
  | .cinvLit g a lit => some { op := 0x34, len := 2, g := g.p, gn := g.neg, a := a, lit := lit, fn := 0x09 }
  | .fence g sc b => some { op := 0x35, len := 1, g := g.p, gn := g.neg, sc := sc.code, b := b }
  | .fenceLit g sc lit => some { op := 0x35, len := 2, g := g.p, gn := g.neg, sc := sc.code, lit := lit }
  | .aadd g f rm sc cl sp ord d a b => some { op := 0x35, len := 1, g := g.p, gn := g.neg, fmt := f.code, rm := rm.code, sc := sc.code, cl := cl, d := d, a := a, b := b, fn := 0x01, c := (0#2 ++ (ord.code : BitVec 2) ++ (sp.code : BitVec 2) : BitVec 6) }
  | .aaddLit g f rm sc cl sp ord d a lit => some { op := 0x35, len := 2, g := g.p, gn := g.neg, fmt := f.code, rm := rm.code, sc := sc.code, cl := cl, d := d, a := a, lit := lit, fn := 0x01, c := (0#2 ++ (ord.code : BitVec 2) ++ (sp.code : BitVec 2) : BitVec 6) }
  | .aand g f sc cl sp ord d a b => some { op := 0x35, len := 1, g := g.p, gn := g.neg, fmt := f.code, sc := sc.code, cl := cl, d := d, a := a, b := b, fn := 0x02, c := (0#2 ++ (ord.code : BitVec 2) ++ (sp.code : BitVec 2) : BitVec 6) }
  | .aandLit g f sc cl sp ord d a lit => some { op := 0x35, len := 2, g := g.p, gn := g.neg, fmt := f.code, sc := sc.code, cl := cl, d := d, a := a, lit := lit, fn := 0x02, c := (0#2 ++ (ord.code : BitVec 2) ++ (sp.code : BitVec 2) : BitVec 6) }
  | .aor g f sc cl sp ord d a b => some { op := 0x35, len := 1, g := g.p, gn := g.neg, fmt := f.code, sc := sc.code, cl := cl, d := d, a := a, b := b, fn := 0x03, c := (0#2 ++ (ord.code : BitVec 2) ++ (sp.code : BitVec 2) : BitVec 6) }
  | .aorLit g f sc cl sp ord d a lit => some { op := 0x35, len := 2, g := g.p, gn := g.neg, fmt := f.code, sc := sc.code, cl := cl, d := d, a := a, lit := lit, fn := 0x03, c := (0#2 ++ (ord.code : BitVec 2) ++ (sp.code : BitVec 2) : BitVec 6) }
  | .axor g f sc cl sp ord d a b => some { op := 0x35, len := 1, g := g.p, gn := g.neg, fmt := f.code, sc := sc.code, cl := cl, d := d, a := a, b := b, fn := 0x04, c := (0#2 ++ (ord.code : BitVec 2) ++ (sp.code : BitVec 2) : BitVec 6) }
  | .axorLit g f sc cl sp ord d a lit => some { op := 0x35, len := 2, g := g.p, gn := g.neg, fmt := f.code, sc := sc.code, cl := cl, d := d, a := a, lit := lit, fn := 0x04, c := (0#2 ++ (ord.code : BitVec 2) ++ (sp.code : BitVec 2) : BitVec 6) }
  | .amin g f sc cl sp ord d a b => some { op := 0x35, len := 1, g := g.p, gn := g.neg, fmt := f.code, sc := sc.code, cl := cl, d := d, a := a, b := b, fn := 0x05, c := (0#2 ++ (ord.code : BitVec 2) ++ (sp.code : BitVec 2) : BitVec 6) }
  | .aminLit g f sc cl sp ord d a lit => some { op := 0x35, len := 2, g := g.p, gn := g.neg, fmt := f.code, sc := sc.code, cl := cl, d := d, a := a, lit := lit, fn := 0x05, c := (0#2 ++ (ord.code : BitVec 2) ++ (sp.code : BitVec 2) : BitVec 6) }
  | .amax g f sc cl sp ord d a b => some { op := 0x35, len := 1, g := g.p, gn := g.neg, fmt := f.code, sc := sc.code, cl := cl, d := d, a := a, b := b, fn := 0x06, c := (0#2 ++ (ord.code : BitVec 2) ++ (sp.code : BitVec 2) : BitVec 6) }
  | .amaxLit g f sc cl sp ord d a lit => some { op := 0x35, len := 2, g := g.p, gn := g.neg, fmt := f.code, sc := sc.code, cl := cl, d := d, a := a, lit := lit, fn := 0x06, c := (0#2 ++ (ord.code : BitVec 2) ++ (sp.code : BitVec 2) : BitVec 6) }
  | .axchg g f sc cl sp ord d a b => some { op := 0x35, len := 1, g := g.p, gn := g.neg, fmt := f.code, sc := sc.code, cl := cl, d := d, a := a, b := b, fn := 0x07, c := (0#2 ++ (ord.code : BitVec 2) ++ (sp.code : BitVec 2) : BitVec 6) }
  | .axchgLit g f sc cl sp ord d a lit => some { op := 0x35, len := 2, g := g.p, gn := g.neg, fmt := f.code, sc := sc.code, cl := cl, d := d, a := a, lit := lit, fn := 0x07, c := (0#2 ++ (ord.code : BitVec 2) ++ (sp.code : BitVec 2) : BitVec 6) }
  | .acas g f sc cl sp ord d a b => some { op := 0x35, len := 1, g := g.p, gn := g.neg, fmt := f.code, sc := sc.code, cl := cl, d := d, a := a, b := b, fn := 0x08, c := (0#2 ++ (ord.code : BitVec 2) ++ (sp.code : BitVec 2) : BitVec 6) }
  | .acasLit g f sc cl sp ord d a lit => some { op := 0x35, len := 2, g := g.p, gn := g.neg, fmt := f.code, sc := sc.code, cl := cl, d := d, a := a, lit := lit, fn := 0x08, c := (0#2 ++ (ord.code : BitVec 2) ++ (sp.code : BitVec 2) : BitVec 6) }
  | .vaor g f sc cl sp m d a b => some { op := 0x35, len := 1, g := g.p, gn := g.neg, fmt := f.code, sc := sc.code, cl := cl, d := BitVec.ofNat 6 d.val, a := a, b := b.code, fn := 0x09, c := ((m : BitVec 4) ++ (sp.code : BitVec 2) : BitVec 6) }
  | .vaadd g f sc cl sp m d a b => some { op := 0x35, len := 1, g := g.p, gn := g.neg, fmt := f.code, sc := sc.code, cl := cl, d := BitVec.ofNat 6 d.val, a := a, b := b.code, fn := 0x0a, c := ((m : BitVec 4) ++ (sp.code : BitVec 2) : BitVec 6) }
  | .vamax g f sc cl sp m d a b => some { op := 0x35, len := 1, g := g.p, gn := g.neg, fmt := f.code, sc := sc.code, cl := cl, d := BitVec.ofNat 6 d.val, a := a, b := b.code, fn := 0x0b, c := ((m : BitVec 4) ++ (sp.code : BitVec 2) : BitVec 6) }
  | .ownGive g sc sp frm d a b => some { op := 0x35, len := 1, g := g.p, gn := g.neg, sc := sc.code, d := d.code.setWidth 6, a := a, b := b, fn := 0x0c, c := (0#1 ++ (frm.code : BitVec 3) ++ (sp.code : BitVec 2) : BitVec 6) }
  | .ownTake g sp d a b => some { op := 0x35, len := 1, g := g.p, gn := g.neg, d := d.code.setWidth 6, a := a, b := b, fn := 0x0d, c := (0#4 ++ (sp.code : BitVec 2) : BitVec 6) }
  | .ownTest g sp d a b => some { op := 0x35, len := 1, g := g.p, gn := g.neg, d := d, a := a, b := b.setWidth 6, fn := 0x0e, c := (0#4 ++ (sp.code : BitVec 2) : BitVec 6) }
  | .bar g sc d a b => some { op := 0x35, len := 1, g := g.p, gn := g.neg, sc := sc.code, d := d, a := a.setWidth 6, b := b, fn := 0x0f }
  | .barLit g sc d a lit => some { op := 0x35, len := 2, g := g.p, gn := g.neg, sc := sc.code, d := d, a := a.setWidth 6, lit := lit, fn := 0x0f }
  | .sstep g sc d a b => some { op := 0x35, len := 1, g := g.p, gn := g.neg, sc := sc.code, d := d, a := a.setWidth 6, b := b, fn := 0x10 }
  | .sstepLit g sc d a lit => some { op := 0x35, len := 2, g := g.p, gn := g.neg, sc := sc.code, d := d, a := a.setWidth 6, lit := lit, fn := 0x10 }
  | .waitm g f sc cl sp cond park d a b => some { op := 0x35, len := 1, g := g.p, gn := g.neg, fmt := f.code, sc := sc.code, cl := cl, d := d, a := a, b := b, fn := 0x11, c := ((BitVec.ofBool park : BitVec 1) ++ (cond.code : BitVec 3) ++ (sp.code : BitVec 2) : BitVec 6) }
  | .waitmLit g f sc cl sp cond park d a lit => some { op := 0x35, len := 2, g := g.p, gn := g.neg, fmt := f.code, sc := sc.code, cl := cl, d := d, a := a, lit := lit, fn := 0x11, c := ((BitVec.ofBool park : BitVec 1) ++ (cond.code : BitVec 3) ++ (sp.code : BitVec 2) : BitVec 6) }
  | .signal g f sc cl sp add a b => some { op := 0x35, len := 1, g := g.p, gn := g.neg, fmt := f.code, sc := sc.code, cl := cl, a := a, b := b, fn := 0x12, c := (0#3 ++ (BitVec.ofBool add : BitVec 1) ++ (sp.code : BitVec 2) : BitVec 6) }
  | .signalLit g f sc cl sp add a lit => some { op := 0x35, len := 2, g := g.p, gn := g.neg, fmt := f.code, sc := sc.code, cl := cl, a := a, lit := lit, fn := 0x12, c := (0#3 ++ (BitVec.ofBool add : BitVec 1) ++ (sp.code : BitVec 2) : BitVec 6) }
  | .cswap g d => some { op := 0x36, len := 1, g := g.p, gn := g.neg, d := d }
  | .yield g => some { op := 0x36, len := 1, g := g.p, gn := g.neg, fn := 0x01 }
  | .park g wr wt wk d => some { op := 0x36, len := 1, g := g.p, gn := g.neg, d := d, fn := 0x02, c := (0#3 ++ (BitVec.ofBool wk : BitVec 1) ++ (BitVec.ofBool wt : BitVec 1) ++ (BitVec.ofBool wr : BitVec 1) : BitVec 6) }
  | .wakeat g inn b => some { op := 0x36, len := 1, g := g.p, gn := g.neg, b := b, fn := 0x03, c := (0#5 ++ (BitVec.ofBool inn : BitVec 1) : BitVec 6) }
  | .wakeatLit g inn lit => some { op := 0x36, len := 2, g := g.p, gn := g.neg, lit := lit, fn := 0x03, c := (0#5 ++ (BitVec.ofBool inn : BitVec 1) : BitVec 6) }
  | .ctxnew g d a b => some { op := 0x36, len := 1, g := g.p, gn := g.neg, d := d, a := a, b := b, fn := 0x04 }
  | .ctxnewLit g d a lit => some { op := 0x36, len := 2, g := g.p, gn := g.neg, d := d, a := a, lit := lit, fn := 0x04 }
  | .ctxfree g a => some { op := 0x36, len := 1, g := g.p, gn := g.neg, a := a, fn := 0x05 }
  | .ctxq g d a c => some { op := 0x36, len := 1, g := g.p, gn := g.neg, d := d, a := a, c := BitVec.ofNat 6 c.val, fn := 0x06 }
  | .ctxset g a b c => some { op := 0x36, len := 1, g := g.p, gn := g.neg, a := a, b := b, c := c.setWidth 6, fn := 0x07 }
  | .ctxsetLit g a lit c => some { op := 0x36, len := 2, g := g.p, gn := g.neg, a := a, lit := lit, c := c.setWidth 6, fn := 0x07 }
  | .launch g d a b => some { op := 0x36, len := 1, g := g.p, gn := g.neg, d := d, a := a, b := b, fn := 0x08 }
  | .launchLit g d a lit => some { op := 0x36, len := 2, g := g.p, gn := g.neg, d := d, a := a, lit := lit, fn := 0x08 }
  | .pgmap g d a b c => some { op := 0x37, len := 1, g := g.p, gn := g.neg, d := d, a := a, b := b, c := c }
  | .pgmapLit g d a lit c => some { op := 0x37, len := 2, g := g.p, gn := g.neg, d := d, a := a, lit := lit, c := c }
  | .pgunmap g d a => some { op := 0x37, len := 1, g := g.p, gn := g.neg, d := d, a := a, fn := 0x01 }
  | .pgunmapGrant g d a b => some { op := 0x37, len := 1, g := g.p, gn := g.neg, d := d, a := a, b := b, fn := 0x01, c := 0x01 }
  | .pgunmapGrantLit g d a lit => some { op := 0x37, len := 2, g := g.p, gn := g.neg, d := d, a := a, lit := lit, fn := 0x01, c := 0x01 }
  | .pgpin g d a => some { op := 0x37, len := 1, g := g.p, gn := g.neg, d := d, a := a, fn := 0x02 }
  | .pgunpin g d a => some { op := 0x37, len := 1, g := g.p, gn := g.neg, d := d, a := a, fn := 0x03 }
  | .pgmove g d a c => some { op := 0x37, len := 1, g := g.p, gn := g.neg, d := d, a := a, c := BitVec.ofNat 6 c.val, fn := 0x04 }
  | .pghint g d a c => some { op := 0x37, len := 1, g := g.p, gn := g.neg, d := d, a := a, c := BitVec.ofNat 6 c.val, fn := 0x05 }
  | .kvalloc g d a b => some { op := 0x37, len := 1, g := g.p, gn := g.neg, d := d, a := a, b := b, fn := 0x06 }
  | .kvallocLit g d a lit => some { op := 0x37, len := 2, g := g.p, gn := g.neg, d := d, a := a, lit := lit, fn := 0x06 }
  | .kvfree g unmap d a b => some { op := 0x37, len := 1, g := g.p, gn := g.neg, d := d, a := a, b := b, fn := 0x07, c := (0#5 ++ (BitVec.ofBool unmap : BitVec 1) : BitVec 6) }
  | .kvfreeLit g unmap d a lit => some { op := 0x37, len := 2, g := g.p, gn := g.neg, d := d, a := a, lit := lit, fn := 0x07, c := (0#5 ++ (BitVec.ofBool unmap : BitVec 1) : BitVec 6) }
  | .kvappend g cl d a => some { op := 0x37, len := 1, g := g.p, gn := g.neg, cl := cl, d := d, a := a, fn := 0x08 }
  | .kvinval g cl z d a b => some { op := 0x37, len := 1, g := g.p, gn := g.neg, cl := cl, d := d, a := a, b := b, fn := 0x09, c := (0#5 ++ (BitVec.ofBool z : BitVec 1) : BitVec 6) }
  | .kvinvalLit g cl z d a lit => some { op := 0x37, len := 2, g := g.p, gn := g.neg, cl := cl, d := d, a := a, lit := lit, fn := 0x09, c := (0#5 ++ (BitVec.ofBool z : BitVec 1) : BitVec 6) }
  | .jbegin g a b => some { op := 0x37, len := 1, g := g.p, gn := g.neg, a := a, b := b, fn := 0x0a }
  | .jbeginLit g a lit => some { op := 0x37, len := 2, g := g.p, gn := g.neg, a := a, lit := lit, fn := 0x0a }
  | .jcommit g d => some { op := 0x37, len := 1, g := g.p, gn := g.neg, d := d, fn := 0x0b }
  | .jrewind g d => some { op := 0x37, len := 1, g := g.p, gn := g.neg, d := d, fn := 0x0c }
  | .trap g b => some { op := 0x38, len := 1, g := g.p, gn := g.neg, b := b }
  | .trapLit g lit => some { op := 0x38, len := 2, g := g.p, gn := g.neg, lit := lit }
  | .eret g => some { op := 0x38, len := 1, g := g.p, gn := g.neg, fn := 0x01 }
  | .scrub g d a => some { op := 0x38, len := 1, g := g.p, gn := g.neg, d := d, a := a, fn := 0x02 }
  | .partcfg g k rd d a b => some { op := 0x38, len := 1, g := g.p, gn := g.neg, d := d, a := a, b := b, fn := 0x03, c := ((BitVec.ofBool rd : BitVec 1) ++ (k : BitVec 5) : BitVec 6) }
  | .partcfgLit g k rd d a lit => some { op := 0x38, len := 2, g := g.p, gn := g.neg, d := d, a := a, lit := lit, fn := 0x03, c := ((BitVec.ofBool rd : BitVec 1) ++ (k : BitVec 5) : BitVec 6) }
  | .qoscfg g rd d a b => some { op := 0x38, len := 1, g := g.p, gn := g.neg, d := d, a := a, b := b, fn := 0x04, c := (0#5 ++ (BitVec.ofBool rd : BitVec 1) : BitVec 6) }
  | .qoscfgLit g rd d a lit => some { op := 0x38, len := 2, g := g.p, gn := g.neg, d := d, a := a, lit := lit, fn := 0x04, c := (0#5 ++ (BitVec.ofBool rd : BitVec 1) : BitVec 6) }
  | .intpost g b => some { op := 0x38, len := 1, g := g.p, gn := g.neg, b := b, fn := 0x05 }
  | .intpostLit g lit => some { op := 0x38, len := 2, g := g.p, gn := g.neg, lit := lit, fn := 0x05 }
  | .resetdom g d a c => some { op := 0x38, len := 1, g := g.p, gn := g.neg, d := d, a := a, c := BitVec.ofNat 6 c.val, fn := 0x06 }
  | .tlbinv g a b => some { op := 0x38, len := 1, g := g.p, gn := g.neg, a := a, b := b, fn := 0x07 }
  | .tlbinvLit g a lit => some { op := 0x38, len := 2, g := g.p, gn := g.neg, a := a, lit := lit, fn := 0x07 }
  | .rdtime g wait d => some { op := 0x38, len := 1, g := g.p, gn := g.neg, d := d, fn := 0x08, c := (0#5 ++ (BitVec.ofBool wait : BitVec 1) : BitVec 6) }
  | .rdlat g clr d => some { op := 0x38, len := 1, g := g.p, gn := g.neg, d := d, fn := 0x09, c := (0#5 ++ (BitVec.ofBool clr : BitVec 1) : BitVec 6) }
  | .wfe g d b => some { op := 0x38, len := 1, g := g.p, gn := g.neg, d := d, b := b, fn := 0x0a }
  | .wfeLit g d lit => some { op := 0x38, len := 2, g := g.p, gn := g.neg, d := d, lit := lit, fn := 0x0a }
  | .haltc g => some { op := 0x38, len := 1, g := g.p, gn := g.neg, fn := 0x0b }
  | .recast g pers wait d a b => some { op := 0x39, len := 1, g := g.p, gn := g.neg, d := d, a := a, b := b, c := (0#3 ++ (BitVec.ofBool wait : BitVec 1) ++ (pers.code : BitVec 2) : BitVec 6) }
  | .recastLit g pers wait d a lit => some { op := 0x39, len := 2, g := g.p, gn := g.neg, d := d, a := a, lit := lit, c := (0#3 ++ (BitVec.ofBool wait : BitVec 1) ++ (pers.code : BitVec 2) : BitVec 6) }
  | .lnkstat g d a c => some { op := 0x39, len := 1, g := g.p, gn := g.neg, d := d, a := a, c := BitVec.ofNat 6 c.val, fn := 0x01 }
  | .ristat g d a c => some { op := 0x39, len := 1, g := g.p, gn := g.neg, d := d, a := a, c := BitVec.ofNat 6 c.val, fn := 0x02 }
  | .nsend g cl d a => some { op := 0x39, len := 1, g := g.p, gn := g.neg, cl := cl, d := d, a := a, fn := 0x03 }
  | .nfetch g cl d a => some { op := 0x39, len := 1, g := g.p, gn := g.neg, cl := cl, d := d, a := a, fn := 0x04 }
  | .ringstep g d a b => some { op := 0x39, len := 1, g := g.p, gn := g.neg, d := d, a := a, b := b, fn := 0x05 }
  | .ringstepLit g d a lit => some { op := 0x39, len := 2, g := g.p, gn := g.neg, d := d, a := a, lit := lit, fn := 0x05 }
  | .slcut g m d => some { op := 0x3a, len := 1, g := g.p, gn := g.neg, d := d, c := (0#5 ++ (BitVec.ofBool m : BitVec 1) : BitVec 6) }
  | .slwait g d c => some { op := 0x3a, len := 1, g := g.p, gn := g.neg, d := d, c := BitVec.ofNat 6 c.val, fn := 0x01 }
  | .slcommit g d b => some { op := 0x3a, len := 1, g := g.p, gn := g.neg, d := d, b := b, fn := 0x02 }
  | .slcommitLit g d lit => some { op := 0x3a, len := 2, g := g.p, gn := g.neg, d := d, lit := lit, fn := 0x02 }
  | .slrestore g d b => some { op := 0x3a, len := 1, g := g.p, gn := g.neg, d := d, b := b, fn := 0x03 }
  | .slrestoreLit g d lit => some { op := 0x3a, len := 2, g := g.p, gn := g.neg, d := d, lit := lit, fn := 0x03 }
  | .slstat g d c => some { op := 0x3a, len := 1, g := g.p, gn := g.neg, d := d, c := c.setWidth 6, fn := 0x04 }
  | .errwatch g d b c => some { op := 0x3a, len := 1, g := g.p, gn := g.neg, d := d, b := b, c := BitVec.ofNat 6 c.val, fn := 0x05 }
  | .errwatchLit g d lit c => some { op := 0x3a, len := 2, g := g.p, gn := g.neg, d := d, lit := lit, c := BitVec.ofNat 6 c.val, fn := 0x05 }
  | .memhint g crit d a => some { op := 0x3b, len := 1, g := g.p, gn := g.neg, d := d, a := a, c := (0#5 ++ (BitVec.ofBool crit : BitVec 1) : BitVec 6) }
  | .memstat g d a c => some { op := 0x3b, len := 1, g := g.p, gn := g.neg, d := d, a := a, c := BitVec.ofNat 6 c.val, fn := 0x01 }
  | .qtailWrite _ _ => none
  | .queueEnable _ _ _ => none
  | .queueDisable _ => none
  | .ovrClear _ => none
  | .rerrClear _ => none
  | .hostPartitionWrite _ _ _ => none
  | .podidWrite _ => none
  | .pcapWrite _ => none
  | .hostRegisterWrite _ _ => none
  | .hostMemAccess _ _ _ => none
  | .ualinkRequestIn _ _ _ _ => none
  | .remoteRmaIn _ _ _ _ _ => none
  | .timeMessage _ => none
  | .packageReset => none
  | .functionReady _ => none
  | .computeDieReady _ => none
  | .heartbeatTimeout _ => none
  | .diePowerOff _ => none
  | .boundaryDown _ => none
  | .islandReturn _ => none
  | .groupRequest _ _ => none
  | .groupDrainDone _ => none
  | .groupDrainTimeout _ => none
  | .groupRetargeted _ => none
  | .groupTrained _ => none
  | .groupTrainFailed _ => none
  | .taskStart _ => none
  | .graphStart _ => none
  | .createRecord _ => none
  | .freeRecord _ => none
  | .graphNodeStart _ _ => none
  | .taskComplete _ => none
  | .completionWordWrite _ => none
  | .place _ => none
  | .standbyLoad _ => none
  | .standbyLoadDone _ => none
  | .sliceEnd _ => none
  | .preempt _ => none
  | .swapOut _ => none
  | .swapOutDone _ => none
  | .wakeTimeReached _ => none
  | .moveStart _ => none
  | .moveComplete _ _ => none
  | .demote _ _ _ => none
  | .wakeRecallTrigger _ => none
  | .hotPagePromote _ _ => none
  | .hotWindowExpire _ => none
  | .compact _ _ => none
  | .streamFetch _ _ => none
  | .streamWrite _ _ => none
  | .waitmRecheck _ => none
  | .waitmParkTimeout _ => none
  | .wfeWake _ => none
  | .ringstepTimeout _ => none
  | .refreshDue _ _ _ _ => none
  | .refreshEnd _ _ _ => none
  | .paybackStart _ _ _ => none
  | .allbankStart _ _ => none
  | .allbankEnd _ _ => none
  | .criticalTempAssert _ => none
  | .selfrefEnter _ => none
  | .criticalTempDeassert _ => none
  | .selfrefExitStart _ => none
  | .exitComplete _ => none
  | .errorCorrected _ _ _ => none
  | .watchWindowExpire => none
  | .cutStart => none
  | .stopTimeout _ => none
  | .stopDone => none
  | .copyDone => none
  | .drainDone => none
  | .cutFailure _ => none
  | .restoreDone => none
  | .boundaryUp _ => none
  | .recordAccept _ => none
  | .restoreFailure => none
  | .perBankRefreshStart _ _ _ => none
  | .podBarrierArrival _ _ => none
  | .illegalEncoding => none
  | .fetchFault => none

/-- The parcels of an instruction (R30, R31, R39); an event row has no encoding. -/
def encodeParcels (i : Instr) : Option (List Parcel) :=
  match i with
  | .rep step mask cnt => some [(0#15 ++ step ++ mask ++ cnt ++ 0#1 ++ 3#2 : BitVec 32)]
  | _ => (rawOf i).map Raw.parcels

/-- The bytes of an instruction, first parcel lowest (R5, R29); none for an event row. -/
def encode (i : Instr) : Option (List Byte) := (encodeParcels i).map (fun ps => ps.flatMap parcelBytes)

/-- Has the instruction an encoding? -/
def Instr.encoded (i : Instr) : Bool := (encodeParcels i).isSome

/-- The length in bytes of an encoded instruction (R29); 0 for an event row. -/
def Instr.bytes (i : Instr) : Nat := match encode i with | some bs => bs.length | none => 0

end Sys2Proof
end

