-- ==== Sys2Proof/Machine/State.lean ====
section
/-!
DEFINITION. The state of the package, as plain data: everything the manual gives the machine. INVENTORY.md lists each
piece with its rule and reset value. One core has the turn and stands in `core`; the others stand in `others`, a core
that is not listed being as package reset left it.
-/

namespace Sys2Proof.Machine

open Sys2Proof

/-- Byte storage: addresses strictly rising, no entry equal to what an unlisted address reads as (zero, DESIGN CHOICE, log 3). -/
abbrev Memory := List Host.Cell

/-- Why the machine stops. -/
inductive Fault where
  /-- An access to a physical address that no memory tier of R16 answers; raised by the memory operations when a page
  frame lies outside them, which the checks of R339 and R317 rule out. Safe: the machine stops where the hardware has no
  behaviour to follow. -/
  | noSuchAddress (pa : Nat)
deriving DecidableEq, Repr

/-- Why an instruction has no meaning in the model. -/
inductive Refusal where
  /-- The instruction has no meaning yet. Safe: nothing is claimed of it. -/
  | notModelled (mnemonic : String)
deriving DecidableEq, Repr

/-- A trapping fault: the fields of R354, R357 and R358 that it fills. `island` is the island that answered "endpoint absent" (R391) and has
counted it, where the request was lost on its way. -/
structure Exc where
  code : Nat
  faddr : Word := 0
  info : Word := 0
  unit : Nat := 0
  reason : Nat := 0
  empty : Bool := false
  slotn : Nat := 0
  island : Option Nat := none
deriving DecidableEq, Repr

/-- What may hold a context in place (R290, R313, R427): a router island, a stack, a compute die, a restore. -/
inductive HoldSrc where
  | island (d : Nat) | stack (s : Nat) | die (d : Nat) | restore
deriving DecidableEq, Repr

/-- Where an access goes: package memory, a pod address through the window of a group, the register space, or nowhere (a posted
write whose endpoint is absent, R390, on a die or through a group, or which the island that a lost path led through has counted, R391). -/
inductive Loc where
  | mem (pa : Nat) | pod (g addr : Nat) | reg (off : Nat) | absent (d : Nat) | poison (g : Nat) | lost
deriving DecidableEq, Repr

/-- Where a request of the program to a UALink group stands (R394, R390): in flight on a path, by its intermediate island where
the path has one (R12, R391), held at the island with the path that it took, answered "endpoint absent" by the group's island or, lost on
its way, by the island `at_`, or aborted by a drain. -/
inductive LinkReq where
  | flight (read : Bool) (via : Option Nat) | held (via : Option Nat) | absent (at_ : Option Nat) | aborted
deriving DecidableEq, Repr

/-- How a fault ends an instruction (R350): a trap, a park on a page, or a hold of the context (R313, R427), which says whether a read or atomic
of the context waits (R422). `link` and `bank` are no faults: the instruction waits for a request to a UALink group (R394), or for the refresh
that occupies the bank of physical address `pa`, at which it has a read or atomic (R420, R431). `pop` is the fault that the fetch of a stream's
entry raised at position `n`, met by the instruction that would pop the entry (R147). -/
inductive Stop where
  | trap (e : Exc)
  | park (va : Nat)
  | hold (h : HoldSrc) (read : Bool)
  | link (g va : Nat) (q : LinkReq)
  | bank (pa : Nat)
  | pop (q : BitVec 3) (n : Nat) (e : Stop)
deriving DecidableEq, Repr

/-- The state of a stream (R156, DIR). -/
inductive StreamDir where
  | closed | read | write | gather
deriving DecidableEq, Repr

/-- The stream of one operand queue (R145, R155, R156): positions count elements. `held` is the fault held back against
the entry at the speculative position (FLT, R147); as a `pop` it has been raised. -/
structure Stream where
  dir : StreamDir
  sh : ShReg
  ish : ShReg
  cl : BitVec 4
  n : Nat
  com : Nat
  spec : Nat
  dist : BitVec 32
  held : Option Stop
deriving DecidableEq, Repr

/-- One entry of an operand queue (R68): its 512 bytes, the elements it stands for, and for a write stream what it will write,
each part of an element as (place, bits written of each byte, bytes) (R148), and the lines of KV pages for which the journal
holds record space (R336). -/
structure QEntry where
  data : Vec
  count : Nat
  writes : List (Loc × Byte × List Byte)
  lines : List Nat
deriving DecidableEq, Repr

/-- The context image of R74. Register space bytes that are not listed read as zero (R75). `scq` is the scale queue,
oldest first, of at most four entries (R159), and `late` holds the entries of SCLDs that are outstanding behind a full one (R160,
log 31). `held` keeps the stream records and the scale entries that a trap left in the AU (R359). -/
structure Image where
  rs : Memory
  s : Vector Word 64
  p : BitVec 8
  m : Vector (BitVec 1024) 16
  sh : Vector (BitVec 512) 16
  status : Word
  viewV : Word
  viewT : Word
  viewAcc : Word
  seed : Word
  ctr : Word
  pc : Word
  q : Vector Stream 8
  scq : List (BitVec 256)
  late : List (BitVec 256)
  held : Option (Vector Stream 8 × List (BitVec 256))
deriving DecidableEq, Repr

/-- The state of a weight slot (R227, R234). -/
inductive SlotState where
  | invalid | loading | valid
deriving DecidableEq, Repr

/-- A slot record of the matrix record (R234). -/
structure SlotRec where
  st : SlotState
  ea : Word
  t : BitVec 57
  ts : BitVec 2
  fmt : BitVec 6
  c : BitVec 6
  cl : BitVec 4
deriving DecidableEq, Repr

/-- The matrix record of R234: MCW, the table pointer, the WSTAT and MSTAT counters and the slot records. -/
structure MatrixRec where
  mcw : Word
  tv : Bool
  ts : BitVec 2
  t : BitVec 57
  late : Word
  read : Word
  instrs : Word
  waitA : Word
  waitS : Word
  busy : Word
  slots : Vector SlotRec 16
deriving DecidableEq, Repr

/-- A barrier arrival that a context carries (R277): the channel's domain, its number and the phase it arrived in. `out` is
the status that the round ended with, once a member on a core has seen its end. -/
structure BarRec where
  sc : Scope
  domain : Nat
  k : Nat
  phase : Bool
  out : Option Nat
deriving DecidableEq, Repr

/-- The operands of a WAITM that waits (R279): `len` is its length in bytes. -/
structure WaitmReq where
  f : Fmt
  sc : Scope
  sp : Space
  cond : WCond
  park : Bool
  d : SReg
  ea : Word
  b : Word
  len : Nat
deriving DecidableEq, Repr

/-- The instructions that act on a whole gang (R305); PARK with its mask. -/
inductive Collective where
  | cswap | yield | park (mask : BitVec 3)
deriving DecidableEq, Repr

/-- What the instruction at the pc waits for, once it has begun to wait. -/
inductive Wait where
  | gang (k : Collective) (d : SReg)                 -- CSWAP, YIELD, PARK: for the other members (R305)
  | waitm (since : Word) (due : Bool) (q : WaitmReq) -- WAITM, from its first read (R279)
  | wfe (d : SReg) (b : Word) (len : Nat)            -- WFE, with its length in bytes (R379)
  | ring (since tmo : Word) (flag : Nat) (epoch step : BitVec 32) (timedOut : Bool) -- RINGSTEP's flag wait (R400)
  | recast (group : Nat) (out : Option Nat)          -- RECAST.wait (R397), with its result once that is known
  | slate (gen : Word)                               -- SLWAIT, with the cut it waits for (R413)
  | restore                                          -- SLRESTORE, its restore begun (R414)
deriving DecidableEq, Repr

/-- What one gang member of a context holds apart from its core: image, matrix record, cr.lat (R422), the barrier record
(R277), whether it has performed END of the task (R131), the register and value that its next run writes first (R305),
the wait its instruction has begun, and the NS size its next bind applies (R256). -/
structure Member where
  img : Image
  mr : MatrixRec
  lat : Word
  bar : Option BarRec
  ended : Bool
  owed : Option (SReg × Word)
  wait : Option Wait
  ns : Nat
deriving DecidableEq, Repr

/-- A REP unit in progress (R40): the prefix's address, its fields and the parcels of the repeated instruction. -/
structure Rep where
  at_ : Word
  step : BitVec 4
  mask : BitVec 3
  cnt : BitVec 7
  body : List Parcel
deriving DecidableEq, Repr

/-- A valid line of the L1 data cache (R253), by its physical line number: its way; while it is dirty, the 128 bytes that
L2 holds for it; and, once the core's own engines have written the line at L2, the bytes that the L1 copy keeps (R248). -/
structure L1Line where
  line : Nat
  way : Nat
  below : Option (List Byte)
  stale : Option (List Byte)
deriving DecidableEq, Repr

/-- The standby slot of a core (R73, R303): the context placed there and whether its image is loaded. -/
structure Standby where
  handle : BitVec 32
  loaded : Bool
deriving DecidableEq, Repr

/-- One core (R13, R14, R72, R73). `slot` is the active physical slot, `held` names the contexts whose images stand in the
two slots (R303), and `l1` lists the valid lines, most recently used first. `link` is the group, the address and the standing
of a request that its instruction waits for (R394). `tlb` lists the pages whose translation the core's translation cache may hold
(R315), and `cpt` and `npt` are the current-page and next-page registers of the eight streams (R153); each names a page of the
core's partition by its address. `wtab` is the address behind the WTAB that no CB3 WLOAD has followed yet (R232). `scldAt` is the address of
the oldest SCLD that is outstanding behind a full scale queue, or of its REP prefix with the index, while only SCLDs have completed
since (R159, log 31). -/
structure Core where
  id : BitVec 10
  part : BitVec 6
  slot : Bool
  handle : Option (BitVec 32)
  gidx : BitVec 8
  gang : BitVec 3
  m : Member
  frec : Word
  wbuf : Vector (BitVec 34816) 16
  wfail : Vector (Option Stop) 16
  queues : Vector (List QEntry) 8
  nsSize : Nat
  nsOwner : List (Nat × Owner)
  l1 : List L1Line
  rep : Option Rep
  standby : Option Standby
  held : Vector (Option (BitVec 32)) 2
  link : Option (Nat × Nat × LinkReq)
  tlb : List Nat
  cpt : Vector (Option Nat) 8
  npt : Vector (Option Nat) 8
  wtab : Option Word
  scldAt : Option (Word × BitVec 7)
deriving DecidableEq, Repr

/-- The six context states (R21). -/
inductive CtxState where
  | free | ready | running | parked | swapped | frozen
deriving DecidableEq, Repr

/-- Park causes (R293, R309). -/
inductive Cause where
  | none | idle | park | fault | waitm
deriving DecidableEq, Repr

/-- Where a context's image is (R289). -/
inductive ImgLoc where
  | slots | vault | hbm
deriving DecidableEq, Repr

/-- A launch record (R297) as accepted: its eight dwords. -/
structure Launch where
  w0 : Word
  addr : Word
  handle : Word
  arg : Word
  compl : Word
  rsv : Word
  pred : Word
  tag : Word
deriving DecidableEq, Repr

/-- The task in progress of a context (R299): its queue, record, and graph node when it is one. -/
structure Task where
  queue : Nat
  part : BitVec 6
  compl : Word
  irq : Bool
  tag : Word
  seqno : Nat
  node : Option (Nat × Nat)
deriving DecidableEq, Repr

/-- What kernel entry will set (R77, R298): the entry address, views, shape images, argument and NS size. -/
structure KernelEntry where
  entry : Word
  viewV : Word
  viewT : Word
  viewAcc : Word
  shapes : List (ShReg × BitVec 512)
  arg : Word
  ns : Nat
deriving DecidableEq, Repr

/-- An open retake journal (R334 to R336): its buffer, the records' offsets and types, newest first, the lines captured, and
those for which accepted stream entries hold record space. -/
structure Journal where
  buf : Nat
  size : Nat
  used : Nat
  recs : List (Nat × Nat)
  lines : List Nat
  reserved : List Nat
deriving DecidableEq, Repr

/-- A word that a parked WAITM watches (R279): a virtual address of its partition, or the physical address of a scratchpad
word, and the parking core. -/
structure Watch where
  sp : Space
  addr : Nat
  core : BitVec 10
deriving DecidableEq, Repr

/-- A context entry of a Steward (R289, R309). `imgDie` is the die whose slots or vault hold its image, when `loc` says they do, and
`imgAt` is where in HBM4E the image lies or a swap-out takes it (R74, log 16).
For a Ready context `eff` is the number with which it joined its list at `joinedAt` (R302). `stalled` lists the stacks at which a read
or atomic of it is held (R422, R427). `paths` are the paths to which the transfer of its image under way is committed, and `broken` says
that one of them, or an end, was lost (R12, R391). -/
structure Ctx where
  edie : BitVec 2
  index : BitVec 14
  gen : BitVec 16
  part : BitVec 6
  st : CtxState
  ret : CtxState
  holds : List HoldSrc
  cause : Cause
  mask : BitVec 3
  kp : Bool
  prio : BitVec 3
  eff : BitVec 3
  wake : Word
  rundie : BitVec 2
  gang : BitVec 3
  runtime : Word
  readyAt : Word
  joinedAt : Word
  placedAt : Word
  parkedAt : Word
  allowance : Int
  task : Option Task
  seed : Word
  fresh : Bool
  entry : Option KernelEntry
  members : List Member
  loc : ImgLoc
  imgDie : BitVec 2
  moving : Bool
  pendReady : Bool
  base : BitVec 10
  imgAt : Option Nat
  faultVa : Option Nat
  resides : List Nat
  watch : List Watch
  journal : Option Journal
  stalled : List Nat
  paths : List (Nat × Nat × Option Nat)
  broken : Bool
deriving DecidableEq, Repr

/-- Page states (R318). -/
inductive PageState where
  | empty | resident | out | moving
deriving DecidableEq, Repr

/-- Residency tiers (R317). -/
inductive Tier where
  | vault | hbm | pool
deriving DecidableEq, Repr

/-- What an unmap or a KVFREE leaves to be done when a page's move completes (R318, R340, R345). -/
inductive Gone where
  | none | remove | empty
deriving DecidableEq, Repr

/-- A page of the directory (R312, R318). `tier` is where it is, the tier that a move in flight leaves, and `frame` its place
there: a physical address, the address of its slab (R328), or its place in the pool of group `group`. `cells` holds its bytes
while cores cannot address them (R319). `dest` and `toFrame` are where a move in flight takes it. `demand` marks a DEMAND page
not yet given a frame (R339), `cls` its slab class (R328), `last` its latest access (R321), `heat` its count of L2 misses
(R325), `hot` says that the count was acted on in this window, and `wakeQ` the WAKE that its latest wake-driven recall was queued for (R322). -/
structure Page where
  part : BitVec 6
  va : Nat
  size : Nat
  r : Bool
  w : Bool
  x : Bool
  kv : Bool
  owner : BitVec 32
  tgtVault : Bool
  pin : Nat
  st : PageState
  tier : Tier
  dest : Tier
  frame : Nat
  toFrame : Nat
  group : Nat
  cells : Memory
  demand : Bool
  cls : Nat
  gone : Gone
  last : Word
  heat : Nat
  hot : Bool
  wakeQ : Option Word
deriving DecidableEq, Repr

/-- A KV region record (R326). -/
structure Region where
  part : BitVec 6
  base : Nat
  count : Nat
  owner : BitVec 32
  die : BitVec 2
deriving DecidableEq, Repr

/-- Why a residency engine moves a page (R320). -/
inductive MoveKind where
  | recall | move | demote | promote | compact
deriving DecidableEq, Repr

/-- A move request of a residency engine (R320): `dest` is where it takes the page, `started` says it is in flight. Its traffic
between the engine's die and the dies of its two ends keeps to `paths`, each with its intermediate island (R12); `broken` says that an
end or a path was lost since it began (R319, R391). `key` is the place of a demotion in the order of R321 when it was queued. -/
structure Move where
  die : BitVec 2
  part : BitVec 6
  va : Nat
  level : Nat
  dest : Tier
  kind : MoveKind
  started : Bool
  paths : List (Nat × Nat × Option Nat)
  broken : Bool
  key : Nat
deriving DecidableEq, Repr

/-- A host work queue (R296). `cur` is the accepted record that has not started (R299), `seq` numbers its records. -/
structure HostQueue where
  base : Word
  part : BitVec 6
  rerr : Bool
  ovr : Bool
  log2n : BitVec 5
  en : Bool
  tail : BitVec 32
  head : BitVec 32
  cerr : BitVec 32
  cur : Option Launch
deriving DecidableEq, Repr

/-- A record that has started and not completed (R300), by queue and number. -/
structure Outstanding where
  queue : Nat
  seqno : Nat
deriving DecidableEq, Repr

/-- A completion word still to be written (R300); `node` is the graph node that it completes, with its status. -/
structure Completion where
  queue : Nat
  part : BitVec 6
  addr : Word
  word : Word
  irq : Bool
  seqno : Option Nat
  node : Option (Nat × Nat × Nat)
deriving DecidableEq, Repr

/-- The state of a graph node (R301): a completed one with its status and when it completed. -/
inductive NodeState where
  | pending | running | done (status : Nat) (time : Word)
deriving DecidableEq, Repr

/-- A running graph instance (R301): its snapshot, when it started and the state of each node. -/
structure Graph where
  id : Nat
  start : Word
  queue : Nat
  part : BitVec 6
  compl : Word
  irq : Bool
  seqno : Nat
  nodes : List (Launch × NodeState)
deriving DecidableEq, Repr

/-- The state of a compute die as its island tracks it (R389). -/
inductive DieState where
  | up | hung | resetting | off
deriving DecidableEq, Repr

/-- A compute die: its state, the counters of PGHINT k = 5 (R343) and the start of its hot-page window (R325). -/
structure Die where
  st : DieState
  window : Word
  counters : Vector Word 7
deriving DecidableEq, Repr

/-- A router island and the RISTAT counters 1 to 3 (R398). -/
structure Island where
  up : Bool
  absent : Word
  transit : Word
  dirReqs : Word
deriving DecidableEq, Repr

/-- Group states (R394). -/
inductive GroupState where
  | down | active | drain | retarget | train | failed
deriving DecidableEq, Repr

/-- A window (R385, R393). -/
structure Window where
  lbase : Nat
  part : BitVec 6
  size : Nat
  r : Bool
  w : Bool
  rbase : Nat
deriving DecidableEq, Repr

/-- A personality group (R24, R394, R398): `act` says that its window is one that accesses meet (R385, R393): installed, and no reset,
loss or failure since. `next` is the personality and window RECAST installs, `tmo` its timeout. `ue` holds the
owning partition and the UET fabric endpoint number of a UE group (R393). -/
structure Group where
  pers : Pers
  st : GroupState
  act : Bool
  win : Option Window
  ue : Option (BitVec 6 × BitVec 32)
  next : Pers
  nextWin : Option Window
  nextUe : Option (BitVec 6 × BitVec 32)
  tmo : Word
  since : Word
  counters : Vector Word 5
deriving DecidableEq, Repr

/-- A barrier channel (R275): its domain, number, COUNT, ARRIVED and PHASE; one that is not listed holds zeros. -/
structure Channel where
  sc : Scope
  domain : Nat
  k : Nat
  count : Nat
  arrived : Nat
  phase : Bool
deriving DecidableEq, Repr

/-- A partition's fields, by k (R362). -/
structure Partition where
  f : Vector Word 19
deriving DecidableEq, Repr

/-- A bank's refresh (R419, R420): running since a core cycle, or waiting for the access in progress there; `queued`
refreshes wait behind it. `held` lists the contexts with a read or atomic that waits at the bank behind it, each from how many cycles after
its start (R420, R422). -/
structure BankRef where
  bank : Nat
  payback : Bool
  queued : Nat
  waiting : Bool
  since : Nat
  held : List (BitVec 32 × Nat)
deriving DecidableEq, Repr

/-- The refresh state of a pseudo-channel (R419 to R421, R425): `next` numbers the refresh that comes due next and `owed`
lists the postponed banks; its length is D. An all-bank refresh is forced by `allbank` and runs since `abSince` when `allbankOn`, with
`abHeld` as in BankRef. -/
structure PseudoChannel where
  stack : Nat
  pc : Nat
  next : Nat
  owed : List Nat
  allbank : Bool
  allbankOn : Bool
  abSince : Nat
  abHeld : List (BitVec 32 × Nat)
  running : List BankRef
  performed : Word
  postponed : Word
  forced : Word
deriving DecidableEq, Repr

/-- Where a stack stands with self-refresh (R421, R426). -/
inductive SelfRef where
  | normal | entering | held | leaving
deriving DecidableEq, Repr

/-- A memory stack and its controller (R416, R418, R419, R425, R426): `readyAt` is the core cycle in which the controller became
ready, `resume` the number of the refresh with which its rotations resumed after self-refresh (R421), and `mscHeld` the most lines
that the MSC can hold: those it received less those that hits removed (R418). `leftAt` is the cycle in which the controller began to
leave self-refresh (R426). -/
structure Stack where
  sr : SelfRef
  critical : Bool
  readyAt : Nat
  resume : Nat
  deassertedAt : Word
  mscHits : Word
  mscLines : Word
  mscHeld : Nat
  leftAt : Nat
deriving DecidableEq, Repr

/-- A bank group a partition marked latency-critical (R424). -/
structure Mark where
  part : BitVec 6
  stack : Nat
  pc : Nat
  group : Nat
deriving DecidableEq, Repr

/-- Slate engine states (R410). -/
inductive SlateState where
  | idle | stopping | copying | draining | drained | restoring
deriving DecidableEq, Repr

/-- A slab block (R328): its address, partition and class. -/
structure SlabBlock where
  pa : Nat
  part : BitVec 6
  cls : Nat
deriving DecidableEq, Repr

/-- The content of a generation (R405): the bytes of its HBM4E, vault and context areas by slot offset, and as data what the manual gives no
layout for: the Stewards' entries, pages, regions and ownership. -/
structure Snapshot where
  enroll : Word
  mem : Memory
  vaultOwner : List (Nat × Owner)
  ctxs : List Ctx
  pages : List Page
  regions : List Region
  blocks : List SlabBlock
  frames : List (Nat × BitVec 6)
deriving DecidableEq, Repr

/-- What a cut has read of its target's descriptor (R404): KIND, BASE and SIZE. -/
structure CutTarget where
  pod : Bool
  base : Word
  size : Nat
deriving DecidableEq, Repr

/-- What keeps a request from outside waiting (R408, R426, R394): a stack, the stop of a partition by a cut, a group that is recast. -/
inductive ReqHold where
  | stack (s : Nat) | cut (p : BitVec 6) | group (g : Nat)
deriving DecidableEq, Repr

/-- A request that waits: a peer's through a UALink or UE group (R386, R399), the host's (R384), whose `data` is what a write writes; or an
accepted write of the context `h`, or of a core on die `d` that has none, to a stack that does not serve (R426), `mask` selecting the bits
of each byte. -/
inductive OutReq where
  | ualink (g pa n : Nat) (data : Option (List Byte))
  | rma (g : Nat) (key : BitVec 32) (off n : Nat) (data : Option (List Byte))
  | host (pa n : Nat) (data : Option (List Byte))
  | posted (h : Option (BitVec 32)) (d pa : Nat) (mask : Byte) (bs : List Byte)
deriving DecidableEq, Repr

/-- The Slate engines' joint state (R402, R403, R406, R407, R410, R413). `outcomes` tells for each generation started whether it left COPYING and
whether it was committed. `slots` and `records` are the slots and the bytes of the commit records that cuts have written, each at its address in a
pool or in a pod (KIND, R404, R405), a slot with its size. `home` is the target and the slot size of the latest cut, and `tgt` and `z` the target
and the slot size as the cut or the restore in progress read them (R404, R407). `pendAt` and `startedAt` are when the requests for the cut that
waits and for the one in progress were made, and `cutAt` when that one started. `copied` lists the 2 MiB units that the staging copy took (R406),
or is `none` when it took all. A unit is dirty for slot k when bit k of `allDirty` or of its entry in `dirty` is set. `restoring` is the
generation being restored and `restored` the status of the last restore. -/
structure Slate where
  cfg : Vector Word 7
  counters : Vector Word 3
  winAt : Word
  st : SlateState
  cause : BitVec 4
  pend : Bool
  failed : Bool
  gen : Word
  lastGen : Word
  man : Bool
  bytes : Word
  ticks : Word
  startedAt : Word
  pendAt : Word
  cutAt : Word
  cutPtc : Word
  tgt : Option CutTarget
  z : Word
  outcomes : List (Word × Bool × Bool)
  staging : Option Snapshot
  copied : Option (List Nat)
  slots : List ((Bool × Nat × Nat) × Snapshot)
  records : List ((Bool × Nat) × List Byte)
  home : Option (Bool × Word × Word)
  allDirty : BitVec 2
  dirty : List (Nat × BitVec 2)
  restoring : Word
  restored : Option Nat
deriving DecidableEq, Repr

/-- The QoS arbiter of a shared resource (R365): the entry its pointer stands at and the partition granted last round robin. -/
structure Arbiter where
  ptr : Byte
  rrp : BitVec 6
deriving DecidableEq, Repr

/-- The whole package. `clock` counts quarters of a core cycle (R6), and `ptc` is the package time counter. `arbs` holds the arbiters of
the four residency engines and of the four Stewards (R365). `heldReqs` lists the requests from outside that wait, in order of arrival
(R408, R426). `bad` lists the 32-byte ECC units that hold an uncorrectable error,
with the store of each as R354 numbers them (R354, R417): memory by physical address, the register space by slot (log 59). `sent` lists
the pod bytes that this package wrote last, as far as it has seen: memory of other packages (R17, R135; log 20). -/
structure State where
  core : Core
  others : List Core
  turns : List (BitVec 10)
  events : List Instr
  fresh : Nat
  clock : Nat
  ptc : Word
  mem : Memory
  bad : List (Nat × Nat)
  sent : List (Nat × Byte)
  vaultOwner : List (Nat × Owner)
  frames : List (Nat × BitVec 6)
  blocks : List SlabBlock
  pages : List Page
  regions : List Region
  moves : List Move
  ctxs : List Ctx
  rr : List (BitVec 32)
  queues : List (Nat × HostQueue)
  outstanding : List Outstanding
  completions : List Completion
  graphs : List Graph
  seqno : Nat
  irqs : List Nat
  parts : Vector Partition 64
  qos : Vector Byte 256
  arbs : Vector Arbiter 8
  channels : List Channel
  dies : Vector Die 4
  islands : Vector Island 4
  bup : BitVec 4
  groups : Vector Group 16
  ready : Word
  podid : Word
  podv : Bool
  podSlow : Bool
  pcap : Word
  exports : List (Nat × (Word × Word × Word × Word))
  heldReqs : List (ReqHold × OutReq)
  hbmStacks : Vector Stack 8
  pcs : List PseudoChannel
  marks : List Mark
  slate : Slate
deriving DecidableEq, Repr

/-! Reset values. Package reset leaves every context Free, no partition owning a quad, and every function not ready
(R368, R428); a value the manual does not state is named in log 2. -/

/-- A closed stream: all fields zero (R75). -/
def Stream.closed : Stream :=
  { dir := .closed, sh := 0, ish := 0, cl := 0, n := 0, com := 0, spec := 0, dist := 0, held := none }

/-- The zero-filled image of R75, with the SRG seed it takes. -/
def Image.zeroFill (seed : Word) : Image :=
  { rs := [], s := Vector.replicate 64 0, p := 1, m := (Vector.replicate 16 0).set 0 (BitVec.allOnes 1024),
    sh := Vector.replicate 16 0, status := 0, viewV := 0, viewT := 0, viewAcc := 0, seed := seed, ctr := 0, pc := 0,
    q := Vector.replicate 8 Stream.closed, scq := [], late := [], held := none }

/-- An Invalid weight slot record (R234). -/
def SlotRec.invalid : SlotRec := { st := .invalid, ea := 0, t := 0, ts := 0, fmt := 0, c := 0, cl := 0 }

/-- The matrix record at first bind (R214, R233, R234). -/
def MatrixRec.zero : MatrixRec :=
  { mcw := 0, tv := false, ts := 0, t := 0, late := 0, read := 0, instrs := 0, waitA := 0, waitS := 0, busy := 0,
    slots := Vector.replicate 16 SlotRec.invalid }

/-- A gang member at first bind (R75, R422). -/
def Member.zeroFill (seed : Word) : Member :=
  { img := Image.zeroFill seed, mr := MatrixRec.zero, lat := 0, bar := none, ended := false, owed := none, wait := none, ns := 0 }

/-- A core as package reset leaves it: unbound, scrubbed (R369), in partition 0 (DESIGN CHOICE, log 2). -/
def Core.blank (id : BitVec 10) : Core :=
  { id := id, part := 0, slot := false, handle := none, gidx := 0, gang := 0, m := Member.zeroFill 0, frec := 0,
    wbuf := Vector.replicate 16 0, wfail := Vector.replicate 16 none, queues := Vector.replicate 8 [], nsSize := 0,
    nsOwner := [], l1 := [], rep := none, standby := none, held := Vector.replicate 2 none, link := none,
    tlb := [], cpt := Vector.replicate 8 none, npt := Vector.replicate 8 none, wtab := none, scldAt := none }

/-- The partition fields' reset values (R362). -/
def Partition.reset : Partition :=
  { f := #v[0, 0, 0, 0, 0, 1000000, 200000, 50000, 64, 8192, 0, 0, 0, 0, 0, 1, 0, 0, 0] }

/-- A compute die after package reset: not yet ready (R428), so its island tracks RESETTING; counters zero (R343). -/
def Die.reset : Die := { st := .resetting, window := 0, counters := Vector.replicate 7 0 }

/-- An island after package reset, not yet ready (R428); counters zero (R398). -/
def Island.reset : Island := { up := false, absent := 0, transit := 0, dirReqs := 0 }

/-- A group after package reset: DOWN, personality Off (R394). -/
def Group.reset : Group :=
  { pers := .off, st := .down, act := false, win := none, ue := none, next := .off, nextWin := none, nextUe := none, tmo := 0, since := 0,
    counters := Vector.replicate 5 0 }

/-- A stack after package reset, its controller not ready (R428). -/
def Stack.reset : Stack :=
  { sr := .normal, critical := false, readyAt := 0, resume := 0, deassertedAt := 0, mscHits := 0, mscLines := 0, mscHeld := 0, leftAt := 0 }

/-- The Slate engine after package reset: configuration zero, IDLE, every dirty bit set, no record (R402, R406, R410). -/
def Slate.reset : Slate :=
  { cfg := Vector.replicate 7 0, counters := Vector.replicate 3 0, winAt := 0, st := .idle, cause := 0, pend := false,
    failed := false, gen := 0, lastGen := 0, man := false, bytes := 0, ticks := 0, startedAt := 0, pendAt := 0, cutAt := 0, cutPtc := 0,
    tgt := none, z := 0, outcomes := [],
    staging := none, copied := none, slots := [], records := [], home := none,
    allDirty := 3, dirty := [], restoring := 0, restored := none }

/-- The machine right after package reset (R362, R368, R428): the PTC at 0, every context Free, nothing bound. -/
def State.reset : State :=
  { core := Core.blank 0, others := [], turns := [], events := [], fresh := 0, clock := 0, ptc := 0, mem := [], bad := [], sent := [], vaultOwner := [],
    frames := [], blocks := [], pages := [], regions := [], moves := [], ctxs := [], rr := [], queues := [],
    outstanding := [], completions := [], graphs := [], seqno := 0, irqs := [],
    parts := Vector.replicate 64 Partition.reset, qos := Vector.replicate 256 0, arbs := Vector.replicate 8 { ptr := 255, rrp := 63 }, channels := [],
    dies := Vector.replicate 4 Die.reset, islands := Vector.replicate 4 Island.reset, bup := 0,
    groups := Vector.replicate 16 Group.reset, ready := 0, podid := 0, podv := false, podSlow := false, pcap := 0,
    exports := [], heldReqs := [], hbmStacks := Vector.replicate 8 Stack.reset, pcs := [], marks := [], slate := Slate.reset }

end Sys2Proof.Machine
end

