-- ==== Sys2Proof/Machine/Bits.lean ====
section
/-!
DEFINITION. Bits, bytes, elements and byte storage: the little-endian byte order of R5, the element layout of R58, and the
two operations on byte storage (read a byte, replace a run of bytes) that every access is made of.
-/

namespace Sys2Proof.Machine

open Sys2Proof

/-- The signed value of a `w`-bit pattern (R78). -/
def sextNat (w n : Nat) : Int := if n % 2 ^ w < 2 ^ (w - 1) then (n % 2 ^ w : Nat) else (n % 2 ^ w : Nat) - (2 ^ w : Nat)

/-- The low `w` bits of an exact integer (R79). -/
def lowBits (w : Nat) (x : Int) : Nat := (x % (2 ^ w : Nat)).toNat

/-- The sign-extended literal of R33. -/
def sextLit (l : BitVec 32) : Word := l.signExtend 64
/-- The zero-extended literal. -/
def zextLit (l : BitVec 32) : Word := l.setWidth 64

/-- The little-endian bytes of a number, lowest address first (R5). -/
def bytesOfNat : Nat → Nat → List Byte
  | 0, _ => []
  | n + 1, v => BitVec.ofNat 8 v :: bytesOfNat n (v / 256)

/-- The number whose little-endian bytes these are (R5). -/
def natOfBytes : List Byte → Nat
  | [] => 0
  | b :: bs => b.toNat + 256 * natOfBytes bs

/-- Elements of width `w`, ascending, from a packed pattern (R58). -/
def unpackElems (w : Nat) : Nat → Nat → List Nat
  | 0, _ => []
  | n + 1, v => v % 2 ^ w :: unpackElems w n (v / 2 ^ w)

/-- The packed pattern of elements of width `w` (R58). -/
def packElems (w : Nat) : List Nat → Nat
  | [] => 0
  | x :: xs => x % 2 ^ w + 2 ^ w * packElems w xs

/-- The elements of a vector of a format of width `w` (R58, R172). -/
def vecElems (w : Nat) (v : Vec) : List Nat := unpackElems w (4096 / w) v.toNat

/-- The vector of elements of width `w` (R58). -/
def vecOfElems (w : Nat) (xs : List Nat) : Vec := BitVec.ofNat 4096 (packElems w xs)

/-- The vector that 512 bytes hold (R5). -/
def vecOfBytes (bs : List Byte) : Vec := BitVec.ofNat 4096 (natOfBytes bs)
/-- The 512 bytes of a vector (R5). -/
def bytesOfVec (v : Vec) : List Byte := bytesOfNat 512 v.toNat
/-- The word that eight bytes hold (R5). -/
def wordOfBytes (bs : List Byte) : Word := BitVec.ofNat 64 (natOfBytes bs)

/-- Does every mask bit of a list of bits read as the mask says (R64)? Bit i of a mask. -/
def maskBit (m : BitVec 1024) (i : Nat) : Bool := m.getLsbD i

/-- The mask whose low bits are the list, ascending, and whose other bits are zero (R64). -/
def maskOfBits (bs : List Bool) : BitVec 1024 := BitVec.ofNat 1024 (packElems 1 (bs.map (fun b => if b then 1 else 0)))

/-- The low `w` bits of an integer, sign- or zero-extended to 64 bits. -/
def extendTo (signed : Bool) (w : Nat) (e : Int) : Word :=
  if signed then BitVec.ofInt 64 (sextNat w (lowBits w e)) else BitVec.ofNat 64 (lowBits w e)

/-- Shifts and the rotation of R120. -/
inductive ShiftOp where
  | shl | shr | sra | rol
deriving DecidableEq, Repr

/-- A shift of a `w`-bit pattern by `n < w` places. -/
def shiftBits (op : ShiftOp) {w : Nat} (a : BitVec w) (n : Nat) : BitVec w :=
  match op with
  | .shl => a <<< n
  | .shr => a >>> n
  | .sra => a.sshiftRight n
  | .rol => a.rotateLeft n

/-- The bits of a pattern, bit 0 first. -/
def bitList {w : Nat} (a : BitVec w) : List Bool := (List.range w).map a.getLsbD

/-! Byte storage. -/

/-- The byte at an address; an unlisted address reads as zero (DESIGN CHOICE, log 3). -/
def Memory.read (m : Memory) (a : Nat) : Byte :=
  match m with
  | [] => 0
  | c :: cs => if c.1 = a then c.2 else Memory.read cs a

/-- The cells that a run of bytes from `a` lists: those that are not zero. -/
def freshCells (a : Nat) : List Byte → Memory
  | [] => []
  | b :: bs => if b = 0 then freshCells (a + 1) bs else (a, b) :: freshCells (a + 1) bs

/-- Replace the bytes from `a` on by a run of bytes. -/
def Memory.splice (m : Memory) (a : Nat) (bs : List Byte) : Memory :=
  m.filter (fun c => decide (c.1 < a)) ++ freshCells a bs ++ m.filter (fun c => decide (a + bs.length ≤ c.1))

/-- Write one byte. -/
def Memory.write (m : Memory) (a : Nat) (b : Byte) : Memory := m.splice a [b]

/-- Zero a run of `n` bytes. -/
def Memory.clear (m : Memory) (a n : Nat) : Memory := m.filter (fun c => decide (c.1 < a) || decide (a + n ≤ c.1))

/-- The cells of a run of `n` bytes from `a`, as offsets from `a`. -/
def Memory.window (m : Memory) (a n : Nat) : Memory :=
  (m.filter (fun c => decide (a ≤ c.1) && decide (c.1 < a + n))).map (fun c => (c.1 - a, c.2))

/-- The cells of a list that keep the canonical form from `lo` on: all of them where the list is in that form. -/
def Memory.rising (lo : Nat) : Memory → Memory
  | [] => []
  | c :: cs => if decide (lo ≤ c.1) && c.2 != 0 then c :: Memory.rising (c.1 + 1) cs else Memory.rising lo cs

/-- Place cells given as offsets below `n` at `a`, replacing what stood there. -/
def Memory.place (m : Memory) (a n : Nat) (cs : Memory) : Memory :=
  m.filter (fun c => decide (c.1 < a))
    ++ Memory.rising a ((cs.filter (fun c => decide (c.1 < n))).map (fun c => (a + c.1, c.2)))
    ++ m.filter (fun c => decide (a + n ≤ c.1))

/-- The `n` bytes from `a`. -/
def Memory.bytes (m : Memory) (a n : Nat) : List Byte :=
  let w := m.filter (fun c => decide (a ≤ c.1) && decide (c.1 < a + n))
  (List.range n).map (fun i => Memory.read w (a + i))

/-- The canonical form: addresses strictly rising, no listed byte zero. -/
def Memory.wf (m : Memory) : Bool := decide (m.Pairwise (fun c d => c.1 < d.1)) && m.all (fun c => c.2 != 0)

end Sys2Proof.Machine
end

