-- ==== Sys2Proof/Machine/Flags.lean ====
section
/-!
DEFINITION. Number formats, rounding, saturation, exception flags and the SRG generator (chapter 04). Finite values are
exact: a sign, a natural significand and a power of two.
-/

namespace Sys2Proof

/-! Formats. -/

/-- Exponent bits, fraction bits and bias of a floating-point format (R80). -/
structure FpSpec where
  eb : Nat
  mb : Nat
  bias : Nat
deriving DecidableEq, Repr

/-- The fields of R80; the entry for a format that is not floating point is not used. -/
def Fmt.fp (f : Fmt) : FpSpec :=
  match f with
  | .fp32 => ⟨8, 23, 127⟩
  | .bf16 => ⟨8, 7, 127⟩
  | .fp16 => ⟨5, 10, 15⟩
  | .e5m2 => ⟨5, 2, 15⟩
  | .e4m3 => ⟨4, 3, 7⟩
  | .e2m1 => ⟨2, 1, 1⟩
  | _ => ⟨8, 23, 127⟩

/-- Is an integer format signed (R78)? -/
def Fmt.signed : Fmt → Bool
  | .int4 | .int8 | .int16 | .int32 | .int64 => true
  | _ => false

/-- Is this an integer format (R78)? -/
def Fmt.integer : Fmt → Bool
  | .int4 | .uint4 | .int8 | .uint8 | .int16 | .uint16 | .int32 | .uint32 | .int64 | .l16 | .cb3 | .e8m0 | .ue4m3 => true
  | _ => false

/-- The largest finite pattern, sign 0 (R80). -/
def Fmt.maxFinite (f : Fmt) : Nat :=
  match f with
  | .fp32 => 0x7F7FFFFF | .bf16 => 0x7F7F | .fp16 => 0x7BFF | .e5m2 => 0x7B | .e4m3 => 0x7E | .e2m1 => 0x7
  | _ => 0

/-- The canonical NaN (R80, R82); E2M1 has none and takes +0 (R94). -/
def Fmt.canonNan (f : Fmt) : Nat :=
  match f with
  | .fp32 => 0x7FC00000 | .bf16 => 0x7FC0 | .fp16 => 0x7E00 | .e5m2 => 0x7E | .e4m3 => 0x7F | _ => 0

/-- The positive infinity pattern, where the format has one (R80). -/
def Fmt.infinity (f : Fmt) : Nat :=
  match f with
  | .fp32 => 0x7F800000 | .bf16 => 0x7F80 | .fp16 => 0x7C00 | .e5m2 => 0x7C | _ => 0

/-- A pattern with a sign bit put above it. -/
def Fmt.withSign (f : Fmt) (neg : Bool) (n : Nat) : Nat := if neg then n + 2 ^ (f.width - 1) else n

/-- The range of an integer format (R78). -/
def Fmt.intLo (f : Fmt) : Int := if f.signed then -(2 ^ (f.width - 1) : Nat) else 0
def Fmt.intHi (f : Fmt) : Int := if f.signed then (2 ^ (f.width - 1) : Nat) - 1 else (2 ^ f.width : Nat) - 1

end Sys2Proof

namespace Sys2Proof.Machine

open Sys2Proof

/-! The sticky flags of R71 as a six-bit word: bit 0 NV, 1 DZ, 2 OF, 3 UF, 4 NX, 5 SF, so that cr.status[7:2] holds it. -/

/-- Exception flags (R83). -/
abbrev Flags := BitVec 6
def flagNV : Flags := 0b000001
def flagDZ : Flags := 0b000010
def flagOF : Flags := 0b000100
def flagUF : Flags := 0b001000
def flagNX : Flags := 0b010000
def flagSF : Flags := 0b100000

/-! The SRG generator. -/

def srgK1 : Word := 0x9B1F4E6D2C85A3F7
def srgK2 : Word := 0xE5C37A19D40B6F23
def srgK3 : Word := 0x6F4AD2B813E9C57D

/-- The generator function of R90. -/
def srg (seed ctr : Word) (j : Nat) : Word :=
  let x := seed ^^^ ((ctr + 1) * srgK1)
  let x := x ^^^ (BitVec.ofNat 64 (j % 2 ^ 32) * srgK2)
  let x := x ^^^ (x >>> 31)
  let x := x * srgK3
  let x := x ^^^ (x >>> 29)
  let x := x * srgK1
  x ^^^ (x >>> 32)

/-- The 24-bit draw of a rounding (R90). -/
def srgDraw (seed ctr : Word) (j : Nat) : Nat := ((srg seed ctr j) >>> 40).toNat

/-- How an instruction rounds: RM, SAT and the generator's state at its place (R85, R91). -/
structure Rounding where
  rm : Rm
  sat : Bool
  seed : Word
  ctr : Word

/-- The fixed RNE rounding of a matrix chunk (R108): no draw, SAT as given. -/
def Rounding.rne (sat : Bool) : Rounding := { rm := .rne, sat := sat, seed := 0, ctr := 0 }

/-! Exact values. -/

/-- A floating-point value: NaN, an infinity, or exactly (-1)^neg * m * 2^e; a zero keeps its sign (R81). -/
inductive FVal where
  | nan
  | inf (neg : Bool)
  | fin (neg : Bool) (m : Nat) (e : Int)
deriving DecidableEq, Repr

/-- The exact value of an integer. -/
def FVal.ofInt (x : Int) : FVal := .fin (decide (x < 0)) x.natAbs 0

def FVal.isNan : FVal → Bool
  | .nan => true | _ => false
def FVal.isInf : FVal → Bool
  | .inf _ => true | _ => false
def FVal.isZero : FVal → Bool
  | .fin _ 0 _ => true | _ => false
def FVal.negative : FVal → Bool
  | .nan => false | .inf n => n | .fin n _ _ => n

/-- Negate; a NaN stays NaN. -/
def FVal.neg : FVal → FVal
  | .nan => .nan | .inf n => .inf (!n) | .fin n m e => .fin (!n) m e
/-- Absolute value; a NaN stays NaN. -/
def FVal.abs : FVal → FVal
  | .nan => .nan | .inf _ => .inf false | .fin _ m e => .fin false m e

/-- `m * 2^e` over the common exponent `q ≤ e`. -/
def alignMant (m : Nat) (e q : Int) : Nat := m * 2 ^ (e - q).toNat

/-- Compare two magnitudes `m * 2^e`. -/
def magCompare (m₁ : Nat) (e₁ : Int) (m₂ : Nat) (e₂ : Int) : Ordering :=
  let q := min e₁ e₂
  compare (alignMant m₁ e₁ q) (alignMant m₂ e₂ q)

/-- The signed integer over `2^q`. -/
def signedMant (n : Bool) (m : Nat) (e q : Int) : Int :=
  if n then -(alignMant m e q : Int) else alignMant m e q

/-- Compare two values neither of which is NaN, exactly; the two zeros are equal (R180). -/
def FVal.compare (a b : FVal) : Ordering :=
  match a, b with
  | .fin n₁ m₁ e₁, .fin n₂ m₂ e₂ =>
    let q := min e₁ e₂
    Ord.compare (signedMant n₁ m₁ e₁ q) (signedMant n₂ m₂ e₂ q)
  | .inf n₁, .inf n₂ => Ord.compare (if n₁ then (-1 : Int) else 1) (if n₂ then (-1 : Int) else 1)
  | .inf n, _ => if n then .lt else .gt
  | _, .inf n => if n then .gt else .lt
  | _, _ => .eq

/-- The exact sum. A sum of zero has the sign IEEE 754 gives it: of both zeros when they agree, otherwise plus, or minus
under RDN (R81). NV is set for infinities of opposite sign (R83). -/
def FVal.add (rm : Rm) (a b : FVal) : FVal × Flags :=
  match a, b with
  | .nan, _ => (.nan, 0)
  | _, .nan => (.nan, 0)
  | .inf n₁, .inf n₂ => if n₁ == n₂ then (.inf n₁, 0) else (.nan, flagNV)
  | .inf n, _ => (.inf n, 0)
  | _, .inf n => (.inf n, 0)
  | .fin n₁ m₁ e₁, .fin n₂ m₂ e₂ =>
    let q := min e₁ e₂
    let x := signedMant n₁ m₁ e₁ q + signedMant n₂ m₂ e₂ q
    if x = 0 then
      (.fin (if m₁ = 0 && m₂ = 0 && n₁ == n₂ then n₁ else rm == .rdn) 0 0, 0)
    else (.fin (decide (x < 0)) x.natAbs q, 0)

/-- The exact product; NV for zero times infinity (R83). -/
def FVal.mul (a b : FVal) : FVal × Flags :=
  match a, b with
  | .nan, _ => (.nan, 0)
  | _, .nan => (.nan, 0)
  | .inf n₁, .inf n₂ => (.inf (n₁ != n₂), 0)
  | .inf n₁, .fin n₂ m₂ _ => if m₂ = 0 then (.nan, flagNV) else (.inf (n₁ != n₂), 0)
  | .fin n₁ m₁ _, .inf n₂ => if m₁ = 0 then (.nan, flagNV) else (.inf (n₁ != n₂), 0)
  | .fin n₁ m₁ e₁, .fin n₂ m₂ e₂ => (.fin (n₁ != n₂) (m₁ * m₂) (e₁ + e₂), 0)

/-- The exact sum of a product and an addend (R88): a NaN operand gives NaN and sets nothing (R82), otherwise NV comes
from the product or from the sum (R177). -/
def FVal.mulAdd (rm : Rm) (x y d : FVal) : FVal × Flags :=
  if x.isNan || y.isNan || d.isNan then (.nan, 0)
  else
    let (p, f) := FVal.mul x y
    let (r, g) := FVal.add rm p d
    (r, f ||| g)

/-- The value of a floating-point pattern (R80, R81). -/
def fpDecode (f : Fmt) (n : Nat) : FVal :=
  let p := f.fp
  let neg := n / 2 ^ (f.width - 1) % 2 == 1
  let e := n / 2 ^ p.mb % 2 ^ p.eb
  let m := n % 2 ^ p.mb
  if f == .e4m3 && e = 15 && m = 7 then .nan
  else if f != .e4m3 && f != .e2m1 && e = 2 ^ p.eb - 1 then (if m = 0 then .inf neg else .nan)
  else if e = 0 then .fin neg m (1 - (p.bias : Int) - p.mb)
  else .fin neg (2 ^ p.mb + m) ((e : Int) - p.bias - p.mb)

/-- The exact value of an element of any format that has one: floating point, or an integer (R78, R81). -/
def valOf (f : Fmt) (n : Nat) : FVal :=
  if f.integer then
    (if f.signed then FVal.ofInt (sextNat f.width n) else FVal.ofInt (n % 2 ^ f.width : Nat))
  else fpDecode f n

/-- The integer an integer format's pattern stands for (R78). -/
def intOf (f : Fmt) (n : Nat) : Int := if f.signed then sextNat f.width n else (n % 2 ^ f.width : Nat)

/-! Rounding. -/

/-- Round the nonzero magnitude `m * 2^e` to a multiple of `2^q`: the multiple, and whether it is inexact. The directed
modes look at the sign; the stochastic mode uses draw `u` (R85, R93). -/
def roundMag (rm : Rm) (neg : Bool) (m : Nat) (e q : Int) (u : Nat) : Nat × Bool :=
  if q ≤ e then (m * 2 ^ (e - q).toNat, false)
  else
    let sh := (q - e).toNat
    let k := m / 2 ^ sh
    let r := m % 2 ^ sh
    if r = 0 then (k, false)
    else
      let up : Bool := match rm with
        | .rne => decide (2 ^ sh < 2 * r) || (decide (2 * r = 2 ^ sh) && k % 2 == 1)
        | .rtz => false
        | .rdn => neg
        | .rup => !neg
        | .sr => decide (2 ^ 24 ≤ r * 2 ^ 24 / 2 ^ sh + u)
      (if up then k + 1 else k, true)

/-- The floor of the binary logarithm of a nonzero magnitude `m * 2^e`. -/
def floorLog2 (m : Nat) (e : Int) : Int := (Nat.log2 m : Int) + e

/-- Encode the representable magnitude `k * 2^q` (R80, R81). -/
def fpEncode (f : Fmt) (neg : Bool) (k : Nat) (q : Int) : Nat :=
  let p := f.fp
  let (k, q) := if 2 ^ (p.mb + 1) ≤ k then (k / 2, q + 1) else (k, q)
  if k < 2 ^ p.mb then f.withSign neg k
  else f.withSign neg ((q + p.mb + p.bias).toNat * 2 ^ p.mb + (k - 2 ^ p.mb))

/-- The result of an overflow (R86). E4M3 writes the NaN of the sign for infinity, E2M1 writes ±6. -/
def overflowTo (f : Fmt) (neg : Bool) (rm : Rm) (sat : Bool) : Nat × Flags :=
  let largest := f.withSign neg f.maxFinite
  let infinite := match f with
    | .e4m3 => f.withSign neg 0x7F
    | .e2m1 => largest
    | _ => f.withSign neg f.infinity
  if sat then (largest, flagOF ||| flagNX ||| flagSF)
  else
    let toInf := match rm with
      | .rne | .sr => true
      | .rtz => false
      | .rdn => neg
      | .rup => !neg
    (if toInf then infinite else largest, flagOF ||| flagNX)

/-- What an infinity becomes in a format (R87, R94). -/
def infTo (f : Fmt) (neg : Bool) (sat : Bool) : Nat × Flags :=
  if sat then (f.withSign neg f.maxFinite, flagSF ||| flagNX)
  else match f with
    | .e4m3 => (f.withSign neg 0x7F, flagNV)
    | .e2m1 => (f.withSign neg f.maxFinite, flagOF ||| flagNX)
    | _ => (f.withSign neg f.infinity, 0)

/-- The exact value of the largest finite number, as `m * 2^e` (R80). -/
def maxFiniteMag (f : Fmt) : Nat × Int :=
  match fpDecode f f.maxFinite with
  | .fin _ m e => (m, e)
  | _ => (0, 0)

/-- `round` of R85 into a floating-point format, with the flags of R83: rounding index `j`. -/
def roundTo (f : Fmt) (ro : Rounding) (j : Nat) (x : FVal) : Nat × Flags :=
  match x with
  | .nan => if f == .e2m1 then (0, flagNV) else (f.canonNan, 0)
  | .inf neg => infTo f neg ro.sat
  | .fin neg m e =>
    if m = 0 then (f.withSign neg 0, 0)
    else
      let p := f.fp
      let (mm, me) := maxFiniteMag f
      let beyond := magCompare m e mm me == .gt
      if beyond && ro.rm == .sr then overflowTo f neg ro.rm ro.sat
      else
        let l := floorLog2 m e
        let minNorm : Int := 1 - (p.bias : Int)
        let q := max (l - p.mb) (minNorm - p.mb)
        let u := if ro.rm == .sr then srgDraw ro.seed ro.ctr j else 0
        let (k, inexact) := roundMag ro.rm neg m e q u
        if magCompare k q mm me == .gt then overflowTo f neg ro.rm ro.sat
        else (fpEncode f neg k q, if inexact then (if l < minNorm then flagNX ||| flagUF else flagNX) else 0)

/-- Narrow an exact integer to an integer format (R79): the low bits, or a clamp with SF under SAT. -/
def narrowInt (f : Fmt) (sat : Bool) (x : Int) : Nat × Flags :=
  if sat && decide (x < f.intLo) then (lowBits f.width f.intLo, flagSF)
  else if sat && decide (f.intHi < x) then (lowBits f.width f.intHi, flagSF)
  else (lowBits f.width x, 0)

/-- Floating point to an integer format (R95): rounded by RM, clamped whatever SAT is. -/
def fpToInt (f : Fmt) (ro : Rounding) (j : Nat) (x : FVal) : Nat × Flags :=
  match x with
  | .nan => (0, flagNV)
  | .inf neg => (lowBits f.width (if neg then f.intLo else f.intHi), flagNV)
  | .fin neg m e =>
    if m = 0 then (0, 0)
    else
      let u := if ro.rm == .sr then srgDraw ro.seed ro.ctr j else 0
      let (k, inexact) := roundMag ro.rm neg m e 0 u
      let v : Int := if neg then -(k : Int) else k
      if v < f.intLo then (lowBits f.width f.intLo, flagNV ||| flagNX)
      else if f.intHi < v then (lowBits f.width f.intHi, flagNV ||| flagNX)
      else (lowBits f.width v, if inexact then flagNX else 0)

/-- Convert an element of format `sf` to format `f` (R94 to R96). -/
def convertElem (f sf : Fmt) (ro : Rounding) (j : Nat) (n : Nat) : Nat × Flags :=
  if f.integer then
    (if sf.integer then narrowInt f ro.sat (intOf sf n) else fpToInt f ro j (fpDecode sf n))
  else roundTo f ro j (valOf sf n)

/-- The smaller of two values: any NaN gives NaN, and -0 is less than +0 (R107). -/
def fpMin (a b : FVal) : FVal :=
  if a.isNan || b.isNan then .nan
  else match a.compare b with
    | .lt => a
    | .gt => b
    | .eq => if b.negative then b else a
/-- The larger of two values (R107). -/
def fpMax (a b : FVal) : FVal :=
  if a.isNan || b.isNan then .nan
  else match a.compare b with
    | .gt => a
    | .lt => b
    | .eq => if b.negative then a else b

/-- Encode a value that the format represents exactly: NaN as the canonical one (R82). -/
def encodeExact (f : Fmt) (x : FVal) : Nat := (roundTo f (Rounding.rne false) 0 x).1

/-! Block scales and coded weights. -/

/-- The value of an E8M0 scale (R97). -/
def e8m0Val (b : Nat) : FVal := if b % 256 = 255 then .nan else .fin false 1 ((b % 256 : Nat) - 127)
/-- The value of a UE4M3 scale (R98). -/
def ue4m3Val (b : Nat) : FVal :=
  if 128 ≤ b % 256 || b % 128 = 127 then .nan else fpDecode .e4m3 (b % 128)
/-- The value of a scale byte: UE4M3 when `ue`, otherwise E8M0. -/
def scaleVal (ue : Bool) (b : Nat) : FVal := if ue then ue4m3Val b else e8m0Val b

/-- The element of an MX format before its scale: INT8 elements count in 2^-6 (R99). -/
def mxElem (f : Fmt) (n : Nat) : FVal :=
  if f == .int8 then (match FVal.ofInt (sextNat 8 n) with | .fin s m e => .fin s m (e - 6) | x => x)
  else fpDecode f n

/-- The exact value of an MX element under a scale, special scales included (R99). -/
def mxVal (f : Fmt) (scale : FVal) (n : Nat) : FVal :=
  match scale with
  | .nan => .nan
  | sc =>
    let x := mxElem f n
    if sc.isZero then (match x with | .fin s _ _ => .fin s 0 0 | _ => .nan)
    else match x with
      | .nan => .nan
      | .inf s => .inf s
      | y => (FVal.mul sc y).1

/-- The eight integer parts n0 to n7 of an L16 word (R102). -/
def l16Ints (w : Nat) : List Int :=
  let n (k : Nat) : Int := sextNat 2 (w / 2 ^ (2 * k))
  let first := (List.range 7).map n
  let s := first.foldl (· + ·) 0
  let sel := w / 2 ^ 14 % 2
  let n7 : Int := if s % 2 = 0 then (if sel = 0 then -2 else 0) else (if sel = 0 then -1 else 1)
  first ++ [n7]

/-- Twice coordinate `k` of the point of an L16 word (R102). -/
def l16Coord2 (w k : Nat) : Int := 2 * (l16Ints w).getD k 0 + (w / 2 ^ 15 % 2 : Nat)

/-- The exact value of an L16 element under its BF16 block scale: a scale that is infinite or NaN gives NaN, a zero scale
gives a zero of the product of the signs (R103). -/
def l16Val (scale : FVal) (w k : Nat) : FVal :=
  let c := l16Coord2 w k
  match scale with
  | .nan => .nan
  | .inf _ => .nan
  | .fin s m e => .fin (s != decide (c < 0)) (m * c.natAbs) (e - 1)

/-! The order of sums. -/

/-- One level of the reduction tree of R105: pairs combined, an absent member passing the other up. -/
def treeLevel {α : Type} (op : Nat → α → α → α × Flags) : Nat → List (Option α) → List (Option α) × Flags
  | _, [] => ([], 0)
  | _, [a] => ([a], 0)
  | k, a :: b :: rest =>
    let (more, fl) := treeLevel op (k + 1) rest
    match a, b with
    | none, y => (y :: more, fl)
    | x, none => (x :: more, fl)
    | some x, some y => let (z, f) := op k x y; (some z :: more, fl ||| f)

/-- The reduction tree of R105 over `2^fuel` leaves: `op l k` combines pair `k` at level `l`. -/
def tree {α : Type} (op : Nat → Nat → α → α → α × Flags) : Nat → Nat → List (Option α) → Option α × Flags
  | 0, _, xs => (xs.headD none, 0)
  | fuel + 1, l, xs =>
    let (ys, f) := treeLevel (op l) 0 xs
    let (r, g) := tree op fuel (l + 1) ys
    (r, f ||| g)

end Sys2Proof.Machine
end

