-- ==== Sys2Proof/Config.lean ====
section
/-!
DEFINITION. What an implementation fixes and the manual leaves open: free values, as opaque constants without a body.
Nothing in Lean can evaluate one or prove a value of it. Each is applied to a plain counter of State (`fresh`) or to the
operands it depends on.
-/

namespace Sys2Proof.Config

/-- A 64-bit value the manual does not state, one for each use (DESIGN CHOICE, log 1). -/
opaque freeWord : Nat → BitVec 64

/-- A byte the manual does not state, for each use and position: remote memory, a remote completion (DESIGN CHOICE, logs 1 and 20). -/
opaque freeByte : Nat → Nat → BitVec 8

/-- How many ticks the package time counter advances at a step (R6, R370; DESIGN CHOICE, log 5). -/
opaque stepTicks : Nat → Nat

/-- A number of cycles or bytes a counter advances by, where the counter counts time or traffic (DESIGN CHOICE, log 6). -/
opaque freeCount : Nat → BitVec 64

/-- Does a request the device chooses freely go one way (a placement choice, a boundary) rather than the other? (DESIGN CHOICE, log 1) -/
opaque freeBool : Nat → Bool

/-- Does the program thread, which may see either, see the older copy of a line at a step (R248)? The model's allowed outcomes (DESIGN CHOICE, log
35). -/
opaque keepsOld : Nat → Nat → Bool

/-- Has, at a step, another package written a pod byte since this package wrote it, as a read of it now sees (R135, R260; DESIGN CHOICE,
log 20)? -/
opaque podNewer : Nat → Nat → Bool

/-- The slab class, 0 to 3, that a KV page's contents compress to (R328): the same contents always give the same class,
and all-zero contents give class 0, which the model says itself (DESIGN CHOICE, log 24). -/
opaque slabClass : List (Nat × BitVec 8) → Fin 4

/-- The latency of the pool that a CXL group reaches, in ticks (R346; DESIGN CHOICE, log 25). -/
opaque poolLatency : Nat → Nat

/-- Does an access to a line that reaches L2 at a step miss there (R325; DESIGN CHOICE, log 25)? -/
opaque l2Miss : Nat → Nat → Bool

/-- The physical address at which the Steward puts the image of a swapped context, by its handle, where no page lies there (R74, R435;
DESIGN CHOICE, log 16). -/
opaque imageAt : Nat → Nat

/-- Does the translation cache of a core still hold, at a step, the translation of a page that the core has used (R315; DESIGN CHOICE,
log 48)? -/
opaque tlbHolds : Nat → Nat → Bool

/-- Does L2 or the MSC hold, at a step, the line of a physical address, so that an access to it does not reach its stack (R418, R426;
DESIGN CHOICE, log 18)? -/
opaque cacheHolds : Nat → Nat → Bool

end Sys2Proof.Config
end

