-- ==== Sys2Proof/Machine/Mem.lean ====
section
/-!
DEFINITION. Addresses: the package's physical layout, translation and its faults (R315), reachability between dies (R12),
tile owners (R267), and loads and stores through each space of R132. Faults carry unit 0; the wrapper of an instruction
puts its unit in.

Physical addresses: HBM4E is pa below 2^39 (R416). Where the manual gives a vault and NS no place among package physical
addresses, the model puts die d's vault at 2^40 + 2^28 d and core c's NS at 2^41 + 2^20 c (DESIGN CHOICE, log 4).
-/

namespace Sys2Proof.Machine

open Sys2Proof

def hbmTop : Nat := 2 ^ 39
def vaultBase (d : Nat) : Nat := 2 ^ 40 + 2 ^ 28 * d
def nsBase (c : Nat) : Nat := 2 ^ 41 + 2 ^ 20 * c
/-- The die's vault space in bytes (R16). -/
def vaultBytes : Nat := 0x10000000
/-- The register space of a slot in bytes (R55). -/
def regBytes : Nat := 131072

/-- The die of a core (R13). -/
def Core.die (c : Core) : Nat := (c.id.extractLsb' 8 2).toNat

/-- The die whose L2 or vault serves a physical address (R434). -/
def homeOfPa (pa : Nat) : Nat := if pa < hbmTop then pa / 2 ^ 36 / 2 else (pa - 2 ^ 40) / 2 ^ 28

/-- The XOR of the bit pairs of va[55:16] with va[56] (R313). -/
def homeFold (va : Nat) : Nat → Nat
  | 0 => va / 2 ^ 56 % 2
  | i + 1 => homeFold va i ^^^ (va / 2 ^ (2 * i + 16) % 4)

/-- The home die of a virtual address (R313). -/
def homeOfVa (va : Nat) : Nat := homeFold va 20 % 4

/-- Page sizes in bytes, by SIZE code (R312). -/
def pageBytes (size : Nat) : Nat :=
  match size with
  | 0 => 0x10000 | 1 => 0x200000 | 2 => 0x2000000 | _ => 0x20000000

def Page.bytes (p : Page) : Nat := pageBytes p.size
def Page.covers (p : Page) (part : BitVec 6) (va : Nat) : Bool := p.part == part && decide (p.va ≤ va) && decide (va < p.va + p.bytes)

/-- The page of a partition that maps an address. -/
def State.pageAt (s : State) (part : BitVec 6) (va : Nat) : Option Page := s.pages.find? (·.covers part va)

/-- Is router island `d` up? -/
def State.islandUp (s : State) (d : Nat) : Bool := (s.islands[d % 4]'(Nat.mod_lt _ (by decide))).up
/-- Is compute die `d` UP (R389)? -/
def State.dieUp (s : State) (d : Nat) : Bool := (s.dies[d % 4]'(Nat.mod_lt _ (by decide))).st == .up
/-- Is the boundary between die `d` and die `d + 1` up? -/
def State.boundaryUp (s : State) (d : Nat) : Bool := s.bup.getLsbD (d % 4)

/-- Is the path from die `d` to the opposite die through island `v` up (R12)? -/
def State.viaUp (s : State) (d v : Nat) : Bool :=
  let b (x y : Nat) : Bool := if y % 4 = (x + 1) % 4 then s.boundaryUp x else s.boundaryUp y
  s.islandUp v && b d v && b v (d + 2)

/-- The route that traffic from die `d` to die `e` commits to (R11, R12): `none`, no path is up; otherwise the intermediate island,
if it passes one. To the opposite die the path through die d + 1 is taken when it is up. -/
def State.route (s : State) (d e : Nat) : Option (Option Nat) :=
  if d = e then some none
  else if !(s.islandUp d && s.islandUp e) then none
  else if e = (d + 1) % 4 then (if s.boundaryUp d then some none else none)
  else if e = (d + 3) % 4 then (if s.boundaryUp e then some none else none)
  else if s.viaUp d ((d + 1) % 4) then some (some ((d + 1) % 4))
  else if s.viaUp d ((d + 3) % 4) then some (some ((d + 3) % 4))
  else none

/-- Can traffic leave die `d` and reach die `e` (R11, R12)? -/
def State.pathUp (s : State) (d e : Nat) : Bool := (s.route d e).isSome

/-- Does a route from die `d` to die `e`, by its intermediate island, cross the boundary between die `b` and die `b + 1`? -/
def crosses (d e : Nat) (via : Option Nat) (b : Nat) : Bool :=
  let on (x y : Nat) : Bool := (x % 4 == b % 4 && y % 4 == (b + 1) % 4) || (y % 4 == b % 4 && x % 4 == (b + 1) % 4)
  match via with
  | some v => on d v || on v e
  | none => on d e

/-- Kinds of access (R315, R354). -/
inductive Acc where
  | fetch | read | write | atomic
deriving DecidableEq, Repr

def Acc.info : Acc → Word
  | .fetch => 0 | .read => 1 | .write | .atomic => 2

/-- A UALink window of the partition that holds an address (R385), with its group: an active one, or one that is not active (yet). -/
def State.windowOf (s : State) (act : Bool) (part : BitVec 6) (va : Nat) : Option (Nat × Window) :=
  (List.range 16).findSome? (fun g =>
    let gr := s.groups[g % 16]'(Nat.mod_lt _ (by decide))
    match gr.win with
    | some w =>
      if gr.pers == .ual && gr.act == act && w.part == part && decide (w.lbase ≤ va)
          && decide (va < w.lbase + 0x20000000 * w.size) then some (g, w) else none
    | none => none)

/-- The UALink window that takes an address (R385). -/
def State.windowAt (s : State) (part : BitVec 6) (va : Nat) : Option (Nat × Window) := s.windowOf true part va

/-- The trap of a fault code with an address and INFO. -/
def trapAt (code : Nat) (faddr info : Word) : Stop := .trap { code := code, faddr := faddr, info := info }

/-! Banks of HBM4E (R416) and the refreshes that occupy them. -/

/-- The stack of a physical address of HBM4E. -/
def stackOf (pa : Nat) : Nat := pa / 2 ^ 36 % 8
/-- The pseudo-channel of a physical address. -/
def channelOf (pa : Nat) : Nat := pa % 2 ^ 36 / 256 % 96
/-- The bank of a physical address. -/
def bankOf (pa : Nat) : Nat := pa % 2 ^ 36 / 256 / 96 % 32

/-- The core cycle that the clock stands in (R6). -/
def State.cycle (s : State) : Nat := s.clock / 4

/-- The 256-byte granules of HBM4E that a run meets, in ascending order (R416). -/
def granulesOf (pa n : Nat) : List Nat :=
  ((List.range ((pa + n + 255) / 256 - pa / 256)).map (fun i => 256 * (pa / 256 + i))).filter (fun g => decide (g < hbmTop))

/-- Does a refresh keep a bank from new accesses in a cycle (R419, R420, R431): one that occupies it or waits for the access in progress
there, or a forced all-bank refresh, from when it falls due? -/
def PseudoChannel.keeps (x : PseudoChannel) (now bank : Nat) : Bool :=
  (x.allbank && (!x.allbankOn || decide (now < x.abSince + 438)))
    || x.running.any (fun r => r.bank == bank && (r.waiting || decide (now < r.since + 188)))

/-- The granule of a run at whose bank a read waits for a refresh: L2 and the MSC do not hold it (R420, R422; DESIGN CHOICE, log 18). -/
def State.bankHeld (s : State) (pa n : Nat) : Option Nat :=
  s.pcs.findSome? (fun x => if !x.allbank && x.running.isEmpty then none
    else (granulesOf pa n).find? (fun g => stackOf g == x.stack && channelOf g == x.pc && x.keeps s.cycle (bankOf g) && !Config.cacheHolds s.fresh g))

/-- A context has a read at a bank, from a cycle on: noted once. -/
def noteWaiting (h : BitVec 32) (from_ : Nat) (xs : List (BitVec 32 × Nat)) : List (BitVec 32 × Nat) :=
  if xs.any (fun x => x.1 == h) then xs else (h, from_) :: xs

/-- A read or atomic of a context comes to a bank that is kept from it, in a cycle (R420, R422, R431). -/
def PseudoChannel.wait (x : PseudoChannel) (h : BitVec 32) (now bank : Nat) : PseudoChannel :=
  { x with running := x.running.map (fun r => if r.bank = bank then { r with held := noteWaiting h (if r.waiting then 0 else now - r.since) r.held } else r),
           abHeld := if x.allbank then noteWaiting h (if x.allbankOn then now - x.abSince else 0) x.abHeld else x.abHeld }

/-- The context of the core whose turn it is waits with a read or atomic at the bank of a physical address. -/
def State.bankWait (s : State) (pa : Nat) : State :=
  match s.core.handle with
  | none => s
  | some h =>
    { s with pcs := s.pcs.map (fun x => if x.stack = stackOf pa ∧ x.pc = channelOf pa then x.wait h s.cycle (bankOf pa) else x) }

/-- Is the memory controller of a stack ready (R428)? -/
def State.controllerReady (s : State) (k : Nat) : Bool := s.ready.getLsbD (8 + k)

/-- Does the controller of a physical address's stack serve requests to its banks (R426, R428)? -/
def State.stackServes (s : State) (pa : Nat) : Bool :=
  let k := pa / 2 ^ 36 % 8
  (s.hbmStacks[k]'(Nat.mod_lt _ (by decide))).sr == .normal && s.controllerReady k

/-- The stack for which an accepted write to a physical run waits (R426). -/
def State.waitsAt (s : State) (pa n : Nat) : Option Nat :=
  s.heldReqs.findSome? (fun r => match r with
    | (.stack k, .posted _ _ a _ bs) => if a < pa + n ∧ pa < a + bs.length then some k else none
    | _ => none)

/-- Does an accepted write to a physical run wait for a stack? -/
def State.writeWaits (s : State) (pa n : Nat) : Bool := (s.waitsAt pa n).isSome

/-- The stack at which an accepted write of a context waits (R426). -/
def State.postedBy (s : State) (h : BitVec 32) : Option Nat :=
  s.heldReqs.findSome? (fun r => match r with
    | (.stack k, .posted (some x) _ _ _ _) => if x = h then some k else none
    | _ => none)

/-- Is a physical address kept from its users: its stack is under thermal hold, or its controller is not ready (R426, R428)? A line
that L2 or the MSC holds is served during a hold (DESIGN CHOICE, log 18), but for one with a write that waits. -/
def State.stackHolds (s : State) (pa : Nat) : Bool :=
  decide (pa < hbmTop) && !s.stackServes pa && !(s.controllerReady (pa / 2 ^ 36 % 8) && Config.cacheHolds s.fresh pa && !s.writeWaits (128 * (pa / 128)) 128)

/-- Reach a physical address from a die: its compute die must be UP and a path to it must be up, otherwise the access is
answered "endpoint absent" (R390); a stack under thermal hold holds the context (R426, R427). -/
def State.reach (s : State) (d : Nat) (acc : Acc) (addr : Word) (pa : Nat) : Except Stop Loc :=
  let h := homeOfPa pa
  if s.dieUp h && s.pathUp d h then
    (if s.stackHolds pa then .error (.hold (.stack (pa / 2 ^ 36 % 8)) (acc == .read || acc == .atomic)) else .ok (.mem pa))
  else match acc with
    | .write => .ok (.absent h)
    | _ => .error (trapAt 25 addr (BitVec.ofNat 64 h))

/-- Is the permission of an access granted? -/
def permits (acc : Acc) (r w x : Bool) : Bool :=
  match acc with
  | .fetch => x | .read => r | .write | .atomic => w

/-- "Endpoint absent" for an access through a group (R390, R394): a posted write is discarded. A request lost on its way was answered, and
counted, by the island `at_` (R391). -/
def linkAbsent (acc : Acc) (addr : Word) (g : Nat) (at_ : Option Nat := none) : Except Stop Loc :=
  match acc with
  | .write => .ok (if at_.isSome then .lost else .poison g)
  | _ => .error (.trap { code := 25, faddr := addr, info := BitVec.ofNat 64 (g / 4), island := at_ })

/-- The state of a group. -/
def State.groupSt (s : State) (g : Nat) : GroupState := (s.groups[g % 16]'(Nat.mod_lt _ (by decide))).st

/-- The place in a pod of an address of a window (R385): pod addresses have 58 bits (R17). -/
def Window.place (w : Window) (g va : Nat) : Loc := .pod g ((w.rbase + (va - w.lbase)) % 2 ^ 58)

/-- The die whose slice of the page directory is asked about an address (R313): of its home, or for a large page the first one from there
in ring order whose island is up. -/
def State.sliceDie (s : State) (part : BitVec 6) (va : Nat) : Option Nat :=
  let big := match s.pageAt part va with | some p => p.size != 0 | none => false
  let h := homeOfVa va
  if big then ((List.range 4).map (fun i => (h + i) % 4)).find? s.islandUp
  else if s.islandUp h then some h else none

/-- A request from die `d` to the page directory about an address (R313): with no slice to answer it the context is held; one that no
path leads to is "endpoint absent" (R12, R23; DEDUCED, log 94). -/
def State.askSlice (s : State) (part : BitVec 6) (d va : Nat) : Except Stop Unit :=
  match s.sliceDie part va with
  | none => .error (.hold (.island (homeOfVa va)) false)
  | some e => if s.pathUp d e then .ok () else .error (trapAt 25 (BitVec.ofNat 64 va) (BitVec.ofNat 64 e))

/-- The dies whose slices hold the entry of a page (R313): a large page has one in all four. -/
def entrySlices (size va : Nat) : List Nat := if size = 0 then [homeOfVa va] else List.range 4

/-- Can die `d` change the entry of a page in each slice that holds it (R12, R313)? -/
def State.slicesUp (s : State) (d size va : Nat) : Bool := (entrySlices size va).all (fun e => s.islandUp e && s.pathUp d e)

/-- A change of the entry of a page for an instruction: a slice that is down holds the context (R313), one that no path leads to is
"endpoint absent" (DEDUCED, log 94). -/
def State.entryChange (s : State) (size va : Nat) : Except Stop Unit :=
  match (entrySlices size va).find? (fun e => !s.islandUp e) with
  | some e => .error (.hold (.island e) false)
  | none => match (entrySlices size va).find? (fun e => !s.pathUp s.core.die e) with
    | some e => .error (trapAt 25 (BitVec.ofNat 64 va) (BitVec.ofNat 64 e))
    | none => .ok ()

/-- What becomes of an access from die `d` through the window of a group that is not active (R385, R394): it is held at the island while
the group is recast, and "endpoint absent" where the group is DOWN or FAILED. -/
def State.pastWindow (s : State) (d : Nat) (acc : Acc) (va g : Nat) : Except Stop Loc :=
  match s.groupSt g with
  | .drain | .retarget | .train => .error (.link g va (.held ((s.route d (g / 4)).getD none)))
  | _ => linkAbsent acc (BitVec.ofNat 64 va) g

/-- An access from die `d` to a die that no path leads to, or whose island is down (R12, R390). -/
def noPath (acc : Acc) (va d : Nat) : Except Stop Loc :=
  match acc with
  | .write => .ok (.absent d)
  | _ => .error (trapAt 25 (BitVec.ofNat 64 va) (BitVec.ofNat 64 d))

/-- Translate a virtual address of a partition for an access from die `d` (R313, R315, R385), which holds the translation already
when `known`. A window of a group that no path leads to is an absent endpoint (R12, R392). -/
def State.translateVia (s : State) (known : Bool) (part : BitVec 6) (d : Nat) (acc : Acc) (checkPerm : Bool) (va : Nat) : Except Stop Loc :=
  let a := BitVec.ofNat 64 va
  match s.windowAt part va with
  | some (g, w) =>
    if checkPerm && !permits acc w.r w.w false then .error (trapAt 9 a acc.info)
    else if !s.pathUp d (g / 4) then noPath acc va (g / 4)
    else if s.groupSt g != .active then .error (.link g va (.held ((s.route d (g / 4)).getD none)))
    else .ok (w.place g va)
  | none =>
    match (if known then .ok () else s.askSlice part d va), acc with
    | .error (.trap e), .write => .ok (.absent e.info.toNat)
    | .error st, _ => .error st
    | .ok _, _ => match s.pageAt part va with
      | none => match s.windowOf false part va with
        | some (g, _) => if s.pathUp d (g / 4) then s.pastWindow d acc va g else noPath acc va (g / 4)
        | none => .error (trapAt 8 a acc.info)
      | some p =>
        if p.st == .empty then .error (.trap { code := 8, faddr := a, info := acc.info, empty := true })
        else if checkPerm && !permits acc p.r p.w p.x then .error (trapAt 9 a acc.info)
        else if p.st != .resident then .error (.park va)
        else s.reach d acc a (p.frame + (va - p.va))

/-- The same with no translation held. -/
def State.translateFor (s : State) (part : BitVec 6) (d : Nat) (acc : Acc) (checkPerm : Bool) (va : Nat) : Except Stop Loc :=
  s.translateVia false part d acc checkPerm va

/-- Does the core whose turn it is hold the translation of an address: in a register of a stream (R153), or in its translation
cache, whose replacement the manual does not give (DESIGN CHOICE, log 48)? -/
def State.coreHolds (s : State) (va : Nat) : Bool :=
  match s.pageAt s.core.part va with
  | some p => (s.core.tlb.contains p.va && Config.tlbHolds s.fresh p.va) || s.core.cpt.any (· == some p.va) || s.core.npt.any (· == some p.va)
  | none => false

/-- A read or atomic of the program that a group serves may be in flight for some steps, committed to a path (R391, R394). -/
def State.sendLink (s : State) (acc : Acc) (va : Nat) (l : Loc) : Except Stop Loc :=
  match l, acc with
  | .pod _ _, .write => .ok l
  | .pod g _, _ =>
    if Config.freeBool s.fresh then .error (.link g va (.flight (acc != .atomic) ((s.route s.core.die (g / 4)).getD none))) else .ok l
  | _, _ => .ok l

/-- Translate for the context of the core whose turn it is. A request that waits for its group goes on where it stands (R394). -/
def State.translate (s : State) (acc : Acc) (va : Nat) : Except Stop Loc :=
  let go := do
    let l ← s.translateVia (s.coreHolds va) s.core.part s.core.die acc true va
    s.sendLink acc va l
  match s.core.link with
  | none => go
  | some (g, a, q) =>
    if a != va then go
    else match q with
      | .held via => match s.groupSt g with
        | .drain | .retarget | .train => .error (.link g va (.held via))
        | _ => go
      | .absent at_ => linkAbsent acc (BitVec.ofNat 64 va) g at_
      | .aborted => .error (trapAt 28 (BitVec.ofNat 64 va) (BitVec.ofNat 64 g))
      | .flight _ _ => match s.windowAt s.core.part va with
        | some (g, w) => .ok (w.place g va)
        | none => go

/-- Cut a run of bytes at 64 KiB boundaries, so that each part lies in one page or frame (R312). -/
def segments : Nat → Nat → Nat → List (Nat × Nat)
  | 0, _, _ => []
  | fuel + 1, a, n =>
    if n = 0 then [] else
    let k := min n (0x10000 - a % 0x10000)
    (a, k) :: segments fuel (a + k) (n - k)

/-- The parts of `[a, a + n)`. -/
def cut (a n : Nat) : List (Nat × Nat) := segments (n / 0x10000 + 2) a n

/-- The store of CAUSE's INFO for code 27 that a physical address lies in (R354): 1 NS, 2 vault, 4 HBM4E. An error in the copy
that L2 holds of an HBM4E line is of store 3. -/
def storeOf (pa : Nat) : Nat := if pa < hbmTop then 4 else if pa < nsBase 0 then 2 else 1

/-- Do the 32 bytes of unit `u` and a run of bytes share a byte? -/
def unitMeets (u pa n : Nat) : Bool := decide (0 < n) && decide (32 * u < pa + n) && decide (pa < 32 * u + 32)

/-- Data that an instruction consumes holds no uncorrectable error, otherwise the data-error fault with its store (R354, R417). -/
def State.sound (s : State) (addr : Nat) (pa n : Nat) : Except Stop Unit :=
  match s.bad.find? (fun u => u.1 != 0 && unitMeets u.2 pa n) with
  | some u => .error (trapAt 27 (BitVec.ofNat 64 addr) (BitVec.ofNat 64 u.1))
  | none => .ok ()

/-- The number, among the units of store 0, of the first unit of the register space that a core's active slot holds (log 59). -/
def Core.regUnit (c : Core) : Nat := (2 * c.id.toNat + c.slot.toNat) * (regBytes / 32)

/-- The same of a run of the register space: its errors are of store 0 (R354, R355). -/
def State.soundReg (s : State) (off n : Nat) : Except Stop Unit :=
  match s.bad.find? (fun u => u.1 == 0 && unitMeets u.2 (32 * s.core.regUnit + off) n) with
  | some _ => .error (trapAt 27 (BitVec.ofNat 64 off) 0)
  | none => .ok ()

/-- The same of a place that an access reads; a read or atomic at a bank that a refresh occupies waits there (R420). -/
def State.soundAt (s : State) (acc : Acc) (addr : Nat) (l : Loc) (n : Nat) : Except Stop Unit :=
  match l, acc with
  | .mem _, .write => .ok ()
  | .mem pa, .fetch => s.sound addr pa n
  | .mem pa, _ => match s.bankHeld pa n with
    | some g => .error (.bank g)
    | none => s.sound addr pa n
  | .reg off, .read => s.soundReg off n
  | _, _ => .ok ()

/-- Translate every part of a virtual run, in ascending order; the first failure decides. -/
def State.place (s : State) (acc : Acc) (va n : Nat) : Except Stop (List (Loc × Nat)) :=
  (cut va n).mapM (fun (a, k) => do
    let l ← s.translate acc a
    pure (l, k))

/-- The parts of a run that is consumed hold no error (R354). -/
def State.soundParts (s : State) (acc : Acc) : Nat → List (Loc × Nat) → Except Stop Unit
  | _, [] => .ok ()
  | a, (l, k) :: rest => do
    s.soundAt acc a l k
    s.soundParts acc (a + k) rest

/-- Translate every part of a virtual run; then the data that it consumes holds no error (R240, R354). -/
def State.resolve (s : State) (acc : Acc) (va n : Nat) : Except Stop (List (Loc × Nat)) := do
  let parts ← s.place acc va n
  s.soundParts acc va parts
  pure parts

/-! The L1 data cache (R248, R253). Memory holds each byte's latest value; a line of L1 notes only where another agent of the
core may see an older one: its own engines under a dirty line, its program thread in a line that they wrote (DESIGN CHOICE, log 35). -/

/-- Does a line lie in a physical run? -/
def L1Line.inRun (x : L1Line) (pa n : Nat) : Bool := decide (pa / 128 ≤ x.line) && decide (128 * x.line < pa + n)

/-- Take the lines of a physical run out of a core's L1. -/
def Core.forget (c : Core) (pa n : Nat) : Core := { c with l1 := c.l1.filter (fun x => !x.inRun pa n) }

/-- The granules that are NS: the first way of the cache (R253). -/
def Core.firstWay (c : Core) : Nat := c.nsSize / 8192

/-- The way that a fill takes in a set (R253): the lowest-numbered invalid way, otherwise the least recently used one. -/
def Core.victim (c : Core) (set : Nat) : Nat :=
  let lines := c.l1.filter (fun x => x.line % 64 == set)
  match ((List.range 40).drop c.firstWay).find? (fun w => lines.all (fun x => x.way != w)) with
  | some w => w
  | none => match lines.getLast? with
    | some x => x.way
    | none => 39

/-- An access of the program thread to a line (R253): it is filled when it is not valid, becomes the most recently used, and a
write makes it dirty. `now` is what memory holds for the line before the access. -/
def Core.touch (c : Core) (write : Bool) (now : List Byte) (line : Nat) : Core :=
  match c.l1.find? (fun x => x.line == line) with
  | some x =>
    let x := if write && x.below.isNone then { x with below := some now } else x
    { c with l1 := x :: c.l1.filter (fun y => y.line != line) }
  | none =>
    let w := c.victim (line % 64)
    { c with l1 := { line := line, way := w, below := if write then some now else none, stale := none }
                     :: c.l1.filter (fun y => !(y.line % 64 == line % 64 && y.way == w)) }

/-- Accesses to lines reach their home (R321, R434): a resident page that holds one was accessed now, and those that miss in L2
are counted (R325). -/
def State.noteLines (s : State) (lines : List Nat) : State :=
  { s with pages := s.pages.map (fun p =>
      let mine := lines.filter (fun l => decide (p.frame ≤ 128 * l) && decide (128 * l < p.frame + p.bytes))
      if p.st != .resident || mine.isEmpty then p
      else { p with last := s.ptc, heat := p.heat + (mine.filter (Config.l2Miss s.fresh)).length }) }

/-- The lines of a physical run. -/
def linesOf (pa n : Nat) : List Nat := if n = 0 then [] else (List.range ((pa + n - 1) / 128 - pa / 128 + 1)).map (pa / 128 + ·)

/-- The 2 MiB units of HBM4E that a write touches become dirty for both Slate slots (R406). -/
def Slate.touch (x : Slate) (pa n : Nat) : Slate :=
  if x.allDirty = 3 || n = 0 then x
  else
    let us := (List.range ((pa + n - 1) / 0x200000 - pa / 0x200000 + 1)).map (pa / 0x200000 + ·)
    { x with dirty := us.map (fun u => (u, 3)) ++ x.dirty.filter (fun d => !us.contains d.1) }

/-- Dirty lines are written to L2 (R251, R253). Memory holds the latest write of each byte in the coherence order of R260, which no
write-back changes; their units of HBM4E are written (R406). -/
def State.wroteBack (s : State) (xs : List L1Line) : State :=
  { s with slate := xs.foldl (fun x l => if 128 * l.line < hbmTop then x.touch (128 * l.line) 128 else x) s.slate }

/-- Dirty lines are written to L2, where the pages that hold them see the accesses (R321, R325). -/
def State.writeBack (s : State) (xs : List L1Line) : State := (s.wroteBack xs).noteLines (xs.map L1Line.line)

/-- The program thread that has seen the newer value of a line sees no older one afterwards (R260). -/
def L1Line.seen (x : L1Line) (now : Nat) : L1Line := if Config.keepsOld now x.line then x else { x with stale := none }

/-- The pages of the issuing core's partition that hold a physical run: their translation is in its cache (R315). -/
def State.learn (s : State) (pa n : Nat) : State :=
  let ps := (s.pages.filter (fun p => p.part == s.core.part && p.st == .resident && decide (p.frame < pa + n) && decide (pa < p.frame + p.bytes))).map Page.va
  { s with core := { s.core with tlb := ps ++ s.core.tlb.filter (fun v => !ps.contains v) } }

/-- The program thread of the core whose turn it is touches a physical run. A dirty line that leaves L1 for it is written to L2. -/
def State.touchPa (s : State) (write : Bool) (pa n : Nat) : State :=
  let ls := linesOf pa n
  let c := ls.foldl (fun c l => c.touch write (s.mem.bytes (128 * l) 128) l) s.core
  let c := { c with l1 := c.l1.map (fun x => if ls.contains x.line then x.seen s.fresh else x) }
  let missed := ls.filter (fun l => s.core.l1.all (fun x => x.line != l))
  let out := s.core.l1.filter (fun (x : L1Line) => x.below.isSome && c.l1.all (fun y => y.line != x.line))
  (((({ s with core := c }).wroteBack out).learn pa n).noteLines (missed ++ out.map L1Line.line))

/-- The lines of the parts of a run. -/
def partLines (parts : List (Loc × Nat)) : List Nat := parts.flatMap (fun (l, n) => match l with | .mem pa => linesOf pa n | _ => [])

/-- Accesses that go to the home of the parts of a run: an engine's, an atomic's, the device's own (R321). -/
def State.noteParts (s : State) (parts : List (Loc × Nat)) : State := s.noteLines (partLines parts)

/-- A read of pod bytes that has seen what another package wrote sees no older write of this package afterwards (R260). -/
def State.seePod (s : State) (a n : Nat) : State :=
  { s with sent := s.sent.filter (fun x => !(decide (a ≤ x.1) && decide (x.1 < a + n) && Config.podNewer s.fresh x.1)) }

/-- An engine of the core, or the island for an atomic, has read the parts of a run (R260, R321). -/
def State.engineRead (s : State) (parts : List (Loc × Nat)) : State :=
  (parts.foldl (fun t (l, n) => match l with | .pod _ a => t.seePod a n | _ => t) s).noteParts parts

/-- The program thread touches the parts of a virtual run. -/
def State.touchParts (s : State) (write : Bool) (parts : List (Loc × Nat)) : State :=
  parts.foldl (fun t (l, n) => match l with | .mem pa => t.touchPa write pa n | .pod _ a => t.seePod a n | _ => t) s

/-- The program thread reads a run of a space: virtual lines are filled. A run that fails its checks fills nothing. -/
def State.touchRead (s : State) (sp : Space) (va n : Nat) : State :=
  match sp with
  | .virt => match s.resolve .read va n with
    | .ok parts => s.touchParts false parts
    | .error _ => s
  | _ => s

/-- The program thread reads the latest value of a run (R279): no line it fills keeps an older copy after that (R260). -/
def State.touchNewest (s : State) (sp : Space) (va n : Nat) : State :=
  match sp with
  | .virt => match s.resolve .read va n with
    | .ok parts =>
      let t := s.touchParts false parts
      let ls := partLines parts
      { t with core := { t.core with l1 := t.core.l1.map (fun x => if ls.contains x.line then { x with stale := none } else x) } }
    | .error _ => s
  | _ => s

/-- An engine reads a run of a space (R321). -/
def State.noteRun (s : State) (sp : Space) (va n : Nat) : State :=
  match sp with
  | .virt => match s.resolve .read va n with
    | .ok parts => s.engineRead parts
    | .error _ => s
  | _ => s

/-- Bytes of memory with the copies that some lines of L1 keep for the agent that reads (R248). -/
def State.overlay (s : State) (copy : L1Line → Option (List Byte)) (pa : Nat) (bs : List Byte) : List Byte :=
  if s.core.l1.all (fun x => (copy x).isNone) then bs
  else bs.mapIdx (fun i b =>
    match s.core.l1.find? (fun x => x.line == (pa + i) / 128) with
    | some x => match copy x with
      | some old => old.getD ((pa + i) % 128) b
      | none => b
    | none => b)

/-- A byte of pod memory: what this package wrote there last, unless another package has written it since (R135, R260), otherwise a free
byte (DESIGN CHOICE, log 20). -/
def State.podByte (s : State) (a : Nat) : Byte :=
  match s.sent.lookup a with
  | some b => if Config.podNewer s.fresh a then Config.freeByte s.fresh a else b
  | none => Config.freeByte s.fresh a

/-- This package writes bytes of pod memory. -/
def State.sendPod (s : State) (a : Nat) (bs : List Byte) : State :=
  { s with sent := bs.mapIdx (fun i b => (a + i, b)) ++ s.sent.filter (fun x => decide (x.1 < a) || decide (a + bs.length ≤ x.1)) }

/-- The bytes at a place. -/
def State.bytesAt (s : State) (l : Loc) (n : Nat) : List Byte :=
  match l with
  | .mem pa => s.mem.bytes pa n
  | .pod _ addr => (List.range n).map (fun i => s.podByte (addr + i))
  | .reg off => s.core.m.img.rs.bytes off n
  | .absent _ | .poison _ | .lost => List.replicate n 0

/-- The bytes at a place as the program thread sees them (R248): of a line that its engines wrote, possibly the old ones. -/
def State.threadBytes (s : State) (l : Loc) (n : Nat) : List Byte :=
  match l with
  | .mem pa => s.overlay (fun x => if Config.keepsOld s.fresh x.line then x.stale else none) pa (s.mem.bytes pa n)
  | l => s.bytesAt l n

/-- The bytes at a place as the core's engines see them, which do not read its L1: of a dirty line, what L2 holds (R230, R248). -/
def State.engineBytes (s : State) (l : Loc) (n : Nat) : List Byte :=
  match l with
  | .mem pa => s.overlay L1Line.below pa (s.mem.bytes pa n)
  | l => s.bytesAt l n

/-- A physical run is written whole: an error in a unit of it is gone. -/
def healed (bad : List (Nat × Nat)) (pa n : Nat) : List (Nat × Nat) :=
  bad.filter (fun u => !(u.1 != 0 && decide (pa ≤ 32 * u.2) && decide (32 * u.2 + 32 ≤ pa + n)))

/-- A run of a core's register space is written whole: an error in a unit of it is gone. -/
def healedReg (bad : List (Nat × Nat)) (c : Core) (off n : Nat) : List (Nat × Nat) :=
  bad.filter (fun u => !(u.1 == 0 && decide (32 * c.regUnit + off ≤ 32 * u.2) && decide (32 * u.2 + 32 ≤ 32 * c.regUnit + off + n)))

/-- The 128 bytes of a line, as a list, with the bytes of a run from `pa` put in. -/
def L1Line.patch (x : L1Line) (pa : Nat) (bs old : List Byte) : List Byte :=
  old.mapIdx (fun i v => if pa ≤ 128 * x.line + i then bs.getD (128 * x.line + i - pa) v else v)

/-- The old bytes with those bits of the new ones that a mask selects in each byte. -/
def blend (mask : Byte) (old bs : List Byte) : List Byte := List.zipWith (fun o b => (o &&& ~~~mask) ||| (b &&& mask)) old bs

/-- The copies that the core's L1 keeps take the bits of a run of bytes that a mask selects in each byte. -/
def Core.patchStale (c : Core) (pa : Nat) (mask : Byte) (bs : List Byte) : Core :=
  { c with l1 := c.l1.map (fun x =>
      if x.inRun pa bs.length then
        { x with stale := x.stale.map (fun old => x.patch pa (blend mask ((List.range bs.length).map (fun i => old.getD (pa + i - 128 * x.line) 0)) bs) old) }
      else x) }

/-- Store bits of bytes at a physical address: every agent sees them, and no other core keeps its copy (R135, R260, R262). A mask
selects the bits of each byte (R165). -/
def State.storeMasked (s : State) (pa : Nat) (mask : Byte) (bs : List Byte) : State :=
  { s with mem := s.mem.splice pa (blend mask (s.mem.bytes pa bs.length) bs), bad := healed s.bad pa bs.length,
           core := s.core.patchStale pa mask bs, others := s.others.map (fun c => c.forget pa bs.length),
           slate := if pa < hbmTop then s.slate.touch pa bs.length else s.slate }

/-- Store bytes at a physical address (R135, R260, R262). -/
def State.store (s : State) (pa : Nat) (bs : List Byte) : State :=
  { s with mem := s.mem.splice pa bs, bad := healed s.bad pa bs.length, core := s.core.patchStale pa 0xFF bs,
           others := s.others.map (fun c => c.forget pa bs.length),
           slate := if pa < hbmTop then s.slate.touch pa bs.length else s.slate }

/-- An island counts one endpoint-absent completion that it answers with (R390, R398); one that is down counts nothing. -/
def State.countIsland (s : State) (a : Nat) : State :=
  let i : Fin 4 := ⟨a % 4, Nat.mod_lt _ (by decide)⟩
  let x : Island := s.islands[i]
  if x.up then { s with islands := s.islands.set i.val { x with absent := x.absent + 1 } i.isLt } else s

/-- The same of an endpoint on die `d`, for a request that enters the ring at die `e`: the endpoint's island answers, or the issuer's
where no path leads there (R390). -/
def State.countAbsent (s : State) (e d : Nat) : State := s.countIsland (if s.pathUp e d then d else e)

/-- The first island that is up on a path from die `e` to die `d`: it answers for a request that the path has lost (R391). -/
def State.firstUp (s : State) (e d : Nat) (via : Option Nat) : Nat := (([e] ++ via.toList ++ [d]).find? s.islandUp).getD e

/-- Count a posted write from die `e` that a group poisons (R398). -/
def State.countPoison (s : State) (e g : Nat) : State :=
  let i : Fin 16 := ⟨g % 16, Nat.mod_lt _ (by decide)⟩
  let x : Group := s.groups[i]
  ({ s with groups := s.groups.set i.val { x with counters := x.counters.set 2 (x.counters[2] + 1) } i.isLt }).countAbsent e (g / 4)

/-- Store bytes at a place: a posted write to an absent endpoint is discarded and counted (R390). -/
def State.storeAt (s : State) (l : Loc) (bs : List Byte) : State :=
  match l with
  | .mem pa => s.store pa bs
  | .pod _ a => s.sendPod a bs
  | .reg off => { s with core := { s.core with m := { s.core.m with img := { s.core.m.img with rs := s.core.m.img.rs.splice off bs } } },
                         bad := healedReg s.bad s.core off bs.length }
  | .absent d => s.countAbsent s.core.die d
  | .poison g => s.countPoison s.core.die g
  | .lost => s

/-- Store bits of bytes at a place. -/
def State.putMasked (s : State) (l : Loc) (mask : Byte) (bs : List Byte) : State :=
  match l with
  | .mem pa => s.storeMasked pa mask bs
  | .reg off => s.storeAt (.reg off) (blend mask (s.core.m.img.rs.bytes off bs.length) bs)
  | .pod g a => s.storeAt (.pod g a) (blend mask (s.bytesAt (.pod g a) bs.length) bs)
  | l => s.storeAt l bs

/-- Store the bytes of a run over its parts. -/
def State.storeParts (s : State) : List (Loc × Nat) → List Byte → State
  | [], _ => s
  | (l, k) :: rest, bs => (s.storeAt l (bs.take k)).storeParts rest (bs.drop k)

/-- Store bytes of the core's engine at a place: a valid line of the core's L1 may keep its copy, and L2's copy under a dirty
line takes the bytes (R248). -/
def State.engineStore (s : State) (l : Loc) (bs : List Byte) : State :=
  match l with
  | .mem pa =>
    let keep (x : L1Line) : L1Line :=
      if x.inRun pa bs.length then
        { x with stale := some (x.stale.getD (s.mem.bytes (128 * x.line) 128)), below := x.below.map (x.patch pa bs) }
      else x
    ({ s.store pa bs with core := { s.core with l1 := s.core.l1.map keep } }).noteLines (linesOf pa bs.length)
  | l => s.storeAt l bs

/-- Store the bytes of an engine's run over its parts. -/
def State.engineStoreParts (s : State) : List (Loc × Nat) → List Byte → State
  | [], _ => s
  | (l, k) :: rest, bs => (s.engineStore l (bs.take k)).engineStoreParts rest (bs.drop k)

/-- Another agent writes or moves a physical run: no core's L1 keeps a line of it. -/
def State.snoop (s : State) (pa n : Nat) : State :=
  { s with core := s.core.forget pa n, others := s.others.map (fun c => c.forget pa n) }

/-- Another agent writes physical bytes: no core keeps its copy. -/
def State.storeOutside (s : State) (pa : Nat) (bs : List Byte) : State :=
  ((s.snoop pa bs.length).store pa bs).noteLines (linesOf pa bs.length)

/-- Load a virtual run of the program thread. -/
def State.loadVirt (s : State) (acc : Acc) (va n : Nat) : Except Stop (List Byte) := do
  let parts ← s.resolve acc va n
  pure (parts.flatMap (fun (l, k) => s.threadBytes l k))

/-- Load a virtual run of an engine of the core. -/
def State.loadEngine (s : State) (va n : Nat) : Except Stop (List Byte) := do
  let parts ← s.resolve .read va n
  pure (parts.flatMap (fun (l, k) => s.engineBytes l k))

/-- The place of a virtual word as the page directory and the windows give it, whoever asks (R279, R280). -/
def State.wordPlace (s : State) (part : BitVec 6) (va : Nat) : Option Loc :=
  match s.windowAt part va, s.pageAt part va with
  | some (g, w), _ => some (w.place g va)
  | none, some p => if p.st == .resident then some (.mem (p.frame + (va - p.va))) else none
  | none, none => none

/-! Contexts by handle. -/

/-- The handle of a context entry (R287). -/
def Ctx.handle (c : Ctx) : BitVec 32 := c.edie ++ c.index ++ c.gen

/-- The entry a live handle names (R287): same generation, not Free. -/
def State.findCtx (s : State) (h : BitVec 32) : Option Ctx := s.ctxs.find? (fun c => c.handle == h && c.st != .free)

/-- Change the entry of a handle. -/
def State.updCtx (s : State) (h : BitVec 32) (f : Ctx → Ctx) : State :=
  { s with ctxs := s.ctxs.map (fun c => if c.handle == h && c.st != .free then f c else c) }

/-- The context of the core whose turn it is. -/
def State.self (s : State) : Option Ctx := s.core.handle.bind s.findCtx

/-! The retake journal (R334 to R336). -/

/-- The bytes that a journal has used or holds for accepted stream entries (R336). -/
def Journal.taken (j : Journal) : Nat := j.used + 144 * j.reserved.length

/-- One record (R336): its address, type and old value, packed to a multiple of 16 bytes. -/
def recordBytes (addr type : Nat) (old : List Byte) : List Byte :=
  bytesOfNat 8 addr ++ bytesOfNat 8 type ++ old ++ (if old.length = 8 then List.replicate 8 (0 : Byte) else [])

/-- A journal with one more record of `n` bytes. -/
def Journal.put (j : Journal) (addr type n : Nat) : Journal :=
  { j with used := j.used + n, recs := (j.used, type) :: j.recs, lines := if type = 1 then addr :: j.lines else j.lines }

/-- Append one record to the open journal of the issuing context: its address, type and old value, class-0 virtual writes. A buffer that is full
raises the journal-full fault. -/
def State.journalAppend (s : State) (h : BitVec 32) (j : Journal) (addr type : Nat) (old : List Byte) : Except Stop (State × Journal) :=
  let rec_ := recordBytes addr type old
  if j.size < j.taken + rec_.length then .error (trapAt 24 (BitVec.ofNat 64 j.buf) 0)
  else do
    let parts ← s.resolve .write (j.buf + j.used) rec_.length
    let j' := j.put addr type rec_.length
    pure ((s.storeParts parts rec_).noteParts parts |>.updCtx h (fun c => { c with journal := some j' }), j')

/-- The KV page of the issuing partition that holds a line, when the journal must record the line: it has not, and holds no space
for it yet unless `again` (R335). -/
def State.kvLine (s : State) (j : Journal) (again : Bool) (a : Nat) : Option Page :=
  if j.lines.contains a || (!again && j.reserved.contains a) then none
  else match s.pageAt s.core.part a with
    | some p => if p.kv then some p else none
    | none => none

/-- Line records for the first writes to lines of KV pages (R335). -/
def State.journalLines (s : State) (h : BitVec 32) : List Nat → Except Stop State
  | [] => .ok s
  | a :: rest =>
    match s.findCtx h with
    | none => .ok s
    | some c =>
      match c.journal with
      | none => .ok s
      | some j => match s.kvLine j true a with
        | none => s.journalLines h rest
        | some p => do
          let (s', _) ← s.journalAppend h { j with reserved := j.reserved.filter (· != a) } a 1 (s.mem.bytes (p.frame + (a - p.va)) 128)
          s'.journalLines h rest

/-- Record space for the lines that an entry of a write stream will write, when the entry is checked (R336): the lines it holds. -/
def State.journalHold (s : State) (lines : List Nat) : Except Stop (State × List Nat) :=
  match s.self with
  | none => .ok (s, [])
  | some c =>
    match c.journal with
    | none => .ok (s, [])
    | some j =>
      let new := lines.dedup.filter (fun a => (s.kvLine j false a).isSome)
      if new.isEmpty then .ok (s, [])
      else if j.size < j.taken + 144 * new.length then .error (trapAt 24 (BitVec.ofNat 64 j.buf) 0)
      else do
        let _ ← s.place .write (j.buf + j.used) (144 * (j.reserved.length + new.length))
        pure (s.updCtx c.handle (fun c => { c with journal := some { j with reserved := j.reserved ++ new } }), new)

/-- Capture the lines of a virtual run that the issuing context is about to write, when its journal is open. -/
def State.journalRun (s : State) (va n : Nat) : Except Stop State :=
  match s.self with
  | none => .ok s
  | some c =>
    match c.journal with
    | none => .ok s
    | some _ =>
      let first := va / 128
      s.journalLines c.handle ((List.range ((va + n - 1) / 128 - first + 1)).map (fun i => 128 * (first + i)))

/-- The virtual address that a partition's resident page gives a physical address, and whether it is a KV page. -/
def State.vaOfPa (s : State) (pa : Nat) : Option (Nat × Bool) :=
  (s.pages.find? (fun p => p.part == s.core.part && p.st == .resident && decide (p.frame ≤ pa) && decide (pa < p.frame + p.bytes))).map
    (fun p => (p.va + (pa - p.frame), p.kv))

/-- Capture the lines of KV pages that a write by physical place is about to change (R335). -/
def State.journalPa (s : State) (pa n : Nat) : Except Stop State :=
  match s.self with
  | none => .ok s
  | some c =>
    match c.journal with
    | none => .ok s
    | some _ => s.journalLines c.handle ((linesOf pa n).filterMap (fun l => (s.vaOfPa (128 * l)).map (·.1)))

/-- The lines a store of the program thread reaches: a write makes them dirty, an atomic is performed at their home (R272). -/
def State.reachLines (s : State) (acc : Acc) (parts : List (Loc × Nat)) : State :=
  match acc with
  | .atomic => (parts.foldl (fun t (l, n) => match l with | .mem pa => { t with core := t.core.forget pa n } | _ => t) s).engineRead parts
  | _ => s.touchParts true parts

/-- Store a virtual run: every part is checked, the journal is written, then every byte is stored. -/
def State.storeVirt (s : State) (acc : Acc) (va : Nat) (bs : List Byte) : Except Stop State := do
  let parts ← s.resolve acc va bs.length
  let s ← s.journalRun va bs.length
  pure ((s.reachLines acc parts).storeParts parts bs)

/-! Scratchpad spaces and tile owners. -/

/-- The physical address of an offset in the issuing core's vault or NS space (R133, R272). -/
def State.padBase (s : State) (sp : Space) : Nat :=
  match sp with
  | .ns => nsBase s.core.id.toNat
  | _ => vaultBase s.core.die

/-- The owner of the tile that holds an offset (R267). -/
def State.ownerOf (s : State) (sp : Space) (ea : Nat) : Owner :=
  match sp with
  | .ns => (s.core.nsOwner.lookup (ea / 4096)).getD .thread
  | _ => (s.vaultOwner.lookup ((vaultBase s.core.die + ea) / 4096)).getD .thread

/-- Set a tile's owner in a sparse table whose absent entries are THREAD. -/
def setOwnerIn (l : List (Nat × Owner)) (tile : Nat) (o : Owner) : List (Nat × Owner) :=
  let rest := l.filter (fun x => x.1 != tile)
  if o == .thread then rest else (tile, o) :: rest

/-- Set the owner of the tile that holds an offset. -/
def State.setOwner (s : State) (sp : Space) (ea : Nat) (o : Owner) : State :=
  match sp with
  | .ns => { s with core := { s.core with nsOwner := setOwnerIn s.core.nsOwner (ea / 4096) o } }
  | _ => { s with vaultOwner := setOwnerIn s.vaultOwner ((vaultBase s.core.die + ea) / 4096) o }

/-- The offsets of the tiles that a run touches (R267). -/
def tilesOf (ea n : Nat) : List Nat :=
  if n = 0 then [] else (List.range ((ea + n - 1) / 4096 - ea / 4096 + 1)).map (fun i => 4096 * (ea / 4096 + i))

/-- Every tile of a run must hold the required owner, otherwise the ownership fault names the first that does not (R268). -/
def State.requireOwner (s : State) (sp : Space) (ea n : Nat) (o : Owner) : Except Stop Unit :=
  match (tilesOf ea n).find? (fun t => s.ownerOf sp t != o) with
  | none => .ok ()
  | some t => .error (trapAt 7 (BitVec.ofNat 64 t) (BitVec.ofNat 64 ((s.ownerOf sp t).code.toNat + 8 * o.code.toNat)))

/-- The address checks of R133 for a run of `n` bytes at `ea` in a space, naming the owner its tiles must have. A run that
would pass the end of the virtual or vault space fails as one that begins there does (DEDUCED, log 30). -/
def State.checkRun (s : State) (sp : Space) (owner : Option Owner) (ea n : Nat) : Except Stop Unit :=
  let a := BitVec.ofNat 64 ea
  match sp with
  | .virt =>
    if 2 ^ 57 ≤ ea then .error (trapAt 5 a 0)
    else if 2 ^ 57 < ea + n then .error (trapAt 5 (BitVec.ofNat 64 (2 ^ 57)) 0)
    else .ok ()
  | .reg => .ok ()
  | .vault =>
    if vaultBytes < ea + n then .error (trapAt 6 a 0)
    else match owner with
      | some o => s.requireOwner .vault ea n o
      | none => .ok ()
  | .ns =>
    if s.core.nsSize < ea + n then .error (trapAt 6 a 0)
    else match owner with
      | some o => s.requireOwner .ns ea n o
      | none => .ok ()

/-- Load a run from a space whose checks have passed. -/
def State.loadRun (s : State) (sp : Space) (ea n : Nat) : Except Stop (List Byte) :=
  match sp with
  | .virt => s.loadVirt .read ea n
  | .reg => do
    s.soundReg ea n
    pure (s.core.m.img.rs.bytes ea n)
  | _ => do
    s.sound ea (s.padBase sp + ea) n
    pure (s.mem.bytes (s.padBase sp + ea) n)

/-- Load a run of a space whose checks have passed for an engine of the core. -/
def State.loadRunEngine (s : State) (sp : Space) (ea n : Nat) : Except Stop (List Byte) :=
  match sp with
  | .virt => s.loadEngine ea n
  | sp => s.loadRun sp ea n

/-- Store a run to a space whose checks have passed. -/
def State.storeRun (s : State) (sp : Space) (acc : Acc) (ea : Nat) (bs : List Byte) : Except Stop State :=
  match sp with
  | .virt => s.storeVirt acc ea bs
  | .reg => .ok (s.storeAt (.reg ea) bs)
  | _ => do
    let s ← s.journalPa (s.padBase sp + ea) bs.length
    pure (s.store (s.padBase sp + ea) bs)

/-- A scalar access (R133): alignment, the checks of its space, then the load. -/
def State.loadChecked (s : State) (sp : Space) (owner : Option Owner) (ea : Word) (n : Nat) : Except Stop (List Byte) := do
  if ea.toNat % n != 0 then .error (trapAt 4 ea 0)
  s.checkRun sp owner ea.toNat n
  s.loadRun sp ea.toNat n

/-- A scalar access (R133): alignment, the checks of its space, then the store. -/
def State.storeChecked (s : State) (sp : Space) (owner : Option Owner) (acc : Acc) (ea : Word) (bs : List Byte) : Except Stop State := do
  if ea.toNat % bs.length != 0 then .error (trapAt 4 ea 0)
  s.checkRun sp owner ea.toNat bs.length
  s.storeRun sp acc ea.toNat bs

end Sys2Proof.Machine
end

