-- ==== Sys2Proof/Machine/Layout.lean ====
section
/-!
DEFINITION. The bytes of the records that a Steward keeps: stream records (R156), the context image (R74), the matrix record (R234) and
the context record of a generation (R405); and where the image of a swapped context lies, among the runs of HBM4E in use.
-/

namespace Sys2Proof.Machine

open Sys2Proof

/-- The bytes of dwords, in order. -/
def dwordBytes (ws : List Word) : List Byte := ws.flatMap (fun w => bytesOfNat 8 w.toNat)

/-- DIR of a stream record (R156). -/
def StreamDir.code : StreamDir → Nat
  | .closed => 0 | .read => 1 | .write => 2 | .gather => 3

/-- The control word of a stream record (R156); `sqn` is the number of scale entries saved, in record 0. -/
def Stream.control (st : Stream) (sqn : Nat) : Word :=
  BitVec.ofNat 64 (sqn * 2 ^ 17 + st.held.isSome.toNat * 2 ^ 16 + (st.dir != .closed && decide (st.n ≤ st.spec)).toNat * 2 ^ 15
    + st.cl.toNat * 2 ^ 11 + (if st.dir == .gather then st.ish.toNat else 0) * 2 ^ 7 + st.sh.toNat * 2 ^ 3 + st.dir.code)

/-- A stream record (R156): 56 bytes, with 16 bytes of the scale-queue save area. -/
def Stream.record (st : Stream) (sqn : Nat) (save : List Byte) : List Byte :=
  dwordBytes [st.control sqn, BitVec.ofNat 64 st.com, BitVec.ofNat 64 st.spec, BitVec.ofNat 64 st.n, st.dist.setWidth 64] ++ save

/-- The 128-byte save area of the scale queue (R159): its entries, oldest first. -/
def Image.scaleSave (i : Image) : List Byte :=
  let xs := (i.scq.take 4).flatMap (fun e => bytesOfNat 32 e.toNat)
  xs ++ List.replicate (128 - xs.length) 0

/-- The eight stream records of an image (R74, R156). -/
def Image.streamRecords (i : Image) : List Byte :=
  (List.finRange 8).flatMap (fun n =>
    i.q[n].record (if n = 0 then min i.scq.length 4 else 0) ((i.scaleSave.drop (16 * n.val)).take 16))

/-- The bytes of the context image behind its register space (R74): 4,096. -/
def Image.named (i : Image) : List Byte :=
  dwordBytes ((i.s.set 0 0).toList)
    ++ ((i.m.set 0 (BitVec.allOnes 1024)).toList.flatMap (fun m => bytesOfNat 128 m.toNat))
    ++ (i.sh.toList.flatMap (fun h => bytesOfNat 64 h.toNat))
    ++ dwordBytes [(i.p ||| 1).setWidth 64, i.status &&& ~~~2#64, i.viewV, i.viewT, i.viewAcc, i.seed, i.ctr, i.pc]
    ++ i.streamRecords

/-- The context image (R74): 135,168 bytes. -/
def Image.bytes (i : Image) : List Byte := i.rs.bytes 0 regBytes ++ i.named

/-- The state code of a slot record (R234). -/
def SlotState.code : SlotState → Nat
  | .invalid => 0 | .loading => 1 | .valid => 2

/-- The three dwords of a slot record (R234). -/
def SlotRec.dwords (x : SlotRec) : List Word :=
  [x.ea, x.ts ++ 0#5 ++ x.t, BitVec.ofNat 64 (x.st.code * 2 ^ 18 + x.cl.toNat * 2 ^ 14 + x.c.toNat * 2 ^ 8 + x.fmt.toNat)]

/-- The matrix record (R234): 448 bytes. -/
def MatrixRec.bytes (m : MatrixRec) : List Byte :=
  dwordBytes ([m.mcw, BitVec.ofBool m.tv ++ m.ts ++ 0#4 ++ m.t, m.late, m.read, m.instrs, m.waitA, m.waitS, m.busy]
    ++ m.slots.toList.flatMap SlotRec.dwords)

/-- The bytes of an image (R74). -/
def imageBytesLen : Nat := 135168

/-! The images of swapped contexts in HBM4E (R74, R435). -/

/-- The bytes that the images of a gang take in HBM4E: a power of two, so that they lie in one stack (DESIGN CHOICE, logs 16 and 43). -/
def imageRoom (gang : BitVec 3) : Nat := 0x40000 * 4 ^ min gang.toNat 4

/-- Where the image of a member of a swapped context begins. -/
def imagePlace (base i : Nat) : Nat := base + imageBytesLen * i

/-- The run of HBM4E that a context's images take, on their way there too. -/
def Ctx.imageRun (c : Ctx) : Option (Nat × Nat) := if c.st == .free then none else c.imgAt.map (fun a => (a, imageRoom c.gang))

/-- Is the image of a context in a stack (R427)? -/
def Ctx.imageIn (c : Ctx) (k : Nat) : Bool := c.st != .free && c.loc == .hbm && (match c.imgAt with | some a => a / 2 ^ 36 % 8 == k | none => false)

/-! Places in the tiers (R317, R328). -/

/-- The bytes of a slab of a class (R328). -/
def slabBytes (cls : Nat) : Nat := 16384 * (cls + 1)

/-- The bytes that a page takes in a tier: a KV page outside the vault takes its compressed image (R328). -/
def Page.span (p : Page) (t : Tier) : Nat := if p.kv && t != .vault then slabBytes p.cls else p.bytes

/-- The runs of a tier that a page holds: where it is, and where a move takes it (R319 step 5). -/
def Page.runs (p : Page) (t : Tier) : List (Nat × Nat) :=
  (if p.st != .empty && !p.demand && p.tier == t then [(p.frame, p.span t)] else [])
  ++ (if p.st == .moving && p.dest == t then [(p.toFrame, p.span t)] else [])

/-- The lowest multiple of `n` at or above `lo` from which `n` bytes below `hi` meet no run in use. -/
def lowestFree (lo hi n : Nat) (used : List (Nat × Nat)) : Option Nat :=
  let up (x : Nat) : Nat := (x + n - 1) / n * n
  ((up lo :: used.map (fun x => up (x.1 + x.2))).filter (fun a =>
    decide (lo ≤ a) && decide (a + n ≤ hi) && used.all (fun x => decide (a + n ≤ x.1) || decide (x.1 + x.2 ≤ a)))).min?

/-- The HBM4E runs in use: ordinary pages, slab blocks (R317), and images of contexts (R74; DESIGN CHOICE, log 16). -/
def State.hbmUsed (s : State) : List (Nat × Nat) :=
  s.blocks.map (fun b => (b.pa, 0x200000)) ++ s.ctxs.filterMap Ctx.imageRun
    ++ s.pages.flatMap (fun p => if p.kv then [] else p.runs .hbm)

/-- The Slate region (R405). -/
def slateRegion : List (Nat × Nat) := (List.range 8).map (fun k => ((64 * k + 56) * 2 ^ 30, 8 * 2 ^ 30))

/-- The stacks that do not serve, as runs: no engine chooses a place there (R427, R428). -/
def State.heldRuns (s : State) : List (Nat × Nat) :=
  ((List.range 8).filter (fun k => !s.stackServes (2 ^ 36 * k))).map (fun k => (2 ^ 36 * k, 2 ^ 36))

/-- The HBM4E of the dies that the Steward of a die does not reach, as runs. -/
def State.farRuns (s : State) (d : Nat) : List (Nat × Nat) :=
  ((List.range 4).filter (fun e => !s.dieUp e || !s.pathUp d e)).map (fun e => (2 ^ 37 * e, 2 ^ 37))

/-- Where in HBM4E a swap-out takes the images of a context: a free place that can be reached and serves, from one that the manual does not
give (DESIGN CHOICE, log 16). -/
def State.imageSpot (s : State) (c : Ctx) : Option Nat :=
  let used := s.hbmUsed ++ slateRegion ++ s.heldRuns ++ s.farRuns c.imgDie.toNat
  (lowestFree (Config.imageAt c.handle.toNat % hbmTop) hbmTop (imageRoom c.gang) used) <|> lowestFree 0 hbmTop (imageRoom c.gang) used

/-- The Steward writes the images of a context to HBM4E in the layout of R74, where level S may read them. -/
def State.writeImages (s : State) (base : Nat) (ms : List Member) : State :=
  (ms.zipIdx).foldl (fun t (m, i) => (t.snoop (imagePlace base i) imageBytesLen).store (imagePlace base i) m.img.bytes) s

/-- The dword at an offset of a record's bytes. -/
def dwordAt (bs : List Byte) (off : Nat) : Word := wordOfBytes ((bs.drop off).take 8)

/-- The stream that a stream record says (R156), as it restarts: nothing is fetched behind the committed position. -/
def Stream.ofRecord (bs : List Byte) : Stream :=
  let c := dwordAt bs 0
  let dir : StreamDir := match (c.extractLsb' 0 3).toNat with | 1 => .read | 2 => .write | 3 => .gather | _ => .closed
  { dir := dir, sh := c.extractLsb' 3 4, ish := c.extractLsb' 7 4, cl := c.extractLsb' 11 4, com := (dwordAt bs 8).toNat,
    spec := (dwordAt bs 16).toNat, n := (dwordAt bs 24).toNat, dist := (dwordAt bs 32).setWidth 32, held := none }

/-- The save area of the scale queue in the stream records of an image (R156, R159). -/
def scaleArea (recs : List Byte) : List Byte := (List.range 8).flatMap (fun n => (recs.drop (56 * n + 40)).take 16)

/-- The reserved bits [127:112] of a shape register read zero (R141, R162). -/
def shapeMask : BitVec 512 := ~~~(0xFFFF#512 <<< 112)

/-- An image as it is loaded from the bytes of R74, reserved bits reading zero. What those bytes do not hold stays with the Steward. -/
def Image.load (i : Image) (bs : List Byte) : Image :=
  let recs := (bs.drop 0x20E40).take 448
  let d (off : Nat) : Word := dwordAt bs off
  { i with
    rs := Memory.splice [] 0 (bs.take regBytes),
    s := Vector.ofFn (fun (k : Fin 64) => d (0x20000 + 8 * k.val)),
    m := Vector.ofFn (fun (k : Fin 16) => BitVec.ofNat 1024 (natOfBytes ((bs.drop (0x20200 + 128 * k.val)).take 128))),
    sh := Vector.ofFn (fun (k : Fin 16) => BitVec.ofNat 512 (natOfBytes ((bs.drop (0x20A00 + 64 * k.val)).take 64)) &&& shapeMask),
    p := (d 0x20E00).setWidth 8, status := d 0x20E08 &&& 0x7FFD, viewV := d 0x20E10 &&& 0x1FE00, viewT := d 0x20E18 &&& 0x1F000,
    viewAcc := d 0x20E20 &&& 0x1C000,
    seed := d 0x20E28, ctr := d 0x20E30, pc := d 0x20E38,
    q := Vector.ofFn (fun (k : Fin 8) => Stream.ofRecord (recs.drop (56 * k.val))),
    scq := (List.range ((dwordAt recs 0).extractLsb' 17 3).toNat).map (fun k => BitVec.ofNat 256 (natOfBytes (((scaleArea recs).drop (32 * k)).take 32))) }

/-- The members of a context, their images as they are loaded: from HBM4E, when they lie there (R74, R292). -/
def State.loadedMembers (s : State) (c : Ctx) : List Member :=
  match c.loc, c.imgAt with
  | .hbm, some a => c.members.mapIdx (fun i m => { m with img := m.img.load (s.mem.bytes (imagePlace a i) imageBytesLen) })
  | _, _ => c.members

/-! Context records of a generation (R405). -/

/-- The bytes of a context record. -/
def recordLen : Nat := 147456

/-- Where the record of a context begins in the context area: by EDIE, then INDEX. -/
def Ctx.recordAt (c : Ctx) : Nat := recordLen * (16384 * c.edie.toNat + c.index.toNat)

/-- The cells of a list of bytes from an offset on. -/
def cellsOf (off : Nat) (bs : List Byte) : Memory := Memory.splice [] off bs

/-- The cells of a context record: the image, then the matrix record, of the context's first member. A record has room for no other member,
and the layout of the Steward's entry is not given: those stay with the generation as data (DESIGN CHOICE, log 45). -/
def Ctx.recordCells (c : Ctx) : Memory :=
  match c.members.head? with
  | none => []
  | some m => m.img.rs.filter (fun (x : Host.Cell) => decide (x.1 < regBytes)) ++ cellsOf regBytes (m.img.named ++ m.mr.bytes)

/-- The slot record that three dwords say (R234). -/
def SlotRec.ofRecord (bs : List Byte) : SlotRec :=
  let w := dwordAt bs 16
  { ea := dwordAt bs 0, t := (dwordAt bs 8).setWidth 57, ts := (dwordAt bs 8).extractLsb' 62 2,
    st := match (w.extractLsb' 18 2).toNat with | 1 => .loading | 2 => .valid | _ => .invalid,
    fmt := w.setWidth 6, c := w.extractLsb' 8 6, cl := w.extractLsb' 14 4 }

/-- The matrix record that 448 bytes say (R234). -/
def MatrixRec.ofRecord (bs : List Byte) : MatrixRec :=
  let d (i : Nat) : Word := dwordAt bs (8 * i)
  { mcw := d 0, tv := (d 1).getLsbD 63, ts := (d 1).extractLsb' 61 2, t := (d 1).setWidth 57, late := d 2, read := d 3, instrs := d 4,
    waitA := d 5, waitS := d 6, busy := d 7, slots := Vector.ofFn (fun (k : Fin 16) => SlotRec.ofRecord (bs.drop (64 + 24 * k.val))) }

/-- A context as it is recreated from the bytes of its record, in the context area `area`, and the entry that the Steward keeps (R411). -/
def Ctx.ofRecord (area : Memory) (c : Ctx) : Ctx :=
  let a := c.recordAt
  match c.members with
  | [] => c
  | m :: ms => { c with members := { m with img := m.img.load (area.bytes a imageBytesLen),
                                            mr := MatrixRec.ofRecord (area.bytes (a + imageBytesLen) 448) } :: ms }

end Sys2Proof.Machine
end

