-- ==== Sys2Proof/Machine/Outside.lean ====
section
/-!
DEFINITION. The requests that come in from other packages and from the host (R384, R386, R399), and those that wait: for a stack, for
the stop of a cut, for a group that is recast (R394, R408, R426); with the fields of partitions and the standing of groups that they
look at.
-/

namespace Sys2Proof.Machine

open Sys2Proof

/-! Partitions. -/

/-- A partition's field `k` (R362). -/
def State.partField (s : State) (p : BitVec 6) (k : Fin 19) : Word := s.parts[p.toFin].f[k]

/-- Set a partition's field. -/
def State.setPartField (s : State) (p : BitVec 6) (k : Fin 19) (v : Word) : State :=
  { s with parts := s.parts.set p.toNat { f := (s.parts[p.toFin]).f.set k.val v k.isLt } p.isLt }

/-- Does a Slate cut keep the contexts of a partition off the cores (R408): stopping, or copying? -/
def State.slateStops (s : State) (p : BitVec 6) : Bool :=
  (s.slate.st == .stopping || s.slate.st == .copying) && s.slate.cfg[4].getLsbD p.toNat

/-! Groups. -/

def State.group (s : State) (g : Nat) : Group := s.groups[g % 16]'(Nat.mod_lt _ (by decide))

def State.putGroup (s : State) (g : Nat) (x : Group) : State := { s with groups := s.groups.set (g % 16) x (Nat.mod_lt _ (by decide)) }

/-- The die whose island carries a group. -/
def dieOfGroup (g : Nat) : Nat := g % 16 / 4

/-- Is a recast of the group going on? -/
def Group.busy (x : Group) : Bool := x.st == .drain || x.st == .retarget || x.st == .train

/-- The windows that a group has or is about to have (R385): the active one, also while the group is recast, and the one that a recast
installs (DESIGN CHOICE, log 46). -/
def Group.windows (x : Group) : List (Pers × Window) :=
  (if x.act then (x.win.map (fun y => (x.pers, y))).toList else [])
  ++ (if x.st == .drain || x.st == .retarget then (x.nextWin.map (fun y => (x.next, y))).toList else [])

/-- A request from outside is held (R394, R408, R426). -/
def State.holdReq (s : State) (w : ReqHold) (r : OutReq) : State := { s with heldReqs := s.heldReqs ++ [(w, r)] }

/-- A Steward writes bytes at a place, as another agent than the cores. -/
def State.stewardWrite (s : State) (d : Nat) (l : Loc) (bs : List Byte) : State :=
  match l with
  | .mem pa => s.storeOutside pa bs
  | .absent h => s.countAbsent d h
  | .poison g => s.countPoison d g
  | l => s.storeAt l bs

/-- The bytes of a request: 8 to 256 (R382). -/
def requestSize (n : Nat) : Bool := decide (8 ≤ n) && decide (n ≤ 256)

/-- UALINK_REQUEST_IN (R386): a read of `n` bytes, or a write; an atomic is the write of the bytes it leaves. It is held while the
group is recast (R394), the stack does not serve (R426), or a cut has stopped the partition (R408). -/
def State.ualinkIn (s : State) (g : Nat) (pa n : Nat) (data : Option (List Byte)) : State :=
  let d := dieOfGroup g
  let h := homeOfPa pa
  let me : OutReq := .ualink g pa n data
  let n := match data with | some bs => bs.length | none => n
  let x := s.group g
  if !requestSize n then s
  else if x.busy then s.holdReq (.group g) me
  else if x.pers != .ual || x.st != .active then s.countAbsent d d
  else match s.pages.find? (fun (p : Page) => p.st == .resident && p.tier == .hbm && p.pin != 0
      && decide (p.frame ≤ pa) && decide (pa + n ≤ p.frame + p.bytes)) with
    | none => s.countAbsent d d
    | some p =>
      if !s.dieUp h || !s.pathUp d h then s.countAbsent d h
      else if s.slateStops p.part then s.holdReq (.cut p.part) me
      else if s.stackHolds pa then s.holdReq (.stack (pa / 2 ^ 36 % 8)) me
      else match data with
        | some bs => s.storeOutside pa bs
        | none => s.noteLines (linesOf pa n)

/-- The lowest entry of the export table with a key (R399). -/
def State.exportOf (s : State) (key : BitVec 32) : Option (Word × Word × Word × Word) :=
  ((List.range 256).filterMap (fun e => s.exports.lookup e)).find? (fun x => x.2.1 != 0 && x.2.2.2.extractLsb' 0 32 == key)

/-- Bytes from outside are written over the parts of a run, through the island of a die. -/
def State.writeOutside (s : State) (d : Nat) : List (Loc × Nat) → List Byte → State
  | [], _ => s
  | (l, k) :: rest, bs => (s.stewardWrite d l (bs.take k)).writeOutside d rest (bs.drop k)

/-- REMOTE_RMA_IN (R399): an operation on the region of a key, whose pages must be pinned; one that is refused changes nothing. It waits
while the group is recast, gets "endpoint absent" from one that is DOWN or FAILED (R394), and waits for a stack that does not serve (R426). -/
def State.rmaIn (s : State) (g : Nat) (key : BitVec 32) (off n : Nat) (data : Option (List Byte)) : State :=
  let d := dieOfGroup g
  let me : OutReq := .rma g key off n data
  let n := match data with | some bs => bs.length | none => n
  let x := s.group g
  if x.busy then s.holdReq (.group g) me
  else if x.st != .active || x.pers != .uet then s.countAbsent d d
  else match s.exportOf key with
    | none => s
    | some (base, len, attr, _) =>
      let part := attr.extractLsb' 0 6
      let va := base.toNat + off
      let segs := cut va n
      let pinned := segs.all (fun x => match s.pageAt part x.1 with | some p => p.st == .resident && p.pin != 0 | none => false)
      if len.toNat < off + n || !attr.getLsbD (if data.isSome then 9 else 8) || !pinned then s
      else
        let acc : Acc := if data.isSome then .write else .read
        match segs.mapM (fun x => do
          let l ← s.translateFor part d acc true x.1
          pure (l, x.2)) with
        | .error (.hold (.stack k) _) => s.holdReq (.stack k) me
        | .error (.trap e) => if e.code = 25 then s.countAbsent d e.info.toNat else s
        | .error _ => s
        | .ok parts => match data with
          | some bs => s.writeOutside d parts bs
          | none => s.noteParts parts

/-- Does a run of HBM4E meet the Slate region (R405)? -/
def inSlateRegion (pa n : Nat) : Bool := slateRegion.any (fun x => decide (x.1 < pa + n) && decide (pa < x.1 + x.2))

/-- HOST_MEM_ACCESS (R384): the host reads or writes exposed HBM4E through die 0's port. Which ranges partition 0 exposes is the host's business
(DEDUCED, log 46); the Slate region, which lies in no partition's range, is not among them. An access to a die that is down is answered by its
island (R389). -/
def State.hostAccess (s : State) (pa n : Nat) (data : Option (List Byte)) : State :=
  let h := homeOfPa pa
  let me : OutReq := .host pa n data
  let n := match data with | some bs => bs.length | none => n
  if hbmTop < pa + n || inSlateRegion pa n || !s.islandUp 0 then s
  else if !s.dieUp h || !s.pathUp 0 h then s.countAbsent 0 h
  else if s.stackHolds pa then s.holdReq (.stack (pa / 2 ^ 36 % 8)) me
  else match data with
    | some bs => s.storeOutside pa bs
    | none => s.noteLines (linesOf pa n)

/-- An accepted write of a context, from die `d`, performs (R390, R426), as the bits of each byte that a mask selects. -/
def State.postedIn (s : State) (c : Option (BitVec 32)) (d pa : Nat) (mask : Byte) (bs : List Byte) : State :=
  let h := homeOfPa pa
  if !s.dieUp h || !s.pathUp d h then s.countAbsent d h
  else if s.stackHolds pa then s.holdReq (.stack (pa / 2 ^ 36 % 8)) (.posted c d pa mask bs)
  else ((s.snoop pa bs.length).storeMasked pa mask bs).noteLines (linesOf pa bs.length)

/-- Perform a request that waited, or one from outside. -/
def State.serve (s : State) (r : OutReq) : State :=
  match r with
  | .ualink g pa n data => s.ualinkIn g pa n data
  | .rma g key off n data => s.rmaIn g key off n data
  | .host pa n data => s.hostAccess pa n data
  | .posted c d pa mask bs => s.postedIn c d pa mask bs

/-- The requests that waited go on in the order of their arrival (R394, R408, R426). -/
def State.releaseReqs (s : State) (w : ReqHold → Bool) : State :=
  ((s.heldReqs.filter (fun r => w r.1)).map (·.2)).foldl State.serve { s with heldReqs := s.heldReqs.filter (fun r => !w r.1) }

end Sys2Proof.Machine
end

