-- ==== Sys2Proof/Machine/Cut.lean ====
section
/-!
DEFINITION. Starting and failing a cut of the Slate engine, and the error watch that asks for one (R402 to R405, R408, R410), with what
they need of pages and partitions.
-/

namespace Sys2Proof.Machine

open Sys2Proof

/-! Pages and partitions. -/

/-- Do cores address a page in a tier (R318)? -/
def Page.open_ (p : Page) (t : Tier) : Bool := t == .vault || (t == .hbm && !p.kv)

/-- The HBM4E range of a partition (R362, k = 10 and 11), as far as HBM4E reaches (R416). -/
def State.hbmRange (s : State) (part : BitVec 6) : Nat × Nat := ((s.partField part 10).toNat, min hbmTop (s.partField part 11).toNat)

/-- The bytes of a page, as offsets from its base (R319). -/
def State.pageCells (s : State) (p : Page) : Memory :=
  if p.demand || p.st == .empty then [] else if p.open_ p.tier then s.mem.window p.frame p.bytes else p.cells

/-! Configuration (R402, R405). -/

/-- The partitions a configuration enrols. -/
def enrolled (e : Word) : List (BitVec 6) := ((List.range 64).filter (fun p => e.getLsbD p)).map (BitVec.ofNat 6)

/-- H of R405: the HBM4E bytes of the enrolled partitions. -/
def State.enrolledBytes (s : State) (e : Word) : Nat := ((enrolled e).map (fun p => (s.hbmRange p).2 - (s.hbmRange p).1)).sum

def gib : Nat := 2 ^ 30

/-- Z of R405: the bytes of a slot. -/
def State.slateSlotSize (s : State) (e : Word) : Nat := s.enrolledBytes e + 11 * gib

/-- The slot of a generation (R406). -/
def slotOf (gen : Word) : Fin 2 := ⟨gen.toNat % 2, Nat.mod_lt _ (by decide)⟩

/-! The slots and records of targets, each at its address in a pool or a pod (R404, R405). -/

/-- Where slot k of a target begins (R405). -/
def CutTarget.slotPlace (t : CutTarget) (z : Word) (k : Fin 2) : Nat := t.base.toNat + k.val * z.toNat

/-- Where commit record k of a target lies (R405). -/
def CutTarget.recordPlace (t : CutTarget) (z : Word) (k : Fin 2) : Nat := t.base.toNat + 2 * z.toNat + 64 * k.val

/-- What is stored in a run of a pool or a pod goes. -/
def Slate.wipe (x : Slate) (pod : Bool) (a n : Nat) : Slate :=
  let on (b : Nat) (m : Nat) : Bool := decide (b < a + n) && decide (a < b + m)
  { x with slots := x.slots.filter (fun y => !(y.1.1 == pod && on y.1.2.1 y.1.2.2)),
           records := x.records.filter (fun y => !(y.1.1 == pod && on y.1.2 64)) }

/-- The content of slot k of a target, if a cut has written it. -/
def Slate.slotAt (x : Slate) (t : CutTarget) (z : Word) (k : Fin 2) : Option Snapshot :=
  x.slots.lookup (t.pod, t.slotPlace z k, z.toNat)

/-- Write slot k of a target. -/
def Slate.putSlot (x : Slate) (t : CutTarget) (z : Word) (k : Fin 2) (y : Snapshot) : Slate :=
  let w := x.wipe t.pod (t.slotPlace z k) z.toNat
  { w with slots := ((t.pod, t.slotPlace z k, z.toNat), y) :: w.slots }

/-- The bytes of commit record k of a target; zeros where no cut has written one. -/
def Slate.recordAt (x : Slate) (t : CutTarget) (z : Word) (k : Fin 2) : List Byte :=
  (x.records.lookup (t.pod, t.recordPlace z k)).getD (List.replicate 64 0)

/-- Write commit record k of a target. -/
def Slate.putRecord (x : Slate) (t : CutTarget) (z : Word) (k : Fin 2) (r : List Byte) : Slate :=
  let w := x.wipe t.pod (t.recordPlace z k) 64
  { w with records := ((t.pod, t.recordPlace z k), r) :: w.records }

/-! The cut (R408 to R410). -/

/-- Change the Slate state. -/
def State.updSlate (s : State) (f : Slate → Slate) : State := { s with slate := f s.slate }

/-- What is known of how a started generation went. -/
def Slate.mark (x : Slate) (gen : Word) (f : Bool × Bool → Bool × Bool) : Slate :=
  { x with outcomes := x.outcomes.map (fun y => if y.1 = gen then (gen, f y.2) else y) }

/-- Is a cut in progress (R410)? -/
def Slate.cutting (x : Slate) : Bool := x.st != .idle && x.st != .restoring

/-- Every unit is dirty for a slot (R406). -/
def Slate.allSet (x : Slate) (k : Fin 2) : Slate := { x with allDirty := x.allDirty ||| (1#2 <<< k.val) }

/-- Work that a cut stopped goes on, and the requests it held are released (R408, R410). -/
def State.resumeWork (s : State) : State := s.releaseReqs (fun w => match w with | .cut _ => true | _ => false)

/-- The bytes that the fast copy of the cut in progress takes (R408, R413): its areas and units, as far as the Slate region holds them. -/
def State.stagingBytes (s : State) : Nat :=
  min (64 * gib) (11 * gib + (match s.slate.copied with | none => s.enrolledBytes s.slate.cfg[4] | some us => 0x200000 * us.length))

/-- The bytes copied so far: what of them the copy has taken is timing (DESIGN CHOICE, log 45). -/
def State.copiedSoFar (s : State) : Word := BitVec.ofNat 64 ((Config.freeWord s.fresh).toNat % (s.stagingBytes + 1))

/-- The cut in progress fails (R410): its generation is discarded and the engine is IDLE; work that was stopped goes on, and the ticks to
that and the bytes copied are the cut's (R413). -/
def State.dropCut (s : State) (cause : Nat) : State :=
  let stopped := s.slate.st == .stopping || s.slate.st == .copying
  (s.updSlate (fun x => { x.allSet (slotOf x.gen) with
    ticks := if stopped then s.ptc - x.startedAt else x.ticks, bytes := if x.st == .copying then s.copiedSoFar else x.bytes,
    st := .idle, failed := true, cause := BitVec.ofNat 4 cause, gen := 0, staging := none, copied := none, tgt := none })).resumeWork

/-- A restore ends with a status (R411, R414). -/
def State.endRestore (s : State) (status : Nat) : State :=
  if s.slate.st != .restoring then s else s.updSlate (fun x => { x with st := .idle, restored := some status })

/-- The bytes of a run of partition 0, wherever its pages are (R404): the engine waits for a page that is away. -/
def State.readAway (s : State) (va n : Nat) : Option (List Byte) :=
  (List.range n).mapM (fun i => (s.pageAt 0 (va + i)).map (fun p => Memory.read (s.pageCells p) (va + i - p.va)))

/-- Do the engines of all four dies reach a group (R12)? -/
def State.enginesReach (s : State) (g : Nat) : Bool := (List.range 4).all (fun d => s.pathUp d (g / 4))

/-- The CXL group whose window of partition 0 holds a target (R404, R385). -/
def State.poolOf (s : State) (t : CutTarget) : Option Nat :=
  (List.range 16).find? (fun g =>
    let x := s.groups[g % 16]'(Nat.mod_lt _ (by decide))
    x.pers == .cxl && (match x.win with
      | some w => w.part == 0 && decide (w.rbase ≤ t.base.toNat) && decide (t.base.toNat + t.size ≤ w.rbase + 0x20000000 * w.size)
      | none => false))

/-- Is a target reached through an ACTIVE group (R410)? -/
def State.targetUp (s : State) (t : CutTarget) : Bool :=
  let ok (g : Nat) : Bool := s.groupSt g == .active && s.enginesReach g
  if t.pod then (List.range 16).any (fun g => (s.groups[g % 16]'(Nat.mod_lt _ (by decide))).pers == .ual && ok g)
  else match s.poolOf t with
    | some g => ok g
    | none => false

/-- The target that the descriptor at TARGET names (R404), or the cause of failure; a peer's slots have pod addresses (R17). -/
def State.descTarget (s : State) : Except Nat CutTarget :=
  match s.readAway s.slate.cfg[5].toNat 32 with
  | none => .error 1
  | some bs =>
    let x (i : Nat) : Word := wordOfBytes ((bs.drop (8 * i)).take 8)
    let t : CutTarget := { pod := (x 0).getLsbD 0, base := x 1, size := (x 2).toNat }
    if x 0 &&& ~~~1#64 != 0 || x 3 != 0 || t.base.toNat % 0x200000 != 0 || decide (t.size < 2 * s.slateSlotSize s.slate.cfg[4] + 4096)
        || (!t.pod && (s.poolOf t).isNone) || (t.pod && decide (2 ^ 58 ≤ t.base.toNat)) then .error 1
    else .ok t

/-- The same of a target that is reached (R410). -/
def State.readTarget (s : State) : Except Nat CutTarget := do
  let t ← s.descTarget
  if s.targetUp t then .ok t else .error 3

/-- Are the Slate engines of the four dies ready (R428)? -/
def State.slateReady (s : State) : Bool := s.ready.extractLsb' 24 4 == 0xF

/-- Start a cut (R408) for a request made at a time: a new generation; the target's descriptor is read now (R404), and the record of its slot
zeroed. Slots at another place or of another size hold none of the units (R409). An engine that is not ready after a reset makes it fail with
cause 4 (DEDUCED, log 86). -/
def State.startCut (s : State) (man : Bool) (asked : Word) : State :=
  let g := s.slate.lastGen + 1
  let s := s.updSlate (fun x => { x with st := .stopping, gen := g, lastGen := g, man := man, pend := false, failed := false, bytes := 0,
                                         startedAt := asked, cutAt := s.ptc, z := BitVec.ofNat 64 (s.slateSlotSize x.cfg[4]), tgt := none,
                                         outcomes := (g, false, false) :: x.outcomes })
  if !s.slateReady then s.dropCut 4
  else match s.readTarget with
    | .error c => s.dropCut c
    | .ok t => s.updSlate (fun x =>
        let home := some (t.pod, t.base, x.z)
        { x.putRecord t x.z (slotOf g) (List.replicate 64 0) with
            tgt := some t, home := home, allDirty := if x.home = home then x.allDirty else 3 })

/-- May a cut start: some partition is enrolled and a target is given (R413)? -/
def State.cutReady (s : State) : Bool := s.slate.cfg[4] != 0 && s.slate.cfg[5] != 0

/-- The cut that PEND asks for starts once the engine is IDLE (R403, R413). -/
def State.cutStart (s : State) : State :=
  if s.slate.st == .idle && s.slate.pend then
    (if s.cutReady then s.startCut (s.slate.cfg[6].getLsbD 1) s.slate.pendAt else s.updSlate (fun x => { x with pend := false }))
  else s

/-- A cut fails, and one that waits for its end starts (R403, R410). In DRAINED only the record write can fail. -/
def State.failCut (s : State) (cause : Nat) : State :=
  if !s.slate.cutting || s.slate.st == .drained then s else (s.dropCut cause).cutStart

/-- A request of the error watch (R403); during a restore it has no effect (R410). -/
def State.requestCut (s : State) : State :=
  if s.slate.st == .idle then (if s.cutReady then s.startCut (s.slate.cfg[6].getLsbD 1) s.ptc else s)
  else if !s.slate.cutting || s.slate.pend then s
  else s.updSlate (fun x => { x with pend := true, pendAt := s.ptc })

/-! The error watch (R403). -/

/-- ERROR_CORRECTED (R403, R355): one more corrected error of a store, retrain of a group's link, or uncorrectable error that no
instruction consumed; the count that reaches its threshold asks for a cut when AUTO is set. -/
def State.errorCorrected (s : State) (k : Fin 3) (g : BitVec 4) : State :=
  let n := s.slate.counters[k] + 1
  let s := s.updSlate (fun x => { x with counters := x.counters.set k.val n k.isLt })
  let gr := s.groups[g.toFin]
  let s := if k = 2 then { s with groups := s.groups.set g.toNat { gr with counters := gr.counters.set 1 (gr.counters[1] + 1) } g.isLt } else s
  let th := s.slate.cfg[k.val]'(by omega)
  if th != 0 && n == th && s.slate.cfg[6].getLsbD 0 then s.requestCut else s

/-- An error that a fetch found, and that no instruction consumed, counts as one of its store (R355, R403): HBM4E, or SRAM. -/
def State.countUnused (s : State) (f : Option Stop) : State :=
  match f with
  | some (.trap e) => if e.code = 27 then s.errorCorrected (if e.info = 4 then 0 else 1) 0 else s
  | _ => s

end Sys2Proof.Machine
end

