-- ==== Sys2Proof/Machine/Steward.lean ====
section
/-!
DEFINITION. What a Steward does to contexts: leaving cores, parking, becoming Ready, binding, holding, losing, freeing,
ending a task and writing its completion word (chapter 13, with R155, R234, R256, R323, R359, R366, R368).
-/

namespace Sys2Proof.Machine

open Sys2Proof

/-! Cores. -/

/-- A core by its identifier: the one whose turn it is, one of the others, or one that is as package reset left it. -/
def State.coreAt (s : State) (id : BitVec 10) : Core :=
  if s.core.id = id then s.core else (s.others.find? (fun c => c.id == id)).getD (Core.blank id)

/-- Put a core back under its identifier. -/
def State.putCore (s : State) (c : Core) : State :=
  if s.core.id = c.id then { s with core := c }
  else { s with others := c :: s.others.filter (fun d => d.id != c.id) }

/-- Give the turn to a core. -/
def State.focus (s : State) (id : BitVec 10) : State :=
  if s.core.id = id then s
  else { s with core := s.coreAt id, others := s.core :: s.others.filter (fun d => d.id != id) }

/-- Run an operation with the turn at a core, then give the turn back. -/
def State.onCore (s : State) (id : BitVec 10) (f : State → State) : State := (f (s.focus id)).focus s.core.id

/-- Every core the state lists. -/
def State.allCores (s : State) : List Core := s.core :: s.others

/-- The number of cores of a gang code (R20, R72): codes 0 to 4, as CTXNEW refuses the others (R307). -/
def gangSize (g : BitVec 3) : Nat := 4 ^ min g.toNat 4

/-- The identifiers of the cores of a gang whose first core is `base` (R20). -/
def gangCores (base : BitVec 10) (g : BitVec 3) : List (BitVec 10) :=
  (List.range (gangSize g)).map (fun i => base + BitVec.ofNat 10 i)

/-! Streams at a stop. -/

/-- The place of an accepted write as it stands when it performs: an endpoint that has gone down since answers for it (R390, R391). -/
def State.placeNow (s : State) (l : Loc) : Loc :=
  match l with
  | .mem pa => if s.dieUp (homeOfPa pa) && s.pathUp s.core.die (homeOfPa pa) then l else .absent (homeOfPa pa)
  | .pod g _ => if !s.pathUp s.core.die (g / 4) then .absent (g / 4)
    else match s.groupSt g with | .down | .failed => .poison g | _ => l
  | l => l

/-- The stack that an accepted write to a place waits for (R426), of those that do not serve. -/
def State.heldAt (s : State) (l : Loc) : Option Nat :=
  match s.placeNow l with
  | .mem pa => if s.stackHolds pa then some (pa / 2 ^ 36 % 8) else none
  | _ => none

/-- An accepted write of the core whose turn it is waits for a stack. -/
def State.postWrite (s : State) (k pa : Nat) (mask : Byte) (bs : List Byte) : State :=
  s.holdReq (.stack k) (.posted s.core.handle s.core.die pa mask bs)

/-- Perform one accepted write (R148): the program thread's lines are touched, and the place takes its bits. One to a stack that does not
serve waits for it (R426); one that comes behind a record of the journal waits where that record does (R335). -/
def State.writeOne (s : State) (behind : Option Nat) (l : Loc) (mask : Byte) (bs : List Byte) : State :=
  match s.placeNow l with
  | .mem pa => match behind.orElse (fun _ => s.heldAt l) with
    | some k => s.postWrite k pa mask bs
    | none => (s.touchPa true pa bs.length).putMasked (.mem pa) mask bs
  | l => s.putMasked l mask bs

/-- Perform the writes of an accepted write-stream entry, in walk order (R148). -/
def State.writeMasked (s : State) (behind : Option Nat) (ws : List (Loc × Byte × List Byte)) : State :=
  ws.foldl (fun t w => t.writeOne behind w.1 w.2.1 w.2.2) s

/-- The device writes bytes of a journal record at a place, as writes that the issuing context has accepted (R335, R426). -/
def State.writeRecord (s : State) (behind : Option Nat) (l : Loc) (bs : List Byte) : State :=
  match s.placeNow l with
  | .mem pa => match behind.orElse (fun _ => s.heldAt l) with
    | some k => s.postWrite k pa 0xFF bs
    | none => (s.storeAt (.mem pa) bs).noteLines (linesOf pa bs.length)
  | l => s.storeAt l bs

/-- The parts of a virtual run of the issuing partition whose place was checked before, as the directory gives them now, with the bytes
that go there. -/
def State.recordParts (s : State) (va : Nat) (bs : List Byte) : List (Loc × List Byte) :=
  (cut va bs.length).map (fun (a, k) => ((s.wordPlace s.core.part a).getD (.absent s.core.die), (bs.drop (a - va)).take k))

/-- The line records for the lines that an accepted entry is about to write (R335, R336): their space is held. What they write is the
answer's second part. -/
def State.journalTake (s : State) (lines : List Nat) : State × List (Loc × List Byte) :=
  lines.foldl (fun (t, ws) a => match t.self with
    | none => (t, ws)
    | some c => match c.journal with
      | none => (t, ws)
      | some j => match t.kvLine j true a with
        | none => (t, ws)
        | some p =>
          let rec_ := recordBytes a 1 (t.mem.bytes (p.frame + (a - p.va)) 128)
          let j' := { j with reserved := j.reserved.filter (· != a) }.put a 1 rec_.length
          (t.updCtx c.handle (fun c => { c with journal := some j' }), ws ++ t.recordParts (j.buf + j.used) rec_)) (s, [])

/-- Write one accepted entry: the journal records its lines, then its writes perform (R335); where a record waits for a stack, they wait
behind it. -/
def State.drainEntry (s : State) (e : QEntry) : State :=
  let (t, recs) := s.journalTake e.lines
  let behind := recs.findSome? (fun w => t.heldAt w.1)
  (recs.foldl (fun u w => u.writeRecord behind w.1 w.2) t).writeMasked behind e.writes

/-- Write accepted entries of the core whose turn it is, oldest first (R155 step 2). -/
def State.drainEntries (s : State) : List QEntry → State
  | [] => s
  | e :: rest => (s.drainEntry e).drainEntries rest

/-- Write every accepted entry of a stream of the core whose turn it is, which count as committed (R155, R163). -/
def State.drainStream (s : State) (q : Fin 8) : State :=
  let es := s.core.queues[q]
  let t := s.drainEntries es
  let st := t.core.m.img.q[q]
  { t with core := { t.core with queues := t.core.queues.set q.val [] q.isLt,
                                 m := { t.core.m with img := { t.core.m.img with
                                   q := t.core.m.img.q.set q.val { st with com := st.com + (es.map (·.count)).sum } q.isLt } } } }

/-- The accepted entries of every write stream whose class lies in a mask are written: what a release or a fence waits for
(R263, R264), and what the model does before a later write of the thread, so that its writes perform in program order
(R261, R262; DESIGN CHOICE, log 37). -/
def State.settleWrites (s : State) (mask : BitVec 16 := 0xFFFF) : State :=
  (List.finRange 8).foldl (fun t q =>
    let st := t.core.m.img.q[q]
    if st.dir == .write && mask.getLsbD st.cl.toNat then t.drainStream q else t) s

/-- The stack for which the write of an accepted entry will wait (R426): its own place, or that of the journal record before it. -/
def State.entryHeld (s : State) (e : QEntry) : Option Nat :=
  let (t, recs) := s.journalTake e.lines
  (recs.findSome? (fun w => t.heldAt w.1)).orElse (fun _ => e.writes.findSome? (fun w => s.heldAt w.1))

/-- The stack for which an accepted write of the context, of the classes in a mask, waits or will wait (R426): what a release, a fence or
an instruction that acts on memory as a whole waits for (R264, R338). A write that waits has left its class (DESIGN CHOICE, log 74). -/
def State.writesHeld (s : State) (mask : BitVec 16 := 0xFFFF) : Option Nat :=
  if mask = 0 then none
  else (s.core.handle.bind s.postedBy).orElse (fun _ => (List.finRange 8).findSome? (fun q =>
    let st := s.core.m.img.q[q]
    if st.dir == .write && mask.getLsbD st.cl.toNat then s.core.queues[q].findSome? s.entryHeld else none))

/-- The accepted writes of the context perform; one that waits for its stack holds the context there (R426, R427). -/
def State.settled (s : State) (mask : BitVec 16 := 0xFFFF) : Except Stop State :=
  match s.writesHeld mask with
  | some k => .error (.hold (.stack k) false)
  | none => .ok (s.settleWrites mask)

/-- Settle one stream of the core whose turn it is: a write stream writes every accepted entry (R155); a read stream discards its
queue. -/
def State.settleStream (s : State) (q : Fin 8) : State :=
  if s.core.m.img.q[q].dir == .write then s.drainStream q
  else { s with core := { s.core with queues := s.core.queues.set q.val [] q.isLt } }

/-- A stop's treatment of the streams of the core whose turn it is (R155): write streams drained, read queues discarded, records
kept, translation registers emptied (R153). An error held back that the stop drops was consumed by no instruction (R355). -/
def State.settleStreams (s : State) : State :=
  let t := (List.finRange 8).foldl (fun x q => (x.settleStream q).countUnused s.core.m.img.q[q].held) s
  { t with core := { t.core with cpt := Vector.replicate 8 none, npt := Vector.replicate 8 none } }

/-- The streams of an image as they restart (R155): from their committed positions, with no held fault. -/
def restartStreams (q : Vector Stream 8) : Vector Stream 8 :=
  q.map (fun st => { st with spec := st.com, held := none })

/-! Interrupts. -/

/-- Post MSI-X vector `v` (R366, R367): dropped and counted while the partition's reset runs. One posted while the host port is down is
posted all the same (DESIGN CHOICE, log 87). -/
def State.postIrq (s : State) (v : Nat) : State :=
  let p : BitVec 6 := BitVec.ofNat 6 (v / 32)
  if (s.partField p 16).getLsbD 0 then s.setPartField p 17 (s.partField p 17 + 1)
  else { s with irqs := s.irqs ++ [v] }

/-- Post a partition's error vector (R366). -/
def State.postError (s : State) (p : BitVec 6) : State := s.postIrq (32 * p.toNat + 31)

/-! Residency requests a context's events make (R320, R323). -/

/-- The tier a page is recalled to (R312, R326). -/
def Page.target (p : Page) : Tier := if p.kv || p.tgtVault then .vault else .hbm

/-- Change the page of a partition at an address. -/
def State.updPage (s : State) (part : BitVec 6) (va : Nat) (f : Page → Page) : State :=
  { s with pages := s.pages.map (fun p => if p.part == part && p.va == va then f p else p) }

/-- The die whose engine moves a page (R320): the owner's run die, or the home die of the page. -/
def State.engineDie (s : State) (p : Page) : BitVec 2 :=
  match s.findCtx p.owner with
  | some c => c.rundie
  | none => BitVec.ofNat 2 (homeOfVa p.va)

/-- The rank of R321 of a page. -/
def State.rank (s : State) (p : Page) : Nat :=
  match s.findCtx p.owner with
  | none => 1
  | some c => if c.wake == BitVec.allOnes 64 then 1
    else match c.st with
      | .parked | .swapped | .frozen => 2
      | _ => 3

/-- The place of a page among the candidates (R321): rank, latest WAKE in rank 2, oldest access, lower address. -/
def State.demoteKey (s : State) (p : Page) : Nat :=
  let r := s.rank p
  let late := if r = 2 then match s.findCtx p.owner with | some c => 2 ^ 64 - c.wake.toNat | none => 0 else 0
  ((r * 2 ^ 65 + late) * 2 ^ 64 + p.last.toNat) * 2 ^ 57 + p.va

/-- Queue a move of a page at a level (R320): a request of the page for the same tier that is queued stands, at the lower of
the two levels (R323). -/
def State.queueMove (s : State) (p : Page) (level : Nat) (dest : Tier) (kind : MoveKind) : State :=
  let same (m : Move) : Bool := m.part == p.part && m.va == p.va && !m.started && m.dest == dest
  if s.moves.any (fun m => same m && decide (m.level ≤ level)) then s
  else
    { s with moves := s.moves.filter (fun m => !same m) ++
        [{ die := s.engineDie p, part := p.part, va := p.va, level := level, dest := dest, kind := kind, started := false,
           paths := [], broken := false, key := s.demoteKey p }] }

/-- Has a page a move to its target in the queue that is yet to start? -/
def State.recallQueued (s : State) (p : Page) : Bool :=
  s.moves.any (fun m => m.part == p.part && m.va == p.va && !m.started && m.dest == p.target && m.kind == .recall)

/-- A recall of a page (R318): an OUT page moves towards its target, a page in flight elsewhere when its move completes. A RESIDENT page
does not change, but for one whose recall has its second leg still to come, which takes the lower level (R323). -/
def State.recallPage (s : State) (p : Page) (level : Nat) : State :=
  match p.st with
  | .out => s.queueMove p level p.target .recall
  | .moving => if p.dest == p.target then s else s.queueMove p level p.target .recall
  | .resident => if s.recallQueued p then s.queueMove p level p.target .recall else s
  | .empty => s

/-- Recall the page of an address. -/
def State.recall (s : State) (part : BitVec 6) (va level : Nat) : State :=
  match s.pageAt part va with
  | some p => s.recallPage p level
  | none => s

/-- Add to a residency counter of a die (R343). -/
def State.countRes (s : State) (d : BitVec 2) (k : Fin 7) (n : Nat) : State :=
  let x := s.dies[d.toFin]
  { s with dies := s.dies.set d.toNat { x with counters := x.counters.set k.val (x.counters[k] + BitVec.ofNat 64 n) k.isLt } d.isLt }

/-- Is a recall of a page to its target queued at level 0? -/
def State.recalled (s : State) (p : Page) : Bool :=
  s.moves.any (fun m => m.part == p.part && m.va == p.va && !m.started && m.dest == p.target && m.level == 0)

/-- The early-wake recalls of a context that became Ready (R323): each page that is away is recalled at level 0, which also
raises a level-2 recall that is queued. -/
def State.recallAll (s : State) (h : BitVec 32) : State :=
  (s.pages.filter (fun p => p.owner == h)).foldl (fun t p =>
    let u := t.recallPage p 0
    if u.recalled p && !t.recalled p then u.countRes (u.engineDie p) 4 1 else u) s

/-! Becoming Ready. -/

/-- Enter the Ready state (R291): the list of R302 takes it at the tail, its page recalls are raised (R323). -/
def State.enterReady (s : State) (h : BitVec 32) : State :=
  let s := s.updCtx h (fun c => { c with st := .ready, cause := .none, mask := 0, readyAt := s.ptc, joinedAt := s.ptc, eff := c.prio,
                                         faultVa := none, pendReady := false, watch := [] })
  { s.recallAll h with rr := (s.rr.filter (· != h)) ++ [h] }

/-- A ready event at a context (R291, R292): Parked and Swapped become Ready, a swap-out in flight finishes first, a
Frozen context remembers it. -/
def State.readyEvent (s : State) (h : BitVec 32) : State :=
  match s.findCtx h with
  | none => s
  | some c =>
    match c.st with
    | .parked => if c.moving then s.updCtx h (fun c => { c with pendReady := true }) else s.enterReady h
    | .swapped => s.enterReady h
    | .frozen => if c.moving then s.updCtx h (fun c => { c with pendReady := true })
      else s.updCtx h (fun c => { c with ret := if c.ret == .parked || c.ret == .swapped then .ready else c.ret,
                                               cause := .none, watch := [] })
    | _ => s

/-! Leaving cores. -/

/-- A core after its context left it: the image still stands in the active slot (R303). -/
def Core.vacate (c : Core) : Core :=
  { c with handle := none, gidx := 0, gang := 0, m := Member.zeroFill 0, queues := Vector.replicate 8 [], rep := none, link := none,
           wfail := Vector.replicate 16 none, scldAt := none }

/-- The wait that a stop does not take from an instruction: of an accepted RECAST or SLRESTORE, which restarts at its wait only
(R397, R414). -/
def keptWait (w : Option Wait) : Option Wait :=
  match w with
  | some (.recast g r) => some (.recast g r)
  | some .restore => some .restore
  | _ => none

/-- The member a core gives back when its context leaves: with the NS size then in force (R256); the wait it had begun runs
again on resumption, but for an accepted RECAST or SLRESTORE, whose wait alone restarts (R397, R414). A REP unit resumes at its
prefix, with its index in cr.status (R42). SCLDs outstanding behind a full queue, with no other instruction behind the oldest, are
abandoned: it is the one to resume at (R159, R160); otherwise they stay outstanding (DESIGN CHOICE, log 31). -/
def Core.leaving (c : Core) : Member :=
  let i := c.m.img
  let i := match c.rep with | some r => { i with pc := r.at_ } | none => i
  let i := match c.scldAt with
    | some (a, k) => if i.late.isEmpty then i else { i with pc := a, late := [], status := (i.status &&& ~~~0x7F00#64) ||| (k.setWidth 64 <<< 8) }
    | none => i
  { c.m with ns := c.nsSize, img := i, wait := keptWait c.m.wait }

/-- Take one member core off its context: streams settled (R155), the member answered. -/
def State.takeMember (s : State) (id : BitVec 10) : State × Member :=
  let s := s.onCore id State.settleStreams
  let c := s.coreAt id
  (s.putCore c.vacate, c.leaving)

/-- Take the members of a gang off their cores. -/
def State.takeMembers (s : State) : List (BitVec 10) → State × List Member
  | [] => (s, [])
  | id :: rest =>
    let (s, m) := s.takeMember id
    let (s, ms) := s.takeMembers rest
    (s, m :: ms)

/-- Ticks a context has run since it was placed. -/
def State.ran (s : State) (c : Ctx) : Word := s.ptc - c.placedAt

/-- Take a Running context off its cores (R353, R305): every member stops, images are kept in the slots (R435), run time
and allowance are counted (R302, R309). The new state is the caller's. -/
def State.unbind (s : State) (h : BitVec 32) : State :=
  match s.findCtx h with
  | none => s
  | some c =>
    if c.st != .running then s
    else
      let (s, ms) := s.takeMembers (gangCores c.base c.gang)
      s.updCtx h (fun c => { c with members := ms, loc := .slots, runtime := c.runtime + (s.ptc - c.placedAt),
                                    allowance := c.allowance - ((s.ptc - c.placedAt).toNat : Int) })

/-- Has the PTC reached the WAKE of a context (R293, R295)? -/
def State.wakeReached (s : State) (c : Ctx) : Bool := c.wake != BitVec.allOnes 64 && decide (c.wake.toNat ≤ s.ptc.toNat)

/-- The conditions R, T and K of R293, of those that a mask selects, that hold for a context: `resides` lists the RESIDE
requests whose pages have not become resident. -/
def State.condMask (s : State) (c : Ctx) (mask : BitVec 3) : BitVec 3 :=
  (BitVec.ofBool c.kp ++ BitVec.ofBool (s.wakeReached c) ++ BitVec.ofBool c.resides.isEmpty : BitVec 3) &&& mask

/-- A placement in standby slots ends. -/
def State.dropStandby (s : State) (h : BitVec 32) : State :=
  let drop (c : Core) : Core := { c with standby := match c.standby with | some x => if x.handle == h then none else some x | none => none }
  { s with core := drop s.core, others := s.others.map drop }

/-- The stacks at which accepted writes of a context wait (R426). -/
def State.postedStacks (s : State) (h : BitVec 32) : List Nat :=
  (s.heldReqs.filterMap (fun r => match r with
    | (.stack k, .posted (some x) _ _ _ _) => if x = h then some k else none
    | _ => none)).dedup

/-- Hold on (R290, R291): a Running context stops and returns to Ready at hold off, held too where a write waits that the stop performs
(R427); others remember where they were. A source holds a context once. -/
def State.holdOn (s : State) (h : BitVec 32) (src : HoldSrc) : State :=
  match s.findCtx h with
  | none => s
  | some c =>
    match c.st with
    | .running =>
      let t := s.unbind h
      t.updCtx h (fun c => { c with st := .frozen, ret := .ready, holds := (src :: (t.postedStacks h).map HoldSrc.stack).dedup })
    | .frozen => if c.holds.contains src then s else s.updCtx h (fun c => { c with holds := src :: c.holds })
    | .free => s
    | st => { (s.dropStandby h).updCtx h (fun c => { c with st := .frozen, ret := st, holds := [src] }) with rr := s.rr.filter (· != h) }

/-- A context with accepted writes that wait for a stack is held there (R427). -/
def State.holdPosted (s : State) (h : BitVec 32) : State := (s.postedStacks h).foldl (fun t k => t.holdOn h (.stack k)) s

/-- Park (R290): off the cores and Parked with a cause and mask. -/
def State.park (s : State) (h : BitVec 32) (cause : Cause) (mask : BitVec 3) : State :=
  ((s.unbind h).updCtx h (fun c => { c with st := .parked, cause := cause, mask := mask, parkedAt := s.ptc })).holdPosted h

/-- Leave (R290): CSWAP, YIELD, the end of a slice, pre-emption: off the cores and Ready, its page recalls raised (R323). -/
def State.leave (s : State) (h : BitVec 32) : State :=
  let s := (s.unbind h).updCtx h (fun c => { c with st := .ready, readyAt := s.ptc, joinedAt := s.ptc, eff := c.prio })
  { s.recallAll h with rr := (s.rr.filter (· != h)) ++ [h] }.holdPosted h

/-- A fault park (R350): parked on the page, whose recall is queued at level 0 (R318). -/
def State.faultPark (s : State) (h : BitVec 32) (va : Nat) : State :=
  match s.findCtx h with
  | none => s
  | some c => ((s.park h .fault 0).updCtx h (fun c => { c with faultVa := some va })).recall c.part va 0

/-- Hold off of one source at one context (R291): at the last one it returns to RET. The ticks that it then stays Parked count from now
(R435). -/
def State.holdOff (s : State) (h : BitVec 32) (src : HoldSrc) : State :=
  match s.findCtx h with
  | none => s
  | some c =>
    if c.st != .frozen || !c.holds.contains src then s
    else if c.holds.erase src != [] then s.updCtx h (fun c => { c with holds := c.holds.erase src })
    else
      let s := s.updCtx h (fun c => { c with holds := [], st := c.ret, ret := .free, stalled := [],
                                             parkedAt := if c.ret == .parked then s.ptc else c.parkedAt })
      if c.ret == .ready then s.enterReady h else s

/-- Hold off of a source at every context (R313, R427). -/
def State.releaseHolds (s : State) (src : HoldSrc) : State :=
  (s.ctxs.map Ctx.handle).foldl (fun t h => t.holdOff h src) s

/-- Put what the posted writes of every core have accepted into memory (R316): a translation goes only after they performed. A context
whose write waits for its stack is held (R427). -/
def State.settleAll (s : State) : State :=
  let t := (s.allCores.map (·.id)).foldl (fun t id => t.onCore id State.settleWrites) s
  (t.ctxs.map Ctx.handle).foldl State.holdPosted t

/-! Tasks and completion. -/

/-- Change a host queue. -/
def State.updQueue (s : State) (q : Nat) (f : HostQueue → HostQueue) : State :=
  { s with queues := s.queues.map (fun x => if x.1 = q then (q, f x.2) else x) }

/-- Where a completion word goes for the Steward of a die (R300): its page, with W, and a window counts. -/
def State.complPlace (s : State) (part : BitVec 6) (d addr : Nat) : Except Stop Loc :=
  if addr % 8 != 0 || decide (2 ^ 57 ≤ addr) then .error (trapAt 4 0 0)
  else s.translateFor part d .write true addr

/-- The record of a completion is no longer outstanding, and its interrupt is posted (R300). -/
def State.retireCompletion (s : State) (c : Completion) : State :=
  let s := { s with outstanding := s.outstanding.filter (fun o => !(o.queue == c.queue && some o.seqno == c.seqno)) }
  if c.irq then s.postIrq (32 * c.part.toNat + c.queue % 16) else s

/-- Does an accepted write of the context that a completion word names still wait for its stack (R426)? The word and its interrupt come
after the writes of the task (R300, R367). -/
def State.wordWaits (s : State) (w : Word) : Bool := (s.postedBy (w.extractLsb' 32 32)).isSome

/-- Try to write a completion word (R300): written, refused and counted in CERR, or left pending with a recall, behind the task's writes,
or until the queue's home die serves it again (R25, R291). What follows the write is the caller's. -/
def State.tryWrite (s : State) (c : Completion) (fin : State → State) : State :=
  let d := c.queue / 256 % 4
  let wait (t : State) : State := { t with completions := t.completions ++ [c] }
  if !s.dieUp d || s.wordWaits c.word then wait s
  else if c.addr = 0 then fin s
  else match s.complPlace c.part d c.addr.toNat with
    | .ok l => fin (s.stewardWrite d l (bytesOfNat 8 c.word.toNat))
    | .error (.park va) => wait (s.recall c.part va 0)
    | .error (.hold _ _) | .error (.link _ _ _) | .error (.bank _) => wait s
    | .error (.trap _) | .error (.pop _ _ _) => fin ((s.updQueue c.queue (fun q => { q with cerr := q.cerr + 1 })).postError c.part)

/-- The completion word: [63:32] handle, [15:0] status (R300). -/
def completionWord (h : BitVec 32) (status : Nat) : Word := h ++ 0#16 ++ BitVec.ofNat 16 status

/-- Record the end of a graph node (R301). -/
def State.endNode (s : State) (gid node status : Nat) : State :=
  { s with graphs := s.graphs.map (fun g =>
      if g.id = gid then { g with nodes := g.nodes.mapIdx (fun i x => if i = node then (x.1, .done status s.ptc) else x) } else g) }

/-- The status of a graph all of whose nodes have completed: the lowest-numbered one that did not end DONE (R301). -/
def Graph.result (g : Graph) : Option Nat :=
  if g.nodes.all (fun x => match x.2 with | .done _ _ => true | _ => false) then
    some ((g.nodes.findSome? (fun x => match x.2 with | .done 0 _ => none | .done k _ => some k | _ => none)).getD 0)
  else none

/-- Complete the graphs whose nodes have all completed (R301). -/
def State.endGraphs (s : State) : State :=
  (s.graphs.filter (fun g => g.result.isSome)).foldl
    (fun t g =>
      let c : Completion := { queue := g.queue, part := g.part, addr := g.compl, word := completionWord 0 (g.result.getD 0),
                              irq := g.irq, seqno := some g.seqno, node := none }
      { t.tryWrite c (fun u => u.retireCompletion c) with graphs := t.graphs.filter (fun x => x.id != g.id) }) s

/-- What follows the write of a completion word (R300, R301): the record counts as completed, and the graph node, if it is one. -/
def State.finishCompletion (s : State) (c : Completion) : State :=
  let s := s.retireCompletion c
  match c.node with
  | some (g, n, k) => (s.endNode g n k).endGraphs
  | none => s

/-- Try to write a completion word, and complete its record or node. -/
def State.tryCompletion (s : State) (c : Completion) : State := s.tryWrite c (fun t => t.finishCompletion c)

/-- Complete a record or task with a status (R300); `later` leaves its word to be written at a COMPLETION_WORD_WRITE. -/
def State.complete (s : State) (t : Task) (h : BitVec 32) (status : Nat) (later : Bool := false) : State :=
  let c : Completion := { queue := t.queue, part := t.part, addr := t.compl, word := completionWord h status, irq := t.irq,
                          seqno := if t.node.isNone then some t.seqno else none, node := t.node.map (fun x => (x.1, x.2, status)) }
  if later then { s with completions := s.completions ++ [c] } else s.tryCompletion c

/-- End the task of a context with a status, wherever the context is (R300); the context's own state is the caller's. -/
def State.endTask (s : State) (h : BitVec 32) (status : Nat) (later : Bool := false) : State :=
  match s.findCtx h with
  | none => s
  | some c =>
    match c.task with
    | none => s
    | some t =>
      (s.updCtx h (fun c => { c with task := none, entry := none,
                                     members := c.members.map (fun m => { m with ended := false }) })).complete t h status later

/-- A member whose task was ended from outside runs at level U when it next runs (R380). -/
def Member.toLevelU (m : Member) : Member := { m with img := { m.img with status := m.img.status &&& ~~~1#64 } }

/-- HALTC and a nested trap (R361, R380): the task ends with a status and the context parks IDLE at level U. -/
def State.haltTask (s : State) (h : BitVec 32) (status : Nat) : State :=
  ((s.park h .idle 0).updCtx h (fun c => { c with members := c.members.map Member.toLevelU })).endTask h status

/-! Freeing and loss. -/

/-- An EMPTY KV page (R318, R326): no frame. The bytes of a frame it leaves stand there until the frame is used again. -/
def Page.drop (p : Page) : Page :=
  { p with st := .empty, frame := 0, toFrame := 0, group := 0, cells := [], demand := false, cls := 0, tier := .vault,
           dest := .vault, gone := .none }

/-- Give the register that PARK left unwritten its value (R305). -/
def Ctx.owe (c : Ctx) (v : Word) : Ctx := { c with members := c.members.map (fun m => { m with owed := m.owed.map (fun x => (x.1, v)) }) }

/-- Is a context parked, wherever its image is, or held while it was parked? -/
def Ctx.away (c : Ctx) : Bool :=
  !c.pendReady && (c.st == .parked || c.st == .swapped || (c.st == .frozen && (c.ret == .parked || c.ret == .swapped)))

/-- A condition of PARK that its mask selects makes the context Ready (R293); sD takes the conditions that hold (R305). -/
def State.tryUnpark (s : State) (h : BitVec 32) (kick : Bool) : State :=
  match s.findCtx h with
  | none => s
  | some c =>
    let m := s.condMask c c.mask ||| (if kick then c.mask &&& 4 else 0)
    if c.away && c.cause == .park && m != 0 then (s.updCtx h (fun c => c.owe (m.setWidth 64))).readyEvent h else s

/-- The contexts that a FAULT park holds on a page become Ready (R293, R318, R323): the page is resident, gone or changed. -/
def State.wakeFaulted (s : State) (p : Page) : State :=
  (s.ctxs.filter (fun c => c.part == p.part && (match c.faultVa with | some va => decide (p.va ≤ va) && decide (va < p.va + p.bytes) | none => false))).foldl
    (fun t c => t.readyEvent c.handle) s

/-- The RESIDE requests for a page are met, or have no page (R158, R293). -/
def State.settleResides (s : State) (p : Page) : State :=
  (s.ctxs.filter (fun c => c.part == p.part && c.resides.contains p.va)).foldl
    (fun t c => (t.updCtx c.handle (fun c => { c with resides := c.resides.filter (· != p.va) })).tryUnpark c.handle false) s

/-- A core drops its translations of a page (R153, R154, R316). -/
def Core.dropPage (c : Core) (part : BitVec 6) (va : Nat) : Core :=
  if c.part == part then
    { c with tlb := c.tlb.filter (· != va), cpt := c.cpt.map (fun x => if x == some va then none else x),
             npt := c.npt.map (fun x => if x == some va then none else x) }
  else c

/-- Every core drops its translations of a page (R316). -/
def State.dropPage (s : State) (p : Page) : State :=
  { s with core := s.core.dropPage p.part p.va, others := s.others.map (fun c => c.dropPage p.part p.va) }

/-- A page that is not in flight leaves the directory (R318, R340, R345): its requests go, and contexts parked on it run on. -/
def State.removePage (s : State) (p : Page) : State :=
  ({ s.dropPage p with pages := s.pages.filter (fun x => !(x.part == p.part && x.va == p.va)),
                       moves := s.moves.filter (fun m => !(m.part == p.part && m.va == p.va)) }).wakeFaulted p |>.settleResides p

/-- A KV page that is not in flight becomes EMPTY (R318, R345). -/
def State.emptyPage (s : State) (p : Page) : State :=
  ({ (s.dropPage p).updPage p.part p.va Page.drop with moves := s.moves.filter (fun m => !(m.part == p.part && m.va == p.va)) }).wakeFaulted p |>.settleResides p

/-- Can the Steward of a context change the entry of a page of it (R313)? -/
def State.ownerReaches (s : State) (p : Page) : Bool := s.slicesUp (p.owner.extractLsb' 30 2).toNat p.size p.va

/-- The pages of owners that are no more, as far as their slices can be changed now (R313, R327): a KV page of theirs is removed, another
loses its owner. -/
def State.releaseLate (s : State) : State :=
  let s := (s.pages.filter (fun p => p.gone == .remove && p.st != .moving && s.ownerReaches p)).foldl State.removePage s
  { s with pages := s.pages.map (fun p => if p.owner != 0 && (s.findCtx p.owner).isNone && s.ownerReaches p then { p with owner := 0 } else p) }

/-- What keeps the Steward of a context from changing the entries of its pages (R313): a slice whose island is down, which holds the
issuer, or one that no path leads to, an absent endpoint (DEDUCED, log 94); or a write through a page that goes, which waits for its stack
(R316, R426). -/
def State.ownedBlock (s : State) (h : BitVec 32) : Option Stop :=
  let d := (h.extractLsb' 30 2).toNat
  let es := (s.pages.filter (fun p => p.owner == h)).flatMap (fun p => entrySlices p.size p.va)
  let kvs := s.pages.filter (fun p => p.kv && p.owner == h && p.st == .resident)
  match es.find? (fun e => !s.islandUp e), es.find? (fun e => !s.pathUp d e) with
  | some e, _ => some (.hold (.island e) false)
  | none, some e => some (trapAt 25 0 (BitVec.ofNat 64 e))
  | none, none => if kvs.isEmpty then none
    else (kvs.findSome? (fun p => s.settleAll.waitsAt p.frame p.bytes)).map (fun k => .hold (.stack k) false)

/-- The pages a freed context leaves (R327): its KV regions go, a page in flight when its move completes; its other pages
lose their owner. An entry whose slice is down, at a loss of the context, changes when the slice is served again (R313). -/
def State.releaseOwned (s : State) (h : BitVec 32) : State :=
  let mine := s.pages.filter (fun p => p.kv && p.owner == h)
  let s := if mine.isEmpty then s else s.settleAll
  let s := mine.foldl (fun t p => if p.st == .moving || !t.ownerReaches p then t.updPage p.part p.va (fun q => { q with gone := .remove }) else t.removePage p) s
  { s with pages := s.pages.map (fun p => if p.owner == h && s.ownerReaches p then { p with owner := 0 } else p),
           regions := s.regions.filter (fun r => r.owner != h) }

/-- The next generation of an entry; 0 is skipped (R287). -/
def nextGen (g : BitVec 16) : BitVec 16 := if g + 1 = 0 then 1 else g + 1

/-- A Free entry of a given place and generation. -/
def Ctx.freeEntry (edie : BitVec 2) (index : BitVec 14) (gen : BitVec 16) : Ctx :=
  { edie := edie, index := index, gen := gen, part := 0, st := .free, ret := .free, holds := [], cause := .none, mask := 0,
    kp := false, prio := 0, eff := 0, wake := 0, rundie := 0, gang := 0, runtime := 0, readyAt := 0, joinedAt := 0, placedAt := 0,
    parkedAt := 0, allowance := 0, task := none, seed := 0, fresh := false, entry := none, members := [], loc := .slots, imgDie := 0,
    moving := false, pendReady := false, base := 0, imgAt := none, faultVa := none, resides := [], watch := [], journal := none, stalled := [],
    paths := [], broken := false }

/-- To Free (R291): the task ends with a status, the entry's generation advances, pages are released, and no slot keeps a
standby of it. -/
def State.freeCtx (s : State) (h : BitVec 32) (status : Nat) : State :=
  let s := ((s.unbind h).endTask h status).releaseOwned h
  let clearStandby (c : Core) : Core :=
    { c with standby := match c.standby with | some sb => if sb.handle == h then none else some sb | none => none,
             held := c.held.map (fun x => if x == some h then none else x) }
  { s with ctxs := s.ctxs.map (fun c => if c.handle == h && c.st != .free then Ctx.freeEntry c.edie c.index (nextGen c.gen) else c),
           rr := s.rr.filter (· != h), core := clearStandby s.core, others := s.others.map clearStandby }

/-! Binding. -/

/-- A member's image at bind (R155, R305): streams restart, a REP unit resumes at its prefix, and the register that the
last run left unwritten is written. -/
def Member.resume (m : Member) : Member :=
  let img := { m.img with q := restartStreams m.img.q }
  let img := match m.owed with
    | some (r, v) => if r = 0 then img else { img with s := img.s.set r.toNat v r.isLt }
    | none => img
  { m with img := img, owed := none }

/-- Kernel entry of a member (R77, R256): views, shapes, s1, s2, the entry address and the NS size; the rest of the image
stays. -/
def Member.enter (m : Member) (e : KernelEntry) (gidx : BitVec 8) : Member :=
  let img := m.img
  { m with ended := false, ns := e.ns, bar := none, wait := none,
           img := { img with viewV := e.viewV &&& 0x1FE00#64, viewT := e.viewT &&& 0x1F000#64, viewAcc := e.viewAcc &&& 0x1C000#64,
                             sh := e.shapes.foldl (fun v x => v.set x.1.toNat x.2 x.1.isLt) img.sh,
                             s := (img.s.set 1 e.arg).set 2 (gidx.setWidth 64), pc := e.entry } }

/-- The fault-record address a bind loads (R356). -/
def State.frecAt (s : State) (part : BitVec 6) (id : BitVec 10) (slot : Bool) : Word :=
  (s.partField part 13) + BitVec.ofNat 64 (512 * id.toNat + 256 * slot.toNat)

/-- The slots no longer hold the image of a context. -/
def State.unhold (s : State) (h : BitVec 32) : State :=
  let clear (c : Core) : Core := { c with held := c.held.map (fun x => if x == some h then none else x) }
  { s with core := clear s.core, others := s.others.map clear }

/-- The number of a physical slot. -/
def slotFin (b : Bool) : Fin 2 := ⟨b.toNat, by cases b <;> decide⟩

/-- A slot of a core is needed for a context: another image that stood there goes to the vault storage of its run die (R435). -/
def State.clearSlot (s : State) (h : BitVec 32) (id : BitVec 10) (slot : Bool) : State :=
  match (s.coreAt id).held[slotFin slot] with
  | some o => if o = h then s else (s.unhold o).updCtx o (fun c => if c.loc == ImgLoc.slots then { c with loc := .vault } else c)
  | none => s

/-- A slot of a core holds the image of a context. -/
def State.imageInSlot (s : State) (h : BitVec 32) (id : BitVec 10) (slot : Bool) : State :=
  let k := s.coreAt id
  s.putCore { k with held := k.held.set (slotFin slot).val (some h) (slotFin slot).isLt }

/-- The physical slot that a placement makes active (R303): the active one, when it is empty and still holds the image;
otherwise the standby one. -/
def Core.placeSlot (k : Core) (h : BitVec 32) : Bool := if k.held[slotFin k.slot] == some h then k.slot else !k.slot

/-- Bind one member to a core (R303): the slots swap, the image loads, cr.frec is reloaded. -/
def State.bindMember (s : State) (h : BitVec 32) (c : Ctx) (id : BitVec 10) (i : Nat) : State :=
  let slot := (s.coreAt id).placeSlot h
  let s := (s.clearSlot h id slot).imageInSlot h id slot
  let k := s.coreAt id
  let m0 := if c.fresh then Member.zeroFill c.seed else c.members.getD i (Member.zeroFill c.seed)
  let m1 := match c.entry with | some e => m0.resume.enter e (BitVec.ofNat 8 i) | none => m0.resume
  s.putCore { k with handle := some h, gidx := BitVec.ofNat 8 i, gang := c.gang, slot := slot, m := m1, frec := s.frecAt c.part id slot,
                     queues := Vector.replicate 8 [], rep := none, wfail := Vector.replicate 16 none, scldAt := none,
                     standby := if slot == k.slot then k.standby else none }

/-- Move the boundary between NS and the L1 data cache of the core whose turn it is (R254): entering granules write their
dirty lines to L2 and drop them, read zero and belong to the program thread; departing ones are lost and join the cache as invalid ways. -/
def State.moveNs (s : State) (size : Nat) : State :=
  let c := s.core
  let lo := min c.nsSize size
  let hi := max c.nsSize size
  let s := s.writeBack (c.l1.filter (fun x => decide (x.way < size / 8192) && x.below.isSome))
  { s with mem := s.mem.clear (nsBase c.id.toNat + lo) (hi - lo),
           bad := healed s.bad (nsBase c.id.toNat + lo) (hi - lo),
           core := { c with nsSize := size, nsOwner := c.nsOwner.filter (fun x => decide (x.1 < lo / 4096) || decide (hi / 4096 ≤ x.1)),
                            l1 := c.l1.filter (fun x => decide (size / 8192 ≤ x.way)) } }

/-- Age a priority (R302). -/
def State.effective (s : State) (c : Ctx) : BitVec 3 :=
  match c.st with
  | .ready =>
    let age := (s.partField c.part 5).toNat
    let w := (s.ptc - c.readyAt).toNat
    BitVec.ofNat 3 (c.prio.toNat - w / age)
  | .running => c.eff
  | _ => c.prio

/-- The standbys of other contexts that a placement on some cores replaces end (R303). -/
def State.endStandbys (s : State) (h : BitVec 32) (ids : List (BitVec 10)) : State :=
  (ids.filterMap (fun id => match (s.coreAt id).standby with
    | some x => if x.handle != h && (s.coreAt id).placeSlot h != (s.coreAt id).slot then some x.handle else none
    | none => none)).dedup.foldl State.dropStandby s

/-- The image of a context that runs is valid in the active slots of its cores alone (R303). -/
def State.holdOnly (s : State) (h : BitVec 32) (ids : List (BitVec 10)) : State :=
  let on (k : Core) : Core := { k with held := Vector.ofFn (fun (i : Fin 2) =>
    if k.held[i] == some h && !(ids.contains k.id && i == slotFin k.slot) then none else k.held[i]) }
  { s with core := on s.core, others := s.others.map on }

/-- Place a Ready context on a block (R290, R303): its image loads from where it is, unless the slots hold it (R74), its allowance rises by SLICE,
to at most SLICE (R302), and a standby of it elsewhere ends. -/
def State.bindCtx (s : State) (h : BitVec 32) (base : BitVec 10) : State :=
  match s.findCtx h with
  | none => s
  | some c =>
    let ids := gangCores base c.gang
    let there := ids.all (fun id => (s.coreAt id).held.toList.contains (some h))
    let c := if there then c else { c with members := s.loadedMembers c }
    let s := s.endStandbys h ids
    let s := (List.range (gangSize c.gang)).foldl (fun t i => t.bindMember h c (base + BitVec.ofNat 10 i) i) s
    let s := (s.dropStandby h).holdOnly h ids
    { s.updCtx h (fun c => { c with st := .running, eff := s.effective c, placedAt := s.ptc, fresh := false, entry := none,
                                    members := [], base := base, loc := .slots, imgAt := none, imgDie := base.extractLsb' 8 2,
                                    allowance := min (s.partField c.part 6).toNat (c.allowance + (s.partField c.part 6).toNat) }) with rr := s.rr.filter (· != h) }

end Sys2Proof.Machine
end

