-- ==== Sys2Proof/Machine/Ops.lean ====
section
/-!
DEFINITION. The named operations over registers, control registers, traps and the flow of one instruction: guards, the
return to the next instruction or repetition, and how a fault ends an instruction (chapters 02, 03 and 16).
-/

namespace Sys2Proof.Machine

open Sys2Proof

/-- What `exec` answers. -/
abbrev Out := Host.Outcome State Fault Refusal

/-! Registers. -/

/-- The image of the active slot. -/
def State.img (s : State) : Image := s.core.m.img

/-- Replace the image of the active slot. -/
def State.setImg (s : State) (i : Image) : State := { s with core := { s.core with m := { s.core.m with img := i } } }

/-- Read a scalar; s0 reads zero (R62). -/
def State.readS (s : State) (r : SReg) : Word := if r = 0 then 0 else s.img.s[r.toFin]

/-- Write a scalar; a write to s0 is discarded (R62). -/
def State.writeS (s : State) (r : SReg) (v : Word) : State :=
  if r = 0 then s else s.setImg { s.img with s := s.img.s.set r.toNat v r.isLt }

/-- The effective address of R133. -/
def State.addrOf (s : State) (a : SReg) (b : Word) : Word := s.readS a + b

/-- Read a predicate; p0 reads one (R62). -/
def State.readP (s : State) (p : PReg) : Bool := if p = 0 then true else s.img.p.getLsbD p.toNat

/-- Write a predicate; a write to p0 is discarded (R62). -/
def State.writeP (s : State) (p : PReg) (v : Bool) : State :=
  if p = 0 then s
  else
    let bit : BitVec 8 := 1#8 <<< p.toNat
    s.setImg { s.img with p := if v then s.img.p ||| bit else s.img.p &&& ~~~bit }

/-- Read a mask; m0 reads all ones (R62). -/
def State.readM (s : State) (m : MReg) : BitVec 1024 := if m = 0 then BitVec.allOnes 1024 else s.img.m[m.toFin]

/-- Write a mask; a write to m0 is discarded (R62). -/
def State.writeM (s : State) (m : MReg) (v : BitVec 1024) : State :=
  if m = 0 then s else s.setImg { s.img with m := s.img.m.set m.toNat v m.isLt }

/-- Read a shape register. -/
def State.readSh (s : State) (h : ShReg) : BitVec 512 := s.img.sh[h.toFin]

/-- Write a shape register; reserved bits are ignored (R162). -/
def State.writeSh (s : State) (h : ShReg) (v : BitVec 512) : State :=
  s.setImg { s.img with sh := s.img.sh.set h.toNat (v &&& shapeMask) h.isLt }

/-- Set the address of the next instruction. -/
def State.setPc (s : State) (pc : Word) : State := s.setImg { s.img with pc := pc }

/-- The level: true for S (R71). -/
def State.levelS (s : State) : Bool := s.img.status.getLsbD 0

/-- Merge flags into cr.status[7:2] (R71, R84). -/
def State.orFlags (s : State) (f : Flags) : State :=
  s.setImg { s.img with status := s.img.status ||| ((f.setWidth 64) <<< 2) }

/-- The repetition index REPIDX (R42, R71). -/
def State.repIdx (s : State) : Nat := (s.img.status.extractLsb' 8 7).toNat

/-- Set REPIDX. -/
def State.setRepIdx (s : State) (k : Nat) : State :=
  s.setImg { s.img with status := (s.img.status &&& ~~~0x7F00#64) ||| (BitVec.ofNat 64 (k % 128) <<< 8) }

/-- How an instruction with a rounding mode rounds, at its place in program order (R91). -/
def State.rounding (s : State) (rm : Rm) (sat : Bool) : Rounding := { rm := rm, sat := sat, seed := s.img.seed, ctr := s.img.ctr }

/-- Take one SRG counter value (R91). -/
def State.takeDraw (s : State) : State := s.setImg { s.img with ctr := s.img.ctr + 1 }

/-- Take a counter value when RM is stochastic (R91). -/
def State.drawFor (s : State) (rm : Rm) : State := if rm == .sr then s.takeDraw else s

/-! Control registers (R70 to R72, R356, R388, R422). -/

/-- The bit of READY or a state as a field bit. -/
def bitAt (b : Bool) (n : Nat) : Word := if b then 1#64 <<< n else 0

/-- cr.dmap (R388): every field at the moment of the read. -/
def State.dmap (s : State) : Word :=
  let cd := (List.range 4).foldl (fun w d => w ||| bitAt (s.dieUp d) d) 0
  let ri := (List.range 4).foldl (fun w d => w ||| bitAt (s.islandUp d) (4 + d)) 0
  let bu := (List.range 4).foldl (fun w d => w ||| bitAt (s.boundaryUp d) (8 + d)) 0
  let pk : Word := if s.podv then (s.podid &&& 0x3FF#64) <<< 16 else 0
  cd ||| ri ||| bu ||| pk ||| bitAt s.podv 26

/-- Read a control register (R70). -/
def State.readCsr (s : State) (c : Csr) : Word :=
  match c with
  | .status => (s.img.status &&& 0x7FFD) ||| bitAt s.core.slot 1
  | .core => (s.core.id.setWidth 64) ||| ((s.core.part.setWidth 64) <<< 10) ||| ((s.core.gang.setWidth 64) <<< 16)
      ||| ((s.core.gidx.setWidth 64) <<< 19)
  | .ctx => match s.self with
      | some c => (c.handle.setWidth 64) ||| ((c.prio.setWidth 64) <<< 32)
      | none => 0
  | .viewV => s.img.viewV
  | .viewT => s.img.viewT
  | .viewAcc => s.img.viewAcc
  | .seed => s.img.seed
  | .ctr => s.img.ctr
  | .frec => s.core.frec
  | .dmap => s.dmap
  | .lat => s.core.m.lat

/-- Write a control register that the decoder has let through (R70): reserved and read-only bits keep their values. -/
def State.writeCsr (s : State) (c : Csr) (v : Word) : State :=
  match c with
  | .status =>
    let mask : Word := if s.levelS then 0x7FFC else 0xFC
    s.setImg { s.img with status := (s.img.status &&& ~~~mask) ||| (v &&& mask) }
  | .core | .ctx | .dmap => s
  | .viewV => s.setImg { s.img with viewV := v &&& 0x1FE00 }
  | .viewT => s.setImg { s.img with viewT := v &&& 0x1F000 }
  | .viewAcc => s.setImg { s.img with viewAcc := v &&& 0x1C000 }
  | .seed => s.setImg { s.img with seed := v }
  | .ctr => s.setImg { s.img with ctr := v }
  | .frec => { s with core := { s.core with frec := v &&& ~~~0xFF#64 } }
  | .lat => { s with core := { s.core with m := { s.core.m with lat := v } } }

/-- The privilege trap (R349): code 2. -/
def privilege : Stop := .trap { code := 2 }

/-- An instruction restricted to level S (R349). -/
def State.requireS (s : State) : Except Stop Unit := if s.levelS then .ok () else .error privilege

/-- An instruction restricted to level U (R131, R304). -/
def State.requireU (s : State) : Except Stop Unit := if s.levelS then .error privilege else .ok ()

/-! Taking an exception. -/

/-- The address a fault reports: of the instruction, or of the REP prefix before it (R42, R357). -/
def State.unitAddr (s : State) : Word :=
  match s.core.rep with
  | some r => r.at_
  | none => s.img.pc

/-- The CAUSE word (R358). -/
def causeWord (e : Exc) (lvlf : Bool) : Word :=
  BitVec.ofNat 64 (e.slotn % 256 * 2 ^ 24 + lvlf.toNat * 2 ^ 21 + e.empty.toNat * 2 ^ 20 + e.unit % 16 * 2 ^ 16
    + e.reason % 256 * 2 ^ 8 + e.code % 256)

/-- The committed and speculative positions of the eight streams (R357, offset 0x70). -/
def streamWords (q : Vector Stream 8) : List Word :=
  q.toList.flatMap (fun st => [BitVec.ofNat 64 st.com, BitVec.ofNat 64 st.spec])

/-- The dwords of a fault record but the last, which only a nested trap writes (R357). -/
def State.faultRecord (s : State) (e : Exc) (epc : Word) : List Word :=
  [causeWord e s.levelS, epc, e.faddr, e.info] ++ (List.range 8).map (fun i => s.readS (BitVec.ofNat 6 (56 + i)))
    ++ [s.img.p.setWidth 64, s.readCsr .status] ++ streamWords s.img.q ++ [s.ptc]

/-- Write dwords to virtual memory as the device does for the issuing context, with no journal (R359). -/
def State.writeWords (s : State) (va : Nat) (ws : List Word) : Except Stop State := do
  let bs := ws.flatMap (fun w => bytesOfNat 8 w.toNat)
  let parts ← s.resolve .write va bs.length
  pure ((s.storeParts parts bs).noteParts parts)

/-- The streams, settled as at a park, and the scale queue go to the AU's keeping, and every queue reads closed (R359). -/
def State.shelveStreams (s : State) : State :=
  let i := s.img
  s.setImg { i with held := some (i.q, i.scq ++ i.late), q := Vector.replicate 8 Stream.closed, scq := [], late := [] }

/-- A nested trap (R361): CAUSE into the record if it can be written, the task ends TRAPPED, the error is counted and posted. -/
def State.nestedTrap (s : State) (e : Exc) : State :=
  let s := match s.writeWords (s.core.frec.toNat + 0xF8) [causeWord e true] with
    | .ok t => t
    | .error _ => s
  let p := s.core.part
  match s.core.handle with
  | none => s
  | some h => ((s.haltTask h 5).setPartField p 18 (s.partField p 18 + 1)).postError p

/-- Stop at an address: the context resumes there (R42, R352). A REP unit resumes at its prefix with its index. -/
def State.stopAt (s : State) (pc : Word) : State :=
  let s := s.setPc pc
  { s with core := { s.core with rep := none, link := none, m := { s.core.m with wait := keptWait s.core.m.wait } } }

/-- Park on a page, with the instruction as resumption address (R22, R350). -/
def State.parkOn (s : State) (va : Nat) : State :=
  match s.core.handle with
  | none => s
  | some h => (s.stopAt s.unitAddr).faultPark h va

/-- A read or atomic of the context waits at a stack (R422). -/
def Ctx.stall (c : Ctx) (src : HoldSrc) : Ctx := match src with | .stack k => { c with stalled := k :: c.stalled } | _ => c

/-- Hold the context, with the instruction as resumption address (R290, R313, R427). -/
def State.holdHere (s : State) (src : HoldSrc) (read : Bool) : State :=
  match s.core.handle with
  | none => s
  | some h =>
    let t := (s.stopAt s.unitAddr).holdOn h src
    if read then t.updCtx h (fun c => c.stall src) else t

/-- Wait for a request to a group: the instruction begins again at the next turn (R394). -/
def State.linkWait (s : State) (g va : Nat) (q : LinkReq) : State := { s with core := { s.core with link := some (g, va, q) } }

/-- Take a trap (R359): the streams stop as for a park (R155), then the record is written; `epc` is where ERET will resume. A record
page that is not resident parks the context with the instruction as resumption address, and no part of the trap takes effect; any
other fault of the record is a nested trap. -/
def State.takeTrap (s : State) (e : Exc) (epc : Word) : State :=
  let tvec := s.partField s.core.part 12
  if s.levelS || tvec == 0 then s.nestedTrap e
  else
    let drained := s.settleStreams
    let rec_ := s.core.frec
    match drained.shelveStreams.writeWords rec_.toNat (drained.faultRecord e epc) with
    | .error (.park va) => s.parkOn va
    | .error (.hold h r) => s.holdHere h r
    | .error (.link g va q) => s.linkWait g va q
    | .error (.bank pa) => s.bankWait pa
    | .error (.trap _) | .error (.pop _ _ _) => s.nestedTrap e
    | .ok t =>
      let t := { t with core := { t.core with rep := none, link := none, m := { t.core.m with wait := none } } }
      let t := t.setImg { t.img with status := t.img.status ||| 1 }
      ((t.writeS 62 (causeWord e s.levelS)).writeS 63 rec_).setPc tvec

/-- The fault that a stop is, whether or not the fetch of a stream's entry raised it. -/
def Stop.bare (st : Stop) : Stop :=
  match st with
  | .pop _ _ e => e.bare
  | e => e

/-- The fault that the fetch of an entry raised, once it is delivered, stands against the entry (R147): its record marks it (FLT). A wait
for a group, a stack or a bank is none. -/
def State.keepFault (s : State) (st : Stop) : State :=
  match st with
  | .pop q n e => match e.bare with
    | .link _ _ _ | .hold _ _ | .bank _ => s
    | _ => s.setImg { s.img with q := s.img.q.set q.toNat { s.img.q[q.toFin] with spec := n, held := some st } q.isLt }
  | _ => s

/-- How a fault on the instruction ends it (R350): the state every agent sees is the one before it (R352). An island that answered
"endpoint absent" for a request lost on its way has counted it (R391). -/
def State.deliver (s : State) (unit : Nat) (st : Stop) : State :=
  let t := s.keepFault st
  match st.bare with
  | .trap e => (if e.code = 25 && e.island.isNone then t.countAbsent t.core.die e.info.toNat else t).takeTrap { e with unit := unit } t.unitAddr
  | .park va => t.parkOn va
  | .hold h r => t.holdHere h r
  | .link g va q => t.linkWait g va q
  | .bank pa => t.bankWait pa
  | .pop _ _ _ => t

/-- Return from a trap (R360): the record is read, checked and restored, and the streams restart. A bad EPC is a nested
trap of code 3, an open queue one of code 11; a record that cannot be read is a nested trap of that fault. -/
def State.returnFromTrap (s : State) : State :=
  let rec_ := s.core.frec
  match s.loadVirt .read rec_.toNat 0x70 with
  | .error (.park va) => s.parkOn va
  | .error (.hold h r) => s.holdHere h r
  | .error (.link g va q) => s.linkWait g va q
  | .error (.bank pa) => s.bankWait pa
  | .error (.trap e) => s.nestedTrap e
  | .error (.pop _ _ _) => s
  | .ok bs =>
    let s := s.touchRead .virt rec_.toNat 0x70
    let w (off : Nat) : Word := wordOfBytes ((bs.drop off).take 8)
    let epc := w 8
    if epc.extractLsb' 57 7 != 0 || epc.extractLsb' 0 2 != 0 then s.nestedTrap { code := 3, faddr := epc }
    else match (List.finRange 8).find? (fun q => s.img.q[q].dir != .closed) with
      | some q => s.nestedTrap { code := 11, info := BitVec.ofNat 64 q.val }
      | none =>
        let i := s.img
        let sv := (List.range 8).foldl (fun (v : Vector Word 64) k => v.set ((56 + k) % 64) (w (0x20 + 8 * k)) (Nat.mod_lt _ (by decide))) i.s
        let (q, scq) := match i.held with
          | some (q, scq) => (restartStreams q, scq)
          | none => (i.q, i.scq ++ i.late)
        s.setImg { i with s := sv, p := ((w 0x60).setWidth 8) ||| 1, pc := epc, q := q, scq := scq.take 4, late := scq.drop 4, held := none,
                          status := (w 0x68) &&& 0x7FFC }

/-! The flow of one instruction. -/

/-- Is the guard true (R37)? -/
def State.guardTrue (s : State) (g : Guard) : Bool := s.readP g.p != g.neg

/-- The instruction is done: no request of the core waits for a group, and no SCLD is the latest instruction. -/
def State.unlink (s : State) : State := { s with core := { s.core with link := none, scldAt := none } }

/-- The instruction is done: on to the next repetition of its REP unit (R40), or to the next instruction. -/
def State.retire (s : State) (len : Nat) : State :=
  let s := s.unlink
  match s.core.rep with
  | none => s.setPc (s.img.pc + BitVec.ofNat 64 len)
  | some r =>
    if s.repIdx < r.cnt.toNat then s.setRepIdx (s.repIdx + 1)
    else
      let s := (s.setRepIdx 0).setPc (s.img.pc + BitVec.ofNat 64 len)
      { s with core := { s.core with rep := none } }

/-- How an instruction's own effect ends: on to the next instruction, to a target, waiting at the same place, or with the
context off the core. -/
inductive Fate where
  | done (s : State)
  | jump (s : State) (pc : Word)
  | stay (s : State)
  | left (s : State)

/-- The state a fate leaves, `len` bytes being the instruction's length. -/
def Fate.close (f : Fate) (len : Nat) : State :=
  match f with
  | .done s => { s with core := { s.core with m := { s.core.m with wait := none } } }.retire len
  | .jump s pc => s.unlink.setPc pc
  | .stay s => s
  | .left s => s

/-- Perform an instruction of a unit under a guard (R37): a false guard has no effect, a fault is delivered on the state
before the instruction (R352), otherwise its fate closes it. -/
def runFate (unit : Nat) (g : Guard) (len : Nat) (body : State → Except Stop Fate) (s : State) : Out :=
  if s.guardTrue g then
    match body s with
    | .ok f => .next (f.close len)
    | .error st => .next (s.deliver unit st)
  else .next (s.retire len)

/-- Perform an instruction that only changes state and goes on. -/
def perform (unit : Nat) (g : Guard) (len : Nat) (body : State → Except Stop State) (s : State) : Out :=
  if s.guardTrue g then
    match body s with
    | .ok t => .next (t.retire len)
    | .error st => .next (s.deliver unit st)
  else .next (s.retire len)

/-- Perform an instruction that cannot fault. -/
def performPure (g : Guard) (len : Nat) (body : State → State) (s : State) : Out :=
  if s.guardTrue g then .next ((body s).retire len) else .next (s.retire len)

/-- Unit numbers of CAUSE (R358). -/
def unitSQ : Nat := 0
def unitAU : Nat := 1
def unitVU : Nat := 2
def unitMU : Nat := 3
def unitWSU : Nat := 4
def unitCE : Nat := 5
def unitXE : Nat := 6

end Sys2Proof.Machine
end

