-- ==== Sys2Proof/Machine/Fetch.lean ====
section
/-!
DEFINITION. Fetching an instruction (R29, R42, R47, R126), the ILLEGAL trap of a unit that does not decode, and the choice
of what a step does: an event, an instruction, the next repetition of a REP unit, or nothing.
-/

namespace Sys2Proof.Machine

open Sys2Proof

/-- The parcel whose little-endian bytes these are (R5, R29). -/
def parcelOfBytes (bs : List Byte) : Parcel := BitVec.ofNat 32 (natOfBytes bs)

/-- Fetch one parcel (R315): a fault is the fetch's, delivered at the unit's address (R42). -/
def State.fetchParcel (s : State) (va : Word) : Except Stop Parcel :=
  match s.translate .fetch va.toNat with
  | .error st => .error st
  | .ok l => match s.soundAt .fetch va.toNat l 4 with
    | .error st => .error st
    | .ok _ => .ok (parcelOfBytes (s.bytesAt l 4))

/-- Fetch the parcels of the instruction at an address, as many as its first parcel says (R29); all of them are fetched
before decoding (R47). -/
def State.fetchAt (s : State) (pc : Word) : Except Stop (List Parcel) :=
  match s.fetchParcel pc with
  | .error st => .error st
  | .ok w0 =>
    match parcelCount w0 with
    | 2 =>
      match s.fetchParcel (pc + 4) with
      | .error st => .error st
      | .ok w1 => .ok [w0, w1]
    | 3 =>
      match s.fetchParcel (pc + 4) with
      | .error st => .error st
      | .ok w1 =>
        match s.fetchParcel (pc + 8) with
        | .error st => .error st
        | .ok w2 => .ok [w0, w1, w2]
    | _ => .ok [w0]

/-- The ILLEGAL trap, code 1, with its reason (R47, R354). -/
def illegal (e : Illegal) : Stop := .trap { code := 1, reason := e.code }

/-- Is a physical address one that a memory tier answers (R16)? The model's own layout: DESIGN CHOICE, log 4. -/
def tierHas (pa : Nat) : Bool := decide (pa < hbmTop) || (decide (2 ^ 40 ≤ pa) && decide (pa < 2 ^ 40 + 4 * 2 ^ 28))

end Sys2Proof.Machine

namespace Sys2Proof

/-- Is it an event row of the opcode table, which no program encodes? -/
def Instr.isEvent (i : Instr) : Bool :=
  match i with
  | .rep _ _ _ => false
  | i => (rawOf i).isNone

end Sys2Proof

namespace Sys2Proof.Machine

open Sys2Proof

/-- What the core whose turn it is does next. -/
inductive Choice where
  | idle                                   -- nothing runs on the core
  | event (i : Instr)                      -- the event the schedule names
  | skip                                   -- the schedule names no event
  | run (d : Decoded)
  | illegal                                -- the unit at the pc does not decode
  | fetchFault                             -- the unit at the pc cannot be fetched
  | noMemory (pa : Nat)                    -- its page frame lies in no memory tier

/-- The unit at the program counter. Of a REP prefix whose must-be-zero bits are not zero no successor is fetched: reason 4 comes before a
fault of that fetch (R42, R47; DESIGN CHOICE, log 102). -/
def State.unitHere (s : State) : Choice :=
  match s.translate .fetch s.img.pc.toNat with
  | .ok (.mem pa) =>
    if !tierHas pa then .noMemory pa
    else match s.fetchAt s.img.pc with
      | .error _ => .fetchFault
      | .ok ps => match decodeParcels s.levelS ps with
        | .error _ => .illegal
        | .ok d => .run d
  | .ok _ => .fetchFault
  | .error _ => .fetchFault

/-- The next repetition of the REP unit in progress (R40). A unit already past its last repetition ends. -/
def Rep.here (r : Rep) (levelS : Bool) (k : Nat) : Choice :=
  match repLegal levelS r.step r.mask r.cnt (rawOfParcels r.body) with
  | .ok w => .run (.one w ((rawOfParcels r.body).repeated r.step r.mask k))
  | .error _ => .illegal

/-- Does an instruction run on the core: a context is bound, its die is up, and the member has not performed END (R131)? -/
def State.coreRuns (s : State) : Bool := s.core.handle.isSome && s.dieUp s.core.die && !s.core.m.ended

/-- What a step does: a scheduled event first; otherwise the instruction of the core whose turn it is. -/
def State.choose (s : State) : Choice :=
  match s.events with
  | i :: _ => if i.isEvent then .event i else .skip
  | [] =>
    if !s.coreRuns then .idle
    else match s.core.rep with
      | some r => r.here s.levelS s.repIdx
      | none => s.unitHere

/-- The ticks of a step: the number is free (DESIGN CHOICE, log 5); a package ahead of its pod's time counts at half rate (R387). -/
def State.ticks (s : State) : Nat := if s.podSlow then Config.stepTicks s.fresh / 2 else Config.stepTicks s.fresh

/-- Does a refresh of a bank hold a read or atomic of a context in a cycle (R419, R422)? It occupies its bank for 188 cycles. -/
def BankRef.holds (r : BankRef) (h : BitVec 32) (t : Nat) : Bool :=
  !r.waiting && decide (t < r.since + 188) && r.held.any (fun x => x.1 == h && decide (r.since + x.2 ≤ t))

/-- The same of the refreshes of a pseudo-channel (R419, R422): an all-bank refresh takes 438 cycles, from its first (R431). -/
def PseudoChannel.holds (x : PseudoChannel) (h : BitVec 32) (t : Nat) : Bool :=
  x.running.any (·.holds h t)
  || (x.allbankOn && decide (t < x.abSince + 438) && x.abHeld.any (fun y => y.1 == h && decide (x.abSince + y.2 ≤ t)))

/-- Does self-refresh hold a read or atomic of a context (R422, R426)? -/
def State.selfRefHolds (s : State) (h : BitVec 32) : Bool :=
  s.ctxs.any (fun c => c.handle == h && c.st != .free && c.stalled.any (fun k =>
    let r := (s.hbmStacks[k % 8]'(Nat.mod_lt _ (by decide))).sr
    r == .held || r == .leaving))

/-- The cycles from `t0` to `t1` in which at least one read or atomic of a context is held (R422). -/
def State.heldCycles (s : State) (t0 t1 : Nat) (h : BitVec 32) : Nat :=
  ((List.range (t1 - t0)).filter (fun i => s.pcs.any (·.holds h (t0 + i)) || s.selfRefHolds h)).length

/-- Add to cr.lat (R422). -/
def Member.addLat (m : Member) (n : Nat) : Member := { m with lat := m.lat + BitVec.ofNat 64 n }

/-- The member on a core counts the held cycles of its context. -/
def Core.countLat (c : Core) (n : BitVec 32 → Nat) : Core :=
  match c.handle with
  | some h => { c with m := c.m.addLat (n h) }
  | none => c

/-- Every context counts the cycles from `t0` to `t1` in which one of its reads is held, on a core or off it (R422). -/
def State.countLat (s : State) (t0 t1 : Nat) : State :=
  let n := s.heldCycles t0 t1
  { s with core := s.core.countLat n, others := s.others.map (·.countLat n),
           ctxs := s.ctxs.map (fun c => { c with members := c.members.map (·.addLat (n c.handle)) }) }

/-- Time passes: five quarters of a core cycle to a tick (R6). -/
def State.passTime (s : State) : State :=
  let clock := s.clock + 5 * Config.stepTicks s.fresh
  { s.countLat s.cycle (clock / 4) with ptc := s.ptc + BitVec.ofNat 64 s.ticks, clock := clock, fresh := s.fresh + 1 }

/-- Time passes, and the scheduled turn is taken. -/
def State.tick (s : State) : State :=
  let s := s.passTime
  match s.turns with
  | [] => s
  | id :: rest => { s.focus id with turns := rest }

/-- Where `fetchReady` maps the program: one 64 KiB page of the partition, at this address both virtual and physical. -/
def loadBase : Nat := 0x10000

/-- What a program needs to be running on the core whose turn it is (DESIGN CHOICE, log 49): the package is up (R428), no event or turn is
scheduled, a context of the core's partition is bound at level U as a Steward binds one, and its program counter points to the
start of a page it may read, write and execute. -/
def State.fetchReady (s : State) : State :=
  let c : Ctx := { Ctx.freeEntry (BitVec.ofNat 2 s.core.die) 0 1 with st := .running, part := s.core.part, base := s.core.id }
  let p : Page := { part := s.core.part, va := loadBase, size := 0, r := true, w := true, x := true, kv := false, owner := 0,
                    tgtVault := false, pin := 0, st := .resident, tier := .hbm, dest := .hbm, frame := loadBase, toFrame := 0, group := 0,
                    cells := [], demand := false, cls := 0, gone := .none, last := 0, heat := 0, hot := false, wakeQ := none }
  { (s.setImg { s.img with pc := BitVec.ofNat 64 loadBase }) with
      core := { s.core with handle := some c.handle, rep := none, link := none,
                            m := { s.core.m with ended := false, wait := none, img := { s.core.m.img with pc := BitVec.ofNat 64 loadBase } } },
      turns := [], events := [], ctxs := c :: s.ctxs, pages := p :: s.pages, bad := [],
      dies := (List.finRange 4).foldl (fun v d => v.set d.val { v[d] with st := .up } d.isLt) s.dies,
      islands := (List.finRange 4).foldl (fun v d => v.set d.val { v[d] with up := true } d.isLt) s.islands, bup := 0xF,
      groups := (List.finRange 16).foldl (fun v d => v.set d.val { v[d] with win := none } d.isLt) s.groups,
      hbmStacks := (List.finRange 8).foldl (fun v d => v.set d.val { v[d] with sr := .normal } d.isLt) s.hbmStacks,
      ready := 0xFFFFFFF }

/-- Store a unit's bytes at the start of that page. -/
def State.putUnit (s : State) (bs : List Byte) : State := { s with mem := s.mem.splice loadBase bs }

/-- The event is taken off the schedule. -/
def State.popEvent (s : State) : State := { s with events := s.events.drop 1 }

end Sys2Proof.Machine
end

