-- ==== Sys2Proof/Machine/Stream.lean ====
section
/-!
DEFINITION. Shapes, the walk of a shape, and the operand queues with their streams (chapter 06, R66 to R69). A read
stream fetches an entry when an instruction needs it and none is queued, or earlier, at a STREAM_FETCH event (R140); a
write stream writes an entry when its queue must have room, at DRAIN, CLOSE and every stop, or earlier, at STREAM_WRITE.
-/

namespace Sys2Proof.Machine

open Sys2Proof

/-! Shape registers (R141). -/

def shBase (sh : BitVec 512) : Nat := (sh.extractLsb' 0 64).toNat
/-- FMT with bits [71:70], which must be zero. -/
def shFmt (sh : BitVec 512) : Option Fmt := if sh.extractLsb' 70 2 = 0 then Fmt.ofCode (sh.extractLsb' 64 6) else none
def shRank (sh : BitVec 512) : Nat := (sh.extractLsb' 72 3).toNat
def shInd (sh : BitVec 512) : Nat := (sh.extractLsb' 75 3).toNat
def shSpace (sh : BitVec 512) : Space := Space.ofCode (sh.extractLsb' 78 2)
def shItab (sh : BitVec 512) : Nat := (sh.extractLsb' 80 32).toNat
def shExt (sh : BitVec 512) (k : Nat) : Nat := (sh.extractLsb' (128 + 64 * k) 24).toNat
def shStride (sh : BitVec 512) (k : Nat) : Int := (sh.extractLsb' (128 + 64 * k + 24) 40).toInt

/-- The element format of a shape whose check has passed. -/
def shFmtD (sh : BitVec 512) : Fmt := (shFmt sh).getD .int8
/-- The elements of one entry or vector of a shape's format. -/
def shElems (sh : BitVec 512) : Nat := 4096 / (shFmtD sh).width
/-- The bytes an element touches. -/
def shBytes (sh : BitVec 512) : Nat := max 1 ((shFmtD sh).width / 8)

/-- The shape check of R142. -/
def State.shapeOk (s : State) (sh : BitVec 512) : Bool :=
  let r := shRank sh
  let i := shInd sh
  r != 0 && r != 7 && decide (i ≤ r) &&
  (match shFmt sh with
   | none | some .int64 | some .cb3 => false
   | some f => (List.range r).all (fun k => shExt sh k != 0
       && (decide (f.width < 8) || shStride sh k % 2 == 0 || decide (shExt sh k ≤ 1)))) &&
  (i == 0 || (shItab sh % 4 == 0 && decide (shItab sh + 4 * shExt sh (i - 1) ≤ s.core.nsSize)))

/-- The shape fault, code 10. -/
def shapeFault (n : ShReg) : Stop := .trap { code := 10, info := n.setWidth 64 }

/-- A shape register that passes the check, or the shape fault. -/
def State.shape (s : State) (n : ShReg) : Except Stop (BitVec 512) :=
  let sh := s.readSh n
  if s.shapeOk sh then .ok sh else .error (shapeFault n)

/-- The product of the first `r` extents (R143). -/
def shProduct (sh : BitVec 512) : Nat → Nat
  | 0 => 1
  | r + 1 => shProduct sh r * shExt sh r

/-- The length N of a shape's walk (R143). -/
def shLength (sh : BitVec 512) : Nat := shProduct sh (shRank sh)

/-- The indices of dimensions `k`, `k + 1`, … of a position (R143). -/
def shIndices (sh : BitVec 512) : Nat → Nat → Nat → List Nat
  | 0, _, _ => []
  | n + 1, k, p => p % shExt sh k :: shIndices sh n (k + 1) (p / shExt sh k)

/-- The little-endian 32-bit word at an NS offset of the issuing core. -/
def State.nsWord32 (s : State) (off : Nat) : Nat := natOfBytes (s.mem.bytes (nsBase s.core.id.toNat + off) 4)

/-- The indirection table lookup of R151; the entry it consumes holds no error (R354). -/
def State.itabLookup (s : State) (sh : BitVec 512) (x : Nat) : Except Stop Nat :=
  let off := shItab sh + 4 * x
  let t := s.nsWord32 off
  match s.sound off (nsBase s.core.id.toNat + off) 4 with
  | .error f => .error f
  | .ok _ => if t = 0 then .error (trapAt 14 (BitVec.ofNat 64 off) (BitVec.ofNat 64 x)) else .ok (t - 1)

/-- The nibble address of an element, dimension by dimension (R143). -/
def State.nibbleOf (s : State) (sh : BitVec 512) : Nat → List Nat → Int → Except Stop Int
  | _, [], a => .ok a
  | k, x :: rest, a => do
    let x ← if shInd sh = k + 1 then s.itabLookup sh x else pure x
    s.nibbleOf sh (k + 1) rest (a + x * shStride sh k)

/-- Where an element stands: the parts of its bytes, and which half of the byte a 4-bit element takes (R143). -/
structure ElemPlace where
  parts : List (Loc × Nat)
  high : Bool
deriving DecidableEq, Repr

/-- The parts of a register-space run, which wraps at 131,072 bytes (R55). -/
def regParts (off n : Nat) : List (Loc × Nat) :=
  let o := off % regBytes
  if o + n ≤ regBytes then [(.reg o, n)] else [(.reg o, regBytes - o), (.reg 0, o + n - regBytes)]

/-- The address checks of an element and its place (R143). An element that would run past the end of the vault space is
out of range as one that begins there is (DEDUCED, log 30); a virtual one that runs past 2^57 fails in the translation of its
second part (DESIGN CHOICE, log 30). -/
def State.elemPlace (s : State) (acc : Acc) (sh : BitVec 512) (idx : List Nat) : Except Stop ElemPlace := do
  let a ← s.nibbleOf sh 0 idx (2 * shBase sh : Nat)
  let nib := lowBits 65 a
  let byte := nib / 2
  let n := shBytes sh
  let high := nib % 2 == 1
  let w := BitVec.ofNat 64 byte
  match shSpace sh with
  | .virt =>
    if 2 ^ 57 ≤ byte then .error (trapAt 5 w 0)
    else do
      let parts ← s.resolve acc byte n
      pure { parts := parts, high := high }
  | .reg => do
    s.soundParts acc byte (regParts byte n)
    pure { parts := regParts byte n, high := high }
  | sp =>
    if (match sp with | .ns => decide (s.core.nsSize < byte + n) | _ => decide (vaultBytes < byte + n)) then .error (trapAt 6 w 0)
    else do
      s.requireOwner sp byte n .thread
      s.soundAt acc byte (.mem (s.padBase sp + byte)) n
      pure { parts := [(.mem (s.padBase sp + byte), n)], high := high }

/-- The indices of position `p` of a shape's own walk. -/
def shIndex (sh : BitVec 512) (p : Nat) : List Nat := shIndices sh (shRank sh) 0 p

/-- The program thread's accesses to elements of a virtual shape touch their lines of L1 (R253). -/
def State.touchPlaces (s : State) (write : Bool) (sh : BitVec 512) (places : List ElemPlace) : State :=
  match shSpace sh with
  | .virt => places.foldl (fun t e => t.touchParts write e.parts) s
  | _ => s

/-- The bytes over the parts of a place. -/
def State.bytesOver (s : State) (parts : List (Loc × Nat)) : List Byte := parts.flatMap (fun (l, k) => s.threadBytes l k)

/-- The pattern of the element at a place. -/
def State.elemAt (s : State) (sh : BitVec 512) (e : ElemPlace) : Nat :=
  let n := natOfBytes (s.bytesOver e.parts)
  if (shFmtD sh).width = 4 then (if e.high then n / 16 else n % 16) else n

/-- The bits of each byte that an element's store changes, and its bytes: a 4-bit element changes its own nibble (R165). -/
def elemBits (sh : BitVec 512) (high : Bool) (v : Nat) : Byte × List Byte :=
  if (shFmtD sh).width = 4 then ((if high then 0xF0 else 0x0F), [BitVec.ofNat 8 (v % 16 * 17)]) else (0xFF, bytesOfNat (shBytes sh) v)

/-- The writes of an element, part by part (R148). -/
def elemWrites (mask : Byte) : List (Loc × Nat) → List Byte → List (Loc × Byte × List Byte)
  | [], _ => []
  | (l, k) :: rest, bs => (l, mask, bs.take k) :: elemWrites mask rest (bs.drop k)

/-- Store an element's pattern at its place; a 4-bit store changes its own nibble (R165). -/
def State.putElem (s : State) (sh : BitVec 512) (e : ElemPlace) (v : Nat) : State :=
  let x := elemBits sh e.high v
  (elemWrites x.1 e.parts x.2).foldl (fun t w => t.putMasked w.1 w.2.1 w.2.2) s

/-! Walks of streams. -/

/-- The index of dimension R - 1 that position `p` of a gather stream takes from the index shape (R150). -/
def State.gatherIndex (s : State) (sh ish : BitVec 512) (p : Nat) : Except Stop (List Nat) := do
  let m := shProduct sh (shRank sh - 1)
  let j := p / m
  let place ← s.elemPlace .read ish (shIndex ish j)
  let raw := s.elemAt ish place
  let e : Int := intOf (shFmtD ish) raw
  if e < 0 || (shExt sh (shRank sh - 1) : Int) ≤ e then .error (trapAt 6 (BitVec.ofInt 64 e) 0)
  else pure (shIndices sh (shRank sh - 1) 0 (p % m) ++ [e.toNat])

/-- The place of position `p` of a stream (R143, R150). -/
def State.streamPlace (s : State) (acc : Acc) (st : Stream) (p : Nat) : Except Stop ElemPlace := do
  let sh := s.readSh st.sh
  let idx ← match st.dir with
    | .gather => s.gatherIndex sh (s.readSh st.ish) p
    | _ => pure (shIndex sh p)
  s.elemPlace acc sh idx

/-- The positions of the entry at `p`: as many as an entry holds, or as the walk has left (R144). -/
def Stream.entryCount (st : Stream) (sh : BitVec 512) (p : Nat) : Nat := min (shElems sh) (st.n - p)

/-- The stream of a queue. -/
def State.stream (s : State) (q : QReg) : Stream := s.img.q[q.toFin]
/-- Replace the stream of a queue. -/
def State.setStream (s : State) (q : QReg) (st : Stream) : State := s.setImg { s.img with q := s.img.q.set q.toNat st q.isLt }
/-- The entries of a queue, oldest first. -/
def State.queue (s : State) (q : QReg) : List QEntry := s.core.queues[q.toFin]
/-- Replace the entries of a queue. -/
def State.setQueue (s : State) (q : QReg) (es : List QEntry) : State :=
  { s with core := { s.core with queues := s.core.queues.set q.toNat es q.isLt } }

/-! The translation registers of a stream (R153). -/

/-- The address of position `p` of a stream over virtual space, if its indices can be had. For a gather stream the registers follow the
pages of the data shape; those of the index list are translated on demand (DESIGN CHOICE, log 95). -/
def State.posAddr (s : State) (st : Stream) (p : Nat) : Option Nat :=
  let sh := s.readSh st.sh
  if shSpace sh != .virt then none
  else
    let idx := match st.dir with
      | .gather => s.gatherIndex sh (s.readSh st.ish) p
      | _ => pure (shIndex sh p)
    match idx.bind (fun i => s.nibbleOf sh 0 i (2 * shBase sh : Nat)) with
    | .ok a => some (lowBits 65 a / 2)
    | .error _ => none

/-- The same with the page that maps it. -/
def State.posPage (s : State) (st : Stream) (p : Nat) : Option (Nat × Page) := do
  let a ← s.posAddr st p
  let g ← s.pageAt s.core.part a
  pure (a, g)

/-- The address of the first position outside a page, mapped or not, among the `n` positions from `p` on. -/
def State.nextOutside (s : State) (st : Stream) (g : Page) : Nat → Nat → Option Nat
  | 0, _ => none
  | n + 1, p => match s.posAddr st p with
    | some a => if g.va ≤ a && a < g.va + g.bytes then s.nextOutside st g n (p + 1) else some a
    | none => none

/-- Set the current-page and next-page registers of a stream, whose translations the core then holds. -/
def State.setPages (s : State) (q : QReg) (cpt npt : Option Nat) : State :=
  { s with core := { s.core with cpt := s.core.cpt.set q.toNat cpt q.isLt, npt := s.core.npt.set q.toNat npt q.isLt } }

/-- The walk enters the page of a position: from NPT when it is there, by a demand translation otherwise. -/
def State.enterPage (s : State) (q : QReg) (st : Stream) (p : Nat) : State :=
  match s.posPage st p with
  | none => s
  | some (_, g) =>
    if s.core.cpt[q.toFin] == some g.va then s
    else if s.core.npt[q.toFin] == some g.va then s.setPages q (some g.va) none
    else s.setPages q (some g.va) s.core.npt[q.toFin]

/-- Within DIST bytes of the end of the page, by the sign of the innermost stride, NPT takes the page that the walk enters next; a fill
that faults is dropped. -/
def State.fillNext (s : State) (q : QReg) (acc : Acc) (st : Stream) (p : Nat) : State :=
  match s.posPage st p with
  | none => s
  | some (a, g) =>
    let room := if shStride (s.readSh st.sh) 0 < 0 then a - g.va else g.va + g.bytes - a
    if st.dist == 0 || decide (st.dist.toNat < room) then s
    else match s.nextOutside st g (st.n - (p + 1)) (p + 1) with
      | none => s
      | some b => match s.translate acc b, s.pageAt s.core.part b with
        | .ok _, some h => s.setPages q s.core.cpt[q.toFin] (some h.va)
        | _, _ => s

/-- The registers after the walk has taken positions, in order. -/
def State.crossPages (s : State) (q : QReg) (acc : Acc) (ps : List Nat) : State :=
  let st := s.stream q
  ps.foldl (fun t p => (t.enterPage q st p).fillNext q acc st p) s

/-- The places of the index elements that positions of a gather stream take (R150). -/
def State.indexPlaces (s : State) (st : Stream) (ps : List Nat) : List ElemPlace :=
  let sh := s.readSh st.sh
  let ish := s.readSh st.ish
  match st.dir with
  | .gather => ((ps.map (· / shProduct sh (shRank sh - 1))).dedup).filterMap (fun j => (s.elemPlace .read ish (shIndex ish j)).toOption)
  | _ => []

/-- Fetch the entry at the speculative position of a queue's read stream (R144). -/
def State.fetchEntry (s : State) (q : QReg) : Except Stop (QEntry × State) := do
  let st := s.stream q
  let sh := s.readSh st.sh
  let k := st.entryCount sh st.spec
  let ps := (List.range k).map (st.spec + ·)
  let places ← ps.mapM (s.streamPlace .read st)
  pure ({ data := vecOfElems (shFmtD sh).width (places.map (s.elemAt sh)), count := k, writes := [], lines := [] },
        ((s.touchPlaces false (s.readSh st.ish) (s.indexPlaces st ps)).touchPlaces false sh places).crossPages q .read ps)

/-- A fault of a queue: its code with the queue number (R354). -/
def queueFault (code : Nat) (q : QReg) : Stop := .trap { code := code, info := q.setWidth 64 }

/-- Is the stream one that fetches? -/
def Stream.fetches (st : Stream) : Bool := st.dir == .read || st.dir == .gather

/-- Fetch ahead one entry of a read stream, when it may (R140); a fault is held back against the entry (R147). A wait for a group or a
stack is no fault, nor for a bank (R422): nothing is fetched then. -/
def State.streamFetch (s : State) (q : QReg) : State :=
  let st := s.stream q
  if st.fetches && decide ((s.queue q).length < 8) && st.held.isNone && decide (st.spec < st.n) then
    match s.fetchEntry q with
    | .ok (e, s) => (s.setQueue q (s.queue q ++ [e])).setStream q { st with spec := st.spec + e.count }
    | .error f => match f with
      | .trap _ | .park _ => s.setStream q { st with held := some f }
      | .bank pa => s.bankWait pa
      | _ => s
  else s

/-- Pop one entry (R66 to R68, R145, R147). An entry not yet fetched is fetched now, for the wait has no other end; the fault of its fetch
is kept against it. -/
def State.popQ (s : State) (q : QReg) : Except Stop (Vec × State) :=
  let st := s.stream q
  match st.dir with
  | .write => .error (queueFault 13 q)
  | .closed => .error (queueFault 12 q)
  | _ =>
    match s.queue q with
    | e :: rest => .ok (e.data, (s.setQueue q rest).setStream q { st with com := st.com + e.count })
    | [] =>
      match st.held with
      | some (.trap e) => .error (.pop q st.spec (.trap e))
      | _ =>
        if st.n ≤ st.spec then .error (queueFault 12 q)
        else match s.fetchEntry q with
          | .error f => .error (.pop q st.spec f)
          | .ok (e, s) => .ok (e.data, s.setStream q { st with com := st.com + e.count, spec := st.spec + e.count, held := none })

/-- What an element of a write stream will write (R148). -/
def maskedBytes (sh : BitVec 512) (e : ElemPlace) (v : Nat) : List (Loc × Byte × List Byte) :=
  let x := elemBits sh e.high v
  elemWrites x.1 e.parts x.2

/-- Write the oldest accepted entry of a write stream (R148, R155); one whose write waits for a stack holds the context (R427). -/
def State.streamWrite (s : State) (q : QReg) : State :=
  let st := s.stream q
  match st.dir, s.queue q with
  | .write, e :: rest => ((s.drainEntries [e]).setQueue q rest).setStream q { st with com := st.com + e.count }
  | _, _ => s

/-- Write every accepted entry of a write stream. -/
def State.drainQ (s : State) (q : QReg) : State := if (s.stream q).dir == .write then s.drainStream q.toFin else s

/-- The other write streams are written before an entry is pushed to one (DESIGN CHOICE, log 37). -/
def State.settleOthers (s : State) (q : QReg) : State :=
  (List.finRange 8).foldl (fun t i =>
    if t.img.q[i].dir == .write && i.val != q.toNat then t.drainQ (BitVec.ofNat 3 i.val) else t) s

/-- The lines that the elements of a virtual walk lie in. -/
def State.elemLines (s : State) (sh : BitVec 512) (idxs : List (List Nat)) : List Nat :=
  match shSpace sh with
  | .virt => idxs.flatMap (fun idx => match s.nibbleOf sh 0 idx (2 * shBase sh : Nat) with
      | .ok a => (linesOf (lowBits 65 a / 2) (shBytes sh)).map (128 * ·)
      | .error _ => [])
  | _ => []

/-- Capture for the journal the lines that the elements of a virtual walk will write (R335). -/
def State.journalElems (s : State) (sh : BitVec 512) (idxs : List (List Nat)) : Except Stop State :=
  match s.self with
  | none => .ok s
  | some c => if c.journal.isNone then .ok s else s.journalLines c.handle (s.elemLines sh idxs).dedup

/-- Every accepted entry of a write stream can be written, and none that was waits for its stack; otherwise that stack holds the context
(R426, R427). -/
def State.queueSettled (s : State) (q : QReg) : Except Stop Unit :=
  if (s.stream q).dir != .write then .ok ()
  else match (s.core.handle.bind s.postedBy).orElse (fun _ => (s.queue q).findSome? s.entryHeld) with
    | some k => .error (.hold (.stack k) false)
    | none => .ok ()

/-- The stack that keeps a queue from room for one more entry: its oldest entry waits for it, when it is full, or an entry of another
write stream, which is written before (R426; log 37). -/
def State.pushHeld (s : State) (q : QReg) : Option Nat :=
  (List.finRange 8).findSome? (fun i =>
    if s.img.q[i].dir != .write then none
    else if i.val != q.toNat then s.core.queues[i].findSome? s.entryHeld
    else if 8 ≤ s.core.queues[i].length then s.core.queues[i].head?.bind s.entryHeld
    else none)

/-- Push one entry (R66 to R68, R145, R148): every position is checked and record space held (R336), then the entry is accepted. A full queue
writes its oldest entry first, which holds the context where that waits for a stack (R427). An entry over the register space is written at once,
for later reads wait for it (R57). -/
def State.pushQ (s : State) (q : QReg) (v : Vec) : Except Stop State :=
  let st := s.stream q
  match st.dir with
  | .read | .gather => .error (queueFault 13 q)
  | .closed => .error (queueFault 12 q)
  | .write =>
    if st.n ≤ st.spec then .error (queueFault 12 q)
    else do
      let sh := s.readSh st.sh
      let k := st.entryCount sh st.spec
      let ps := (List.range k).map (st.spec + ·)
      let places ← ps.mapM (s.streamPlace .write st)
      match s.pushHeld q with
      | some k => .error (.hold (.stack k) false)
      | none => pure ()
      let (s, lines) ← s.journalHold (s.elemLines sh (ps.map (shIndex sh)))
      let s := s.settleOthers q
      let s := if 8 ≤ (s.queue q).length then s.streamWrite q else s
      let s := s.crossPages q .write ps
      let xs := places.zip (vecElems (shFmtD sh).width v)
      let st := s.stream q
      let e : QEntry := { data := v, count := k, writes := xs.flatMap (fun (e, x) => maskedBytes sh e x), lines := lines }
      let t := (s.setQueue q (s.queue q ++ [e])).setStream q { st with spec := st.spec + k }
      pure (if shSpace sh == .reg then t.drainQ q else t)

/-- Close a stream (R145): a write stream is drained, a read stream's entries are discarded; an error held back there was consumed by no
instruction (R355). -/
def State.closeQ (s : State) (q : QReg) : State :=
  match (s.stream q).dir with
  | .closed => s
  | _ => ((((s.drainQ q).setQueue q []).setStream q Stream.closed).setPages q none none).countUnused (s.stream q).held

/-- Open a stream (R145, R150, R163): the queue must be closed and the shapes pass their check, that of the data first (DESIGN CHOICE,
log 88). -/
def State.openQ (s : State) (dir : StreamDir) (q : QReg) (cl : BitVec 4) (a b : ShReg) : Except Stop State := do
  if (s.stream q).dir != .closed then .error (queueFault 11 q)
  let sh ← s.shape a
  let n ← match dir with
    | .gather => do
      let ish ← s.shape b
      if shRank ish != 1 || !(shFmt ish == some .int32 || shFmt ish == some .uint32) then .error (shapeFault b)
      pure (shExt ish 0 * shProduct sh (shRank sh - 1))
    | _ => pure (shLength sh)
  pure (((s.setQueue q []).setPages q none none).setStream q
    { dir := dir, sh := a, ish := if dir == .gather then b else 0, cl := cl, n := n, com := 0, spec := 0, dist := 4096, held := none })

/-- Drop the queued entries that `skip` elements cover. -/
def dropEntries : List QEntry → Nat → List QEntry
  | [], _ => []
  | e :: rest, skip => if e.count ≤ skip then dropEntries rest (skip - e.count) else e :: rest

/-- ADV at its boundary (R163): the boundary position is the consumed one of a read stream, the accepted one of a write
stream. A read stream that has fetched its last entry and still holds entries is not exhausted for it (DESIGN CHOICE, log 91). -/
def State.advQ (s : State) (q : QReg) (b : Nat) : Except Stop State :=
  let st := s.stream q
  let e := shElems (s.readSh st.sh)
  match st.dir with
  | .closed => .error (queueFault 11 q)
  | .write =>
    let skip := min (b * e) (st.n - st.spec)
    .ok (s.setStream q { st with spec := st.spec + skip, com := st.com + skip })
  | _ =>
    let skip := min (b * e) (st.n - st.com)
    let com := st.com + skip
    let t := (s.setQueue q (dropEntries (s.queue q) skip)).setStream q
      { st with com := com, spec := max st.spec com, held := if st.spec < com then none else st.held }
    .ok (t.countUnused (if st.spec < com then st.held else none))

/-- Does an open stream name the shape register? Writing it then is the stream-state fault (R146), whose INFO is the lowest-numbered queue
that names it (DESIGN CHOICE, log 95). -/
def State.shapeFree (s : State) (n : ShReg) : Except Stop Unit :=
  match (List.finRange 8).find? (fun q =>
      let st := s.img.q[q]
      st.dir != .closed && (st.sh == n || (st.dir == .gather && st.ish == n))) with
  | some q => .error (queueFault 11 (BitVec.ofNat 3 q.val))
  | none => .ok ()

/-! The scale queue (R159, R194, R195). -/

/-- The queue-imbalance fault of the scale queue: queue number 8 (R354). -/
def scaleImbalance : Stop := .trap { code := 12, info := 8 }

/-- A vector-unit filler pushes an entry; four entries unconsumed are the fault of R195. -/
def State.scaleFill (s : State) (e : BitVec 256) : Except Stop State :=
  if 4 ≤ s.img.scq.length then .error scaleImbalance else .ok (s.setImg { s.img with scq := s.img.scq ++ [e] })

/-- SCLD fills behind what is there: with four entries it is outstanding until one leaves (R159, R160; DEDUCED, log 31). -/
def State.scaleLoad (s : State) (e : BitVec 256) : State :=
  if s.img.scq.length < 4 then s.setImg { s.img with scq := s.img.scq ++ [e] } else s.setImg { s.img with late := s.img.late ++ [e] }

/-- Consume the oldest entry, which lets the oldest outstanding SCLD fill; with none, and no filler before it, the fault of R194. -/
def State.scaleTake (s : State) : Except Stop (BitVec 256 × State) :=
  match s.img.scq with
  | [] => .error scaleImbalance
  | e :: rest => .ok (e, s.setImg { s.img with scq := rest ++ s.img.late.take 1, late := s.img.late.drop 1 })

/-- Consume `n` entries, oldest first. -/
def State.scaleTakeN (s : State) : Nat → Except Stop (List (BitVec 256) × State)
  | 0 => .ok ([], s)
  | n + 1 => do
    let (e, s) ← s.scaleTake
    let (es, s) ← s.scaleTakeN n
    pure (e :: es, s)

end Sys2Proof.Machine
end

