-- ==== Sys2Proof/Machine/Operands.lean ====
section
/-!
DEFINITION. Operand forms: the register windows of R58, vector operands that name a register or a queue (R66, R67, R173),
the second source that a literal may replace, wide operands (R182), masks and the loop over elements (R176).
-/

namespace Sys2Proof.Machine

open Sys2Proof

/-! Register windows (R58). -/

/-- Byte offset of vN. -/
def State.offV (s : State) (n : Nat) : Nat := ((s.img.viewV.extractLsb' 9 8).toNat * 512 + 512 * n) % regBytes
/-- Byte offset of tN. -/
def State.offT (s : State) (n : Nat) : Nat := ((s.img.viewT.extractLsb' 12 5).toNat * 4096 + 4096 * n) % regBytes
/-- Byte offset of accN. -/
def State.offAcc (s : State) (n : Nat) : Nat := ((s.img.viewAcc.extractLsb' 14 3).toNat * 16384 + 16384 * n) % regBytes

/-- The bytes of a register-space run, which wraps at 131,072 (R55). -/
def State.regBytesAt (s : State) (off n : Nat) : List Byte := s.bytesOver (regParts off n)

/-- Write a register-space run, which wraps at 131,072 (R55). -/
def State.putReg (s : State) (off : Nat) (bs : List Byte) : State := s.storeParts (regParts off bs.length) bs

/-- Read a vector register. -/
def State.readV (s : State) (n : VReg) : Vec := vecOfBytes (s.regBytesAt (s.offV n.val) 512)
/-- Write a vector register. -/
def State.writeV (s : State) (n : VReg) (v : Vec) : State := s.putReg (s.offV n.val) (bytesOfVec v)

/-! Vector operands. -/

/-- Read a vector source: a register, or the next entry of a queue (R66). -/
def State.readVOp (s : State) (o : VOp) : Except Stop (Vec × State) :=
  match o with
  | .reg n => .ok (s.readV n, s)
  | .queue q => s.popQ q

/-- Write a vector destination: a register, or an entry pushed (R66). -/
def State.writeVOp (s : State) (o : VOp) (v : Vec) : Except Stop State :=
  match o with
  | .reg n => .ok (s.writeV n v)
  | .queue q => s.pushQ q v

/-- A second source: an operand, or the literal that replaces it (R173). -/
inductive VSrc where
  | op (v : VOp)
  | lit (l : BitVec 32)
deriving DecidableEq, Repr

/-- A second source as read. -/
inductive BVal where
  | vec (v : Vec)
  | lit (l : BitVec 32)
deriving DecidableEq, Repr

/-- Read a second source. -/
def State.readSrc (s : State) (b : VSrc) : Except Stop (BVal × State) :=
  match b with
  | .op o => do
    let (v, s) ← s.readVOp o
    pure (.vec v, s)
  | .lit l => .ok (.lit l, s)

/-- The elements of a vector in a format, as patterns. -/
def fmtElems (f : Fmt) (v : Vec) : List Nat := vecElems f.width v

/-- The element count of a format (R172). -/
def Fmt.count (f : Fmt) : Nat := 4096 / f.width

/-- A second source as exact integers: a literal is sext(LIT) in every element (R173). -/
def BVal.ints (f : Fmt) (b : BVal) : List Int :=
  match b with
  | .vec v => (fmtElems f v).map (intOf f)
  | .lit l => List.replicate (Fmt.count f) l.toInt

/-- A second source as floating-point values: a literal is LIT read as FP32 (R173). -/
def BVal.floats (f : Fmt) (b : BVal) : List FVal :=
  match b with
  | .vec v => (fmtElems f v).map (fpDecode f)
  | .lit l => List.replicate (Fmt.count f) (fpDecode .fp32 l.toNat)

/-- A second source as bit patterns: a literal is LIT[w-1:0] (R173). -/
def BVal.patterns (f : Fmt) (b : BVal) : List Nat :=
  match b with
  | .vec v => fmtElems f v
  | .lit l => List.replicate (Fmt.count f) (l.toNat % 2 ^ f.width)

/-- The elements an inactive position keeps: of the old register, or zero for a queue (R173). -/
def State.oldElems (s : State) (f : Fmt) (d : VOp) : List Nat :=
  match d with
  | .reg n => fmtElems f (s.readV n)
  | .queue _ => List.replicate (Fmt.count f) 0

/-- The loop of R176 from element `i` on: active elements take the result of `f`, given the element number, x, y and the
old element; the others keep the old element. Flags are merged over the active elements (R83). -/
def elemLoop {α β : Type} (m : BitVec 1024) (f : Nat → α → β → Nat → Nat × Flags) : Nat → List α → List β → List Nat → List Nat × Flags
  | i, x :: xs, y :: ys, o :: os =>
    let (rs, fs) := elemLoop m f (i + 1) xs ys os
    if maskBit m i then
      let (r, fl) := f i x y o
      (r :: rs, fl ||| fs)
    else (o :: rs, fs)
  | _, _, _, _ => ([], 0)

/-- The loop over one source without mask: results and flags. -/
def mapLoop {α : Type} (f : Nat → α → Nat × Flags) : Nat → List α → List Nat × Flags
  | _, [] => ([], 0)
  | i, x :: xs =>
    let (r, fl) := f i x
    let (rs, fs) := mapLoop f (i + 1) xs
    (r :: rs, fl ||| fs)

/-! Wide operands (R182). -/

/-- Read `r` consecutive registers, or pop `r` entries. -/
def State.readWide (s : State) (o : VOp) : Nat → Except Stop (List Vec × State)
  | 0 => .ok ([], s)
  | r + 1 =>
    match o with
    | .reg n => .ok ((List.range (r + 1)).map (fun i => vecOfBytes (s.regBytesAt (s.offV (n.val + i)) 512)), s)
    | .queue q => do
      let (v, s) ← s.popQ q
      let (vs, s) ← s.readWide (.queue q) r
      pure (v :: vs, s)

/-- Write consecutive registers from the operand's on, or push entries, in order. -/
def State.writeWide (s : State) (o : VOp) : List Vec → Except Stop State
  | [] => .ok s
  | v :: vs =>
    match o with
    | .reg n => .ok (((v :: vs).zipIdx).foldl (fun t (v, i) => t.putReg (t.offV (n.val + i)) (bytesOfVec v)) s)
    | .queue q => do
      let s ← s.pushQ q v
      s.writeWide (.queue q) vs

/-- Interleave lists: element i from list (i mod r), position (i div r) (R182). -/
def interleave (ls : List (List Nat)) : List Nat :=
  go (match ls with | [] => 0 | l :: _ => l.length) ls
where
  go : Nat → List (List Nat) → List Nat
    | 0, _ => []
    | n + 1, ls => ls.filterMap List.head? ++ go n (ls.map List.tail)

/-- The elements of a list whose number is `j` modulo `r`. -/
def everyNth (r j : Nat) (xs : List Nat) : List Nat := (xs.zipIdx.filter (fun x => x.2 % r == j)).map (·.1)

/-- The registers of a wide side that hold a list of elements: element i in register i mod r (R182). -/
def deinterleave (w r : Nat) (xs : List Nat) : List Vec := (List.range r).map (fun j => vecOfElems w (everyNth r j xs))

/-- How many registers the side of a format takes beside another format (R182). -/
def wideCount (f other : Fmt) : Nat := max 1 (f.width / other.width)

/-- Read the elements of a source format whose other side is a format (R182). -/
def State.readElems (s : State) (o : VOp) (sf f : Fmt) : Except Stop (List Nat × State) := do
  let (vs, s) ← s.readWide o (wideCount sf f)
  pure (interleave (vs.map (fmtElems sf)), s)

/-- Write the elements of a destination format whose other side is a format (R182). -/
def State.writeElems (s : State) (o : VOp) (f sf : Fmt) (xs : List Nat) : Except Stop State :=
  s.writeWide o (deinterleave f.width (wideCount f sf) xs)

end Sys2Proof.Machine
end

