-- ==== Sys2Proof/Machine/Access.lean ====
section
/-!
DEFINITION. The access instructions (R157 to R166): the shared bodies first, then one meaning per row.
-/

namespace Sys2Proof.Machine

open Sys2Proof

/-! Bodies. -/

/-- SHLD (R162): no open stream names the register (R146), which is checked first (DESIGN CHOICE, log 88), a multiple of 64, and the
checks of its space. -/
def shldBody (sp : Space) (d : ShReg) (ea : Word) (s : State) : Except Stop State := do
  s.shapeFree d
  let bs ← s.loadChecked sp (some .thread) ea 64
  pure ((s.touchRead sp ea.toNat 64).writeSh d (BitVec.ofNat 512 (natOfBytes bs)))

/-- SHST (R162). -/
def shstBody (sp : Space) (d : ShReg) (ea : Word) (s : State) : Except Stop State :=
  s.settleWrites.storeChecked sp (some .thread) .write ea (bytesOfNat 64 (s.readSh d).toNat)

/-- Word `n` of a shape register (R141). -/
def shWord (sh : BitVec 512) (n : BitVec 3) : Word := sh.extractLsb' (64 * n.toNat) 64

/-- Replace word `n` of a shape register (R141). -/
def shPut (sh : BitVec 512) (n : BitVec 3) (v : Word) : BitVec 512 :=
  (sh &&& ~~~((BitVec.allOnes 64).setWidth 512 <<< (64 * n.toNat))) ||| ((v.setWidth 512) <<< (64 * n.toNat))

/-- SHSET (R162). -/
def shsetBody (d : ShReg) (n : BitVec 3) (v : Word) (s : State) : Except Stop State := do
  s.shapeFree d
  pure (s.writeSh d (shPut (s.readSh d) n v))

/-- The positions `P + i` that a vector access takes: those of active elements inside the walk, with their element numbers. -/
def activePositions (sh : BitVec 512) (p : Nat) (act : Nat → Bool) : List (Nat × Nat) :=
  ((List.range (shElems sh)).filter (fun i => act i && decide (p + i < shLength sh))).map (fun i => (i, p + i))

/-- Locate and check positions in ascending order; the first fault decides (R165). -/
def State.placesOf (s : State) (acc : Acc) (sh : BitVec 512) (ps : List (Nat × Nat)) : Except Stop (List (Nat × ElemPlace)) :=
  ps.mapM (fun (i, p) => do
    let e ← s.elemPlace acc sh (shIndex sh p)
    pure (i, e))

/-- Put elements at their numbers into a list of patterns. -/
def putAt (xs : List Nat) (ys : List (Nat × Nat)) : List Nat := xs.mapIdx (fun i x => (ys.lookup i).getD x)

/-- VLD (R165). -/
def vldBody (d : VReg) (a : ShReg) (p : Word) (c : MReg) (s : State) : Except Stop State := do
  let sh ← s.shape a
  let w := (shFmtD sh).width
  let m := s.readM c
  let places ← s.placesOf .read sh (activePositions sh p.toNat (maskBit m))
  let got := places.map (fun (i, e) => (i, s.elemAt sh e))
  let old := (vecElems w (s.readV d)).mapIdx (fun i x => if maskBit m i then 0 else x)
  pure ((s.touchPlaces false sh (places.map (·.2))).writeV d (vecOfElems w (putAt old got)))

/-- VST (R165): every active element is checked, then stored in ascending order. -/
def vstBody (d : VReg) (a : ShReg) (p : Word) (c : MReg) (s : State) : Except Stop State := do
  let sh ← s.shape a
  let m := s.readM c
  let ps := activePositions sh p.toNat (maskBit m)
  let places ← s.placesOf .write sh ps
  let xs := vecElems (shFmtD sh).width (s.readV d)
  let s ← s.settleWrites.journalElems sh (ps.map (fun (_, q) => shIndex sh q))
  pure (places.foldl (fun t (i, e) => t.putElem sh e (xs.getD i 0)) (s.touchPlaces true sh (places.map (·.2))))

/-- An element that PLD probes: located, or on a page that is mapped and not resident (R157). Of an element over two pages the lower
one decides (DESIGN CHOICE, log 89). -/
def State.probe (s : State) (sh : BitVec 512) (p : Nat) : Except Stop (Option ElemPlace) :=
  match s.elemPlace .read sh (shIndex sh p) with
  | .ok e => .ok (some e)
  | .error (.park _) => .ok none
  | .error st => .error st

/-- PLD (R157): never parks on residency; the mask marks the elements that were not resident. -/
def pldBody (d : VReg) (a : ShReg) (p : Word) (c : MReg) (s : State) : Except Stop State := do
  let sh ← s.shape a
  let w := (shFmtD sh).width
  let got ← (activePositions sh p.toNat (fun _ => true)).mapM (fun (i, q) => do
    let e ← s.probe sh q
    pure (i, e))
  let vals := got.filterMap (fun (i, e) => e.map (fun e => (i, s.elemAt sh e)))
  let away := got.filterMap (fun (i, e) => match e with | none => some i | some _ => none)
  let s := (s.touchPlaces false sh (got.filterMap (·.2))).writeV d (vecOfElems w (putAt (List.replicate (shElems sh) 0) vals))
  pure (s.writeM c (maskOfBits ((List.range (shElems sh)).map (fun i => away.contains i))))

/-- The page of a virtual address that RESIDE asks for, if any (R158): mapped and not resident. Only such a page must be readable
(DESIGN CHOICE, log 90). -/
def State.absentPage (s : State) (va : Nat) : Except Stop (Option Nat) :=
  match s.windowAt s.core.part va, s.pageAt s.core.part va with
  | none, some p =>
    if p.st == .resident then .ok none
    else match s.translate .read va with
      | .error (.park _) => .ok (some p.va)
      | .error st => .error st
      | .ok _ => .ok none
  | _, _ => .ok none

/-- The distinct pages of the positions of RESIDE, in order (R158). -/
def State.absentPages (s : State) (sh : BitVec 512) (ps : List (Nat × Nat)) : Except Stop (List Nat) := do
  let vs ← ps.mapM (fun (_, p) => do
    let a ← s.nibbleOf sh 0 (shIndex sh p) (2 * shBase sh : Nat)
    let byte := lowBits 65 a / 2
    if 2 ^ 57 ≤ byte then .error (trapAt 5 (BitVec.ofNat 64 byte) 0)
    else (cut byte (shBytes sh)).mapM (fun (va, _) => s.absentPage va))
  pure ((vs.flatten.filterMap id).dedup)

/-- RESIDE (R158): level-1 recalls of the distinct pages, whose number sD takes; the context remembers them (R293). A page on its way to
its target counts, and is not recalled again (DESIGN CHOICE, log 90). -/
def resideBody (d : SReg) (a : ShReg) (p : Word) (c : MReg) (s : State) : Except Stop State := do
  let sh ← s.shape a
  let ps := activePositions sh p.toNat (maskBit (s.readM c))
  let pages ← if shSpace sh == .virt then s.absentPages sh ps else pure []
  let s := pages.foldl (fun t va => t.recall t.core.part va 1) s
  let s := match s.core.handle with
    | some h => s.updCtx h (fun c => { c with resides := pages ++ c.resides })
    | none => s
  pure (s.writeS d (BitVec.ofNat 64 pages.length))

/-- SCLD (R160): 32 bytes of scales from 32 one-byte or 16 BF16 positions. A shape over the register space, which SCLD is not among
the ways to reach (R55), raises the shape fault (DEDUCED, log 83). -/
def scldBody (a : ShReg) (p : Word) (s : State) : Except Stop State := do
  let sh ← s.shape a
  if shSpace sh == .reg then .error (shapeFault a)
  let m ← match shFmt sh with
    | some .e8m0 | some .ue4m3 => pure 32
    | some .bf16 => pure 16
    | _ => .error (shapeFault a)
  let ps := ((List.range m).filter (fun i => decide (p.toNat + i < shLength sh))).map (fun i => (i, p.toNat + i))
  let places ← s.placesOf .read sh ps
  let vals := places.map (fun (i, e) => (i, s.elemAt sh e))
  pure ((s.touchPlaces false sh (places.map (·.2))).scaleLoad (BitVec.ofNat 256 (packElems (shFmtD sh).width (putAt (List.replicate m 0) vals))))

/-- Where the oldest outstanding SCLD stands, once an SCLD has performed: its address, or of its REP prefix with the index. It may be
abandoned while nothing but SCLDs follows it (R159, R160); behind any other instruction it no longer is (log 31). -/
def Out.noteScld (o : Out) (s : State) : Out :=
  match o with
  | .next t => .next (if s.img.late.length < t.img.late.length && (s.core.scldAt.isSome || s.img.late.isEmpty) then
      { t with core := { t.core with scldAt := some (s.core.scldAt.getD (s.unitAddr, s.img.status.extractLsb' 8 7)) } } else t)
  | o => o

/-- PREF (R166): the shape fault is its only fault, and it changes no value that a program can observe. -/
def prefBody (a : ShReg) (s : State) : Except Stop State := do
  let _ ← s.shape a
  pure s

/-- CLOSE (R145): a write stream is drained first, which waits for a stack that does not serve (R426). -/
def closeBody (q : QReg) (s : State) : Except Stop State := do
  s.queueSettled q
  pure (s.closeQ q)

/-- DRAIN (R145, R163): it completes when every earlier entry is written. -/
def drainBody (q : QReg) (s : State) : Except Stop State := do
  s.queueSettled q
  pure (s.drainQ q)

/-- LOOKAHEAD (R163). -/
def lookaheadBody (q : QReg) (b : Word) (s : State) : Except Stop State :=
  let st := s.stream q
  if st.dir == .closed then .error (queueFault 11 q)
  else .ok (s.setStream q { st with dist := BitVec.ofNat 32 (min b.toNat 0xFFFFFFFF) })

/-- The value POSR reads (R164). -/
def posrWord (st : Stream) (n : Fin 3) : Word :=
  match st.dir, n.val with
  | .closed, _ => 0
  | _, 0 => BitVec.ofNat 64 st.com
  | _, 1 => BitVec.ofNat 64 st.spec
  | _, _ => BitVec.ofNat 64 st.n

/-! Meanings. -/

/-- SHLD (R162). -/
def execShld (g : Guard) (_cl : BitVec 4) (sp : Space) (d : ShReg) (a : SReg) (b : SReg) (s : State) : Out :=
  perform unitAU g 8 (fun s => shldBody sp d (s.addrOf a (s.readS b)) s) s

/-- SHLD (R162), literal form. -/
def execShldLit (g : Guard) (_cl : BitVec 4) (sp : Space) (d : ShReg) (a : SReg) (lit : BitVec 32) (s : State) : Out :=
  perform unitAU g 12 (fun s => shldBody sp d (s.addrOf a (sextLit lit)) s) s

/-- SHST (R162). -/
def execShst (g : Guard) (_cl : BitVec 4) (sp : Space) (d : ShReg) (a : SReg) (b : SReg) (s : State) : Out :=
  perform unitAU g 8 (fun s => shstBody sp d (s.addrOf a (s.readS b)) s) s

/-- SHST (R162), literal form. -/
def execShstLit (g : Guard) (_cl : BitVec 4) (sp : Space) (d : ShReg) (a : SReg) (lit : BitVec 32) (s : State) : Out :=
  perform unitAU g 12 (fun s => shstBody sp d (s.addrOf a (sextLit lit)) s) s

/-- SHSET (R162). -/
def execShset (g : Guard) (d : ShReg) (b : SReg) (c : BitVec 3) (s : State) : Out :=
  perform unitAU g 8 (fun s => shsetBody d c (s.readS b) s) s

/-- SHSET (R162), literal form. -/
def execShsetLit (g : Guard) (d : ShReg) (lit : BitVec 32) (c : BitVec 3) (s : State) : Out :=
  perform unitAU g 12 (fun s => shsetBody d c (sextLit lit) s) s

/-- SHGET (R162). -/
def execShget (g : Guard) (d : SReg) (a : ShReg) (c : BitVec 3) (s : State) : Out :=
  perform unitAU g 8 (fun s => .ok (s.writeS d (shWord (s.readSh a) c))) s

/-- SHMOV (R162). -/
def execShmov (g : Guard) (d a : ShReg) (s : State) : Out :=
  perform unitAU g 8 (fun s => do
    s.shapeFree d
    pure (s.writeSh d (s.readSh a))) s

/-- OPEN.R (R145, R163). -/
def execOpenR (g : Guard) (cl : BitVec 4) (d : QReg) (a : ShReg) (s : State) : Out :=
  perform unitAU g 8 (fun s => s.openQ .read d cl a 0) s

/-- OPEN.W (R145, R163). -/
def execOpenW (g : Guard) (cl : BitVec 4) (d : QReg) (a : ShReg) (s : State) : Out :=
  perform unitAU g 8 (fun s => s.openQ .write d cl a 0) s

/-- OPEN.G (R150, R163). -/
def execOpenG (g : Guard) (cl : BitVec 4) (d : QReg) (a b : ShReg) (s : State) : Out :=
  perform unitAU g 8 (fun s => s.openQ .gather d cl a b) s

/-- ADV (R163). -/
def execAdv (g : Guard) (d : QReg) (b : SReg) (s : State) : Out :=
  perform unitAU g 8 (fun s => s.advQ d (BitVec.toNat (s.readS b))) s

/-- ADV (R163), literal form. -/
def execAdvLit (g : Guard) (d : QReg) (lit : BitVec 32) (s : State) : Out :=
  perform unitAU g 12 (fun s => s.advQ d (BitVec.toNat (zextLit lit))) s

/-- CLOSE (R145). -/
def execClose (g : Guard) (d : QReg) (s : State) : Out :=
  perform unitAU g 8 (closeBody d) s

/-- DRAIN (R145, R163). -/
def execDrain (g : Guard) (d : QReg) (s : State) : Out :=
  perform unitAU g 8 (drainBody d) s

/-- PLD (R157). -/
def execPld (g : Guard) (_cl : BitVec 4) (d : VReg) (a : ShReg) (b : SReg) (c : MReg) (s : State) : Out :=
  perform unitAU g 8 (fun s => pldBody d a (s.readS b) c s) s

/-- PLD (R157), literal form. -/
def execPldLit (g : Guard) (_cl : BitVec 4) (d : VReg) (a : ShReg) (lit : BitVec 32) (c : MReg) (s : State) : Out :=
  perform unitAU g 12 (fun s => pldBody d a (zextLit lit) c s) s

/-- RESIDE (R158). -/
def execReside (g : Guard) (d : SReg) (a : ShReg) (b : SReg) (c : MReg) (s : State) : Out :=
  perform unitAU g 8 (fun s => resideBody d a (s.readS b) c s) s

/-- RESIDE (R158), literal form. -/
def execResideLit (g : Guard) (d : SReg) (a : ShReg) (lit : BitVec 32) (c : MReg) (s : State) : Out :=
  perform unitAU g 12 (fun s => resideBody d a (zextLit lit) c s) s

/-- LOOKAHEAD (R163). -/
def execLookahead (g : Guard) (d : QReg) (b : SReg) (s : State) : Out :=
  perform unitAU g 8 (fun s => lookaheadBody d (s.readS b) s) s

/-- LOOKAHEAD (R163), literal form. -/
def execLookaheadLit (g : Guard) (d : QReg) (lit : BitVec 32) (s : State) : Out :=
  perform unitAU g 12 (fun s => lookaheadBody d (zextLit lit) s) s

/-- POSR (R164). -/
def execPosr (g : Guard) (d : SReg) (a : QReg) (c : Fin 3) (s : State) : Out :=
  perform unitAU g 8 (fun s => .ok (s.writeS d (posrWord (s.stream a) c))) s

/-- QCNT (R164). -/
def execQcnt (g : Guard) (d : SReg) (a : QReg) (s : State) : Out :=
  perform unitAU g 8 (fun s => .ok (s.writeS d (BitVec.ofNat 64 (s.queue a).length))) s

/-- VLD (R165). -/
def execVld (g : Guard) (_cl : BitVec 4) (d : VReg) (a : ShReg) (b : SReg) (c : MReg) (s : State) : Out :=
  perform unitAU g 8 (fun s => vldBody d a (s.readS b) c s) s

/-- VLD (R165), literal form. -/
def execVldLit (g : Guard) (_cl : BitVec 4) (d : VReg) (a : ShReg) (lit : BitVec 32) (c : MReg) (s : State) : Out :=
  perform unitAU g 12 (fun s => vldBody d a (zextLit lit) c s) s

/-- VST (R165). -/
def execVst (g : Guard) (_cl : BitVec 4) (d : VReg) (a : ShReg) (b : SReg) (c : MReg) (s : State) : Out :=
  perform unitAU g 8 (fun s => vstBody d a (s.readS b) c s) s

/-- VST (R165), literal form. -/
def execVstLit (g : Guard) (_cl : BitVec 4) (d : VReg) (a : ShReg) (lit : BitVec 32) (c : MReg) (s : State) : Out :=
  perform unitAU g 12 (fun s => vstBody d a (zextLit lit) c s) s

/-- SCLD (R160). -/
def execScld (g : Guard) (_cl : BitVec 4) (a : ShReg) (b : SReg) (s : State) : Out :=
  Out.noteScld (perform unitAU g 8 (fun s => scldBody a (s.readS b) s) s) s

/-- SCLD (R160), literal form. -/
def execScldLit (g : Guard) (_cl : BitVec 4) (a : ShReg) (lit : BitVec 32) (s : State) : Out :=
  Out.noteScld (perform unitAU g 12 (fun s => scldBody a (zextLit lit) s) s) s

/-- PREF (R166). -/
def execPref (g : Guard) (a : ShReg) (_b : SReg) (_c : Fin 2) (s : State) : Out :=
  perform unitAU g 8 (fun s => prefBody a s) s

/-- PREF (R166), literal form. -/
def execPrefLit (g : Guard) (a : ShReg) (_lit : BitVec 32) (_c : Fin 2) (s : State) : Out :=
  perform unitAU g 12 (fun s => prefBody a s) s

end Sys2Proof.Machine
end

