-- ==== Sys2Proof/Machine/Special.lean ====
section
/-!
DEFINITION. The special functions of R179. A result is given to `roundTo` as a value that every rounding mode treats as it
treats the exact result: the exact value where it is a multiple of 2^-24 of the destination's unit in the last place, and
otherwise the middle of the cell of that grid which the exact value lies in. Nearest, directed and stochastic rounding and
the flags look at nothing finer than the cell (R85, R93).

1/x, √x and 1/√x find their cell by exact integer arithmetic. 2^x, log2 x and tanh x are irrational but for the cases
named, so their cell is found by interval arithmetic, at 256 bits and then at 512, 1024 and 2048; log 32 (UNVERIFIED) says what happens
if the interval at 2048 bits still holds a boundary.
-/

namespace Sys2Proof.Machine

open Sys2Proof

/-- The six functions. -/
inductive SpecialFn where
  | rcp | rsq | sqrt | exp2 | log2 | tanh
deriving DecidableEq, Repr

/-- The exponent of the cells of a result in the binade `2^l` (R85, R93). -/
def cellExp (f : Fmt) (l : Int) : Int := max (l - f.fp.mb) (1 - (f.fp.bias : Int) - f.fp.mb) - 24

/-- The value that stands for a cell: its lower edge when exact, otherwise its middle. -/
def cellValue (neg : Bool) (c : Nat) (q : Int) (exact : Bool) : FVal :=
  if exact then .fin neg c q else .fin neg (2 * c + 1) (q - 1)

/-- 1/x for a nonzero magnitude `m * 2^e`. -/
def rcpCell (f : Fmt) (neg : Bool) (m : Nat) (e : Int) : FVal :=
  let lm : Int := Nat.log2 m
  let l : Int := (if 2 ^ Nat.log2 m = m then -lm else -lm - 1) - e
  let q := cellExp f l
  let n := 2 ^ (-e - q).toNat
  cellValue neg (n / m) q (n % m = 0)

/-- Make the exponent even. -/
def evenExp (m : Nat) (e : Int) : Nat × Int := if e % 2 = 0 then (m, e) else (2 * m, e - 1)

/-- √x for a nonzero magnitude. -/
def sqrtCell (f : Fmt) (m : Nat) (e : Int) : FVal :=
  let (m, e) := evenExp m e
  let l : Int := (Nat.log2 m / 2 : Nat) + e / 2
  let q := cellExp f l
  let n := m * 4 ^ (e / 2 - q).toNat
  let c := Nat.sqrt n
  cellValue false c q (c * c = n)

/-- 1/√x for a nonzero magnitude. -/
def rsqCell (f : Fmt) (m : Nat) (e : Int) : FVal :=
  let (m, e) := evenExp m e
  let up : Nat := if m ≤ 1 then 0 else Nat.log2 (m - 1) / 2 + 1
  let l : Int := -(up : Int) - e / 2
  let q := cellExp f l
  let n := 4 ^ (-(e / 2) - q).toNat
  let c := Nat.sqrt (n / m)
  cellValue false c q (c * c * m = n)

/-! Fixed-point series over 2^-p. Every result below is within `slack` units of the exact value. -/

/-- The bound, in units of 2^-p, on the error of each series below at the precisions used. -/
def slack : Nat := 2 ^ 24

/-- The sum of `u^(2k+1) / (2k+1)`, from the term `t = u^(2k+1)`. -/
def atanhSum (p u2 : Nat) : Nat → Nat → Nat → Nat
  | 0, _, _ => 0
  | fuel + 1, k, t => t / (2 * k + 1) + atanhSum p u2 fuel (k + 1) (t * u2 / 2 ^ p)

/-- ln 2 = 2 atanh(1/3). -/
def ln2Fix (p : Nat) : Nat := 2 * atanhSum p (2 ^ p / 9) (p / 3 + 2) 0 (2 ^ p / 3)

/-- ln of `m / 2^b` in [1, 2]: 2 atanh((m - 2^b) / (m + 2^b)). -/
def lnFix (p m b : Nat) : Nat :=
  let u := (m - 2 ^ b) * 2 ^ p / (m + 2 ^ b)
  2 * atanhSum p (u * u / 2 ^ p) (p / 3 + 2) 0 u

/-- The sum of `z^k / k!` from the term `t` of number `k`. -/
def expSum (p z : Nat) : Nat → Nat → Nat → Nat
  | 0, _, _ => 0
  | fuel + 1, k, t => t + expSum p z fuel (k + 1) (t * z / 2 ^ p / (k + 1))

/-- 2^(f / 2^p) for a fraction f below 2^p. -/
def exp2Fix (p f : Nat) : Nat := expSum p (f * ln2Fix p / 2 ^ p) (p / 2 + 8) 0 (2 ^ p)

/-- The cell that an interval `[lo, hi] * 2^e` lies in, if it lies in one. -/
def cellOfInterval (f : Fmt) (neg : Bool) (lo hi : Nat) (e : Int) : Option FVal :=
  if lo = 0 || Nat.log2 lo != Nat.log2 hi then none
  else
    let q := cellExp f (Nat.log2 lo + e)
    let c (x : Nat) : Nat := if e < q then x / 2 ^ (q - e).toNat else x * 2 ^ (e - q).toNat
    if c lo = c hi then some (cellValue neg (c lo) q false) else none

/-- Try the precisions in turn; the last one stands though its interval holds a boundary (UNVERIFIED, log 32). -/
def refine (f : Fmt) (neg : Bool) (approx : Nat → Nat × Int) : List Nat → FVal
  | [] => .fin neg 0 0
  | p :: ps =>
    let (v, e) := approx p
    match cellOfInterval f neg (v - slack) (v + slack) e with
    | some x => x
    | none =>
      match ps with
      | [] => cellValue neg v e false
      | _ => refine f neg approx ps

/-- The precisions tried. -/
def precisions : List Nat := [256, 512, 1024, 2048]

/-- The dyadic `±m * 2^e` in units of 2^-p, floored. -/
def fixOf (neg : Bool) (m : Nat) (e : Int) (p : Nat) : Int :=
  let s : Int := if neg then -(m : Int) else m
  let k := e + p
  if 0 ≤ k then s * (2 ^ k.toNat : Nat) else s / (2 ^ (-k).toNat : Nat)

/-- 2^x for a nonzero finite x that is no integer, of magnitude at least 2^-60 and below 2^10. -/
def exp2Approx (neg : Bool) (m : Nat) (e : Int) (p : Nat) : Nat × Int :=
  let x := fixOf neg m e p
  let n : Int := x / (2 ^ p : Nat)
  let fr := (x % (2 ^ p : Nat)).toNat
  (exp2Fix p fr, n - p)

/-- 2^x (R179). -/
def exp2Val (f : Fmt) (neg : Bool) (m : Nat) (e : Int) : FVal :=
  if m = 0 then .fin false 1 0
  else if 10 ≤ floorLog2 m e then (if neg then .fin false 1 (-1100) else .fin false 1 1100)
  else if floorLog2 m e < -60 then (if neg then .fin false (2 ^ 61 - 1) (-61) else .fin false (2 ^ 60 + 1) (-60))
  else if 0 ≤ e || m % 2 ^ (-e).toNat = 0 then .fin false 1 (fixOf neg m e 0)
  else refine f false (exp2Approx neg m e) precisions

/-- log2 x for a positive x that is no power of two: the magnitude in units of 2^-p. -/
def log2Approx (m : Nat) (e : Int) (p : Nat) : Nat × Int :=
  let b := Nat.log2 m
  let frac : Int := (lnFix p m b * 2 ^ p / ln2Fix p : Nat)
  (((b + e) * (2 ^ p : Nat) + frac).natAbs, -(p : Int))

/-- log2 x (R179) for a positive magnitude. -/
def log2Val (f : Fmt) (m : Nat) (e : Int) : FVal :=
  let b := Nat.log2 m
  if 2 ^ b = m then FVal.ofInt (b + e)
  else refine f (decide ((b : Int) + e < 0)) (log2Approx m e) precisions

/-- tanh of a magnitude between 2^-40 and 2^6: (1 - y) / (1 + y) with y = e^(-2x). -/
def tanhApprox (m : Nat) (e : Int) (p : Nat) : Nat × Int :=
  let t := (fixOf false (2 * m) e (2 * p)).toNat / ln2Fix p
  let n := t / 2 ^ p
  let fr := t % 2 ^ p
  let y := exp2Fix p (2 ^ p - fr) / 2 ^ (n + 1)
  ((2 ^ p - y) * 2 ^ p / (2 ^ p + y), -(p : Int))

/-- tanh x (R179). -/
def tanhVal (f : Fmt) (neg : Bool) (m : Nat) (e : Int) : FVal :=
  if m = 0 then .fin neg 0 0
  else if floorLog2 m e < -40 then .fin neg (m * 2 ^ 60 - 1) (e - 60)
  else if 6 ≤ floorLog2 m e then .fin neg (2 ^ 80 - 1) (-80)
  else refine f neg (tanhApprox m e) precisions

/-- The result of a special function on a value, before it is rounded, with its DZ and NV flags (R179). -/
def specialVal (fn : SpecialFn) (f : Fmt) (x : FVal) : FVal × Flags :=
  match fn, x with
  | _, .nan => (.nan, 0)
  | .rcp, .inf n => (.fin n 0 0, 0)
  | .rcp, .fin n m e => if m = 0 then (.inf n, flagDZ) else (rcpCell f n m e, 0)
  | .rsq, .inf n => if n then (.nan, flagNV) else (.fin false 0 0, 0)
  | .rsq, .fin n m e => if m = 0 then (.inf n, flagDZ) else if n then (.nan, flagNV) else (rsqCell f m e, 0)
  | .sqrt, .inf n => if n then (.nan, flagNV) else (.inf false, 0)
  | .sqrt, .fin n m e => if m = 0 then (.fin n 0 0, 0) else if n then (.nan, flagNV) else (sqrtCell f m e, 0)
  | .exp2, .inf n => if n then (.fin false 0 0, 0) else (.inf false, 0)
  | .exp2, .fin n m e => (exp2Val f n m e, 0)
  | .log2, .inf n => if n then (.nan, flagNV) else (.inf false, 0)
  | .log2, .fin n m e => if m = 0 then (.inf true, flagDZ) else if n then (.nan, flagNV) else (log2Val f m e, 0)
  | .tanh, .inf n => (.fin n 1 0, 0)
  | .tanh, .fin n m e => (tanhVal f n m e, 0)

/-- A special function of an element, rounded (R179). -/
def specialElem (fn : SpecialFn) (f : Fmt) (ro : Rounding) (j n : Nat) : Nat × Flags :=
  let (v, fl) := specialVal fn f (fpDecode f n)
  let (r, fl') := roundTo f ro j v
  (r, fl ||| fl')

end Sys2Proof.Machine
end

