-- ==== Sys2Proof/Machine/Vector.lean ====
section
/-!
DEFINITION. The vector instructions (chapter 07): the shared bodies first, then one meaning per row.
-/

namespace Sys2Proof.Machine

open Sys2Proof

/-! Bodies. Each reads its sources in the order A, B (R67), computes, writes the destination, merges flags (R84) and takes
its SRG counter value (R91). -/

/-- End of a vector instruction: the destination is written, flags are merged, a counter value is taken. -/
def State.finishVec (s : State) (f : Fmt) (rm : Rm) (d : VOp) (res : List Nat × Flags) : Except Stop State := do
  let s ← s.writeVOp d (vecOfElems f.width res.1)
  pure ((s.orFlags res.2).drawFor rm)

/-- Element-wise arithmetic of two sources and the old destination (R176, R177): `fi` gives the exact integer, `fv` the
exact real with its NV flag. -/
def arithBody (f : Fmt) (rm : Rm) (sat : Bool) (d a : VOp) (b : VSrc) (c : MReg) (fi : Int → Int → Int → Int)
    (fv : FVal → FVal → FVal → FVal × Flags) (s : State) : Except Stop State := do
  let (x, t) ← s.readVOp a
  let (y, t) ← t.readSrc b
  let old := s.oldElems f d
  let m := s.readM c
  let ro := s.rounding rm sat
  let res :=
    if f.integer then
      elemLoop m (fun _ x y o => narrowInt f sat (fi (intOf f x) y (intOf f o))) 0 (fmtElems f x) (y.ints f) old
    else
      elemLoop m (fun i x y o =>
        let (v, fl) := fv (fpDecode f x) y (fpDecode f o)
        let (r, fl') := roundTo f ro i v
        (r, fl ||| fl')) 0 (fmtElems f x) (y.floats f) old
  t.finishVec f rm d res

/-- Element-wise minimum or maximum (R107, R177): exact, no flag. A literal that the format does not hold is rounded to
nearest (DESIGN CHOICE, log 33). -/
def extremeBody (f : Fmt) (d a : VOp) (b : VSrc) (c : MReg) (fi : Int → Int → Int) (fv : FVal → FVal → FVal) (s : State) :
    Except Stop State := do
  let (x, t) ← s.readVOp a
  let (y, t) ← t.readSrc b
  let old := s.oldElems f d
  let m := s.readM c
  let res :=
    if f.integer then elemLoop m (fun _ x y _ => (lowBits f.width (fi (intOf f x) y), 0)) 0 (fmtElems f x) (y.ints f) old
    else elemLoop m (fun _ x y _ => (encodeExact f (fv (fpDecode f x) y), 0)) 0 (fmtElems f x) (y.floats f) old
  t.finishVec f .rne d res

/-- Element-wise operation of one source (R177, R179). -/
def unaryBody (f : Fmt) (rm : Rm) (d a : VOp) (c : MReg) (g : Rounding → Nat → Nat → Nat × Flags) (sat : Bool) (s : State) :
    Except Stop State := do
  let (x, t) ← s.readVOp a
  let ro := s.rounding rm sat
  let xs := fmtElems f x
  t.finishVec f rm d (elemLoop (s.readM c) (fun i x _ _ => g ro i x) 0 xs xs (s.oldElems f d))

/-- Element-wise operation on bit patterns (R177, R178). -/
def bitsBody (f : Fmt) (d a : VOp) (b : VSrc) (c : MReg) (g : Nat → Nat → Nat) (s : State) : Except Stop State := do
  let (x, t) ← s.readVOp a
  let (y, t) ← t.readSrc b
  t.finishVec f .rne d (elemLoop (s.readM c) (fun _ x y _ => (g x y, 0)) 0 (fmtElems f x) (y.patterns f) (s.oldElems f d))

/-- A shift of an element by the amount that its other element's low bits give (R178). -/
def shiftElem (op : ShiftOp) (w x y : Nat) : Nat := (shiftBits op (BitVec.ofNat w x) (y % w)).toNat

/-- VABS of an element (R177): exact, with SAT as R87. -/
def vabsElem (f : Fmt) (ro : Rounding) (j n : Nat) : Nat × Flags :=
  if f.integer then narrowInt f ro.sat |intOf f n| else roundTo f ro j (fpDecode f n).abs

/-- VNEG of an element (R177): exact, with SAT as R87. -/
def vnegElem (f : Fmt) (ro : Rounding) (j n : Nat) : Nat × Flags :=
  if f.integer then narrowInt f ro.sat (-intOf f n) else roundTo f ro j (fpDecode f n).neg

/-- The high half of an integer product, never clamped (R177). -/
def mulHigh2 (f : Fmt) (x y : Int) : Nat := lowBits f.width (x * y / (2 ^ f.width : Nat))

/-- VMULHI. -/
def mulhiBody (f : Fmt) (d a : VOp) (b : VSrc) (c : MReg) (s : State) : Except Stop State := do
  let (x, t) ← s.readVOp a
  let (y, t) ← t.readSrc b
  t.finishVec f .rne d (elemLoop (s.readM c) (fun _ x y _ => (mulHigh2 f (intOf f x) y, 0)) 0 (fmtElems f x) (y.ints f) (s.oldElems f d))

/-- The result of a compare from the order of its operands, none where one is NaN (R180). -/
def condHolds (c : VCond) (o : Option Ordering) : Bool :=
  match c, o with
  | .eq, some .eq | .lt, some .lt | .le, some .lt | .le, some .eq | .gt, some .gt | .ge, some .gt | .ge, some .eq => true
  | .ne, some .lt | .ne, some .gt | .ne, none | .un, none => true
  | .ord, some _ => true
  | _, _ => false

/-- The order of two values, none where one is NaN (R180). -/
def orderOf (x y : FVal) : Option Ordering := if x.isNan || y.isNan then none else some (x.compare y)

/-- VCMP (R180). -/
def vcmpBody (f : Fmt) (d : MReg) (a : VOp) (b : VSrc) (c : VCond) (s : State) : Except Stop State := do
  let (x, t) ← s.readVOp a
  let (y, t) ← t.readSrc b
  let bits :=
    if f.integer then List.zipWith (fun x y => condHolds c (some (compare (intOf f x) y))) (fmtElems f x) (y.ints f)
    else List.zipWith (fun x y => condHolds c (orderOf (fpDecode f x) y)) (fmtElems f x) (y.floats f)
  pure (t.writeM d (maskOfBits bits))

/-- VSEL (R181): no merge. -/
def vselBody (f : Fmt) (d a b : VOp) (c : MReg) (s : State) : Except Stop State := do
  let (x, t) ← s.readVOp a
  let (y, t) ← t.readVOp b
  t.finishVec f .rne d (elemLoop (s.readM c) (fun _ x _ _ => (x, 0)) 0 (fmtElems f x) (fmtElems f x) (fmtElems f y))

/-- Every active element takes a value that depends on its number (R181). -/
def fillBody (f : Fmt) (rm : Rm) (d : VOp) (c : MReg) (g : Nat → Nat × Flags) (s : State) : Except Stop State :=
  let old := s.oldElems f d
  s.finishVec f rm d (elemLoop (s.readM c) (fun i _ _ _ => g i) 0 old old old)

/-- The value of VSPLAT's literal in element `i` (R181). -/
def splatLit (f : Fmt) (ro : Rounding) (lit : BitVec 32) (i : Nat) : Nat × Flags :=
  if f.integer then narrowInt f ro.sat lit.toInt else roundTo f ro i (fpDecode .fp32 lit.toNat)

/-- VCVT (R183): element by element in the order of R182. -/
def vcvtBody (f sf : Fmt) (rm : Rm) (sat : Bool) (d a : VOp) (s : State) : Except Stop State := do
  let (xs, t) ← s.readElems a sf f
  let ro := s.rounding rm sat
  let (rs, fl) := mapLoop (fun i x => convertElem f sf ro i x) 0 xs
  let t ← t.writeElems d f sf rs
  pure ((t.orFlags fl).drawFor rm)

/-- VWADD and VWMUL (R184). -/
def widenBody (f sf : Fmt) (rm : Rm) (sat : Bool) (d a b : VOp) (fi : Int → Int → Int) (fv : FVal → FVal → FVal × Flags) (s : State) :
    Except Stop State := do
  let (x, t) ← s.readVOp a
  let (y, t) ← t.readVOp b
  let ro := s.rounding rm sat
  let xy := (fmtElems sf x).zip (fmtElems sf y)
  let (rs, fl) :=
    if f.integer then mapLoop (fun _ (p : Nat × Nat) => narrowInt f sat (fi (intOf sf p.1) (intOf sf p.2))) 0 xy
    else mapLoop (fun i (p : Nat × Nat) =>
      let (v, fl) := fv (fpDecode sf p.1) (fpDecode sf p.2)
      let (r, fl') := roundTo f ro i v
      (r, fl ||| fl')) 0 xy
  let t ← t.writeElems d f sf rs
  pure ((t.orFlags fl).drawFor rm)

/-- x / 2^n rounded to an integer by RM (R185): the directed modes look at the value, the stochastic mode lies between the
floor and the next integer. -/
def quotRound (ro : Rounding) (j : Nat) (x : Int) (n : Nat) : Int :=
  let k := x / (2 ^ n : Nat)
  let r := (x % (2 ^ n : Nat)).toNat
  if r = 0 then k
  else match ro.rm with
    | .rne => if 2 ^ n < 2 * r || (2 * r = 2 ^ n && k % 2 = 1) then k + 1 else k
    | .rtz => if x < 0 then k + 1 else k
    | .rdn => k
    | .rup => k + 1
    | .sr => if 2 ^ 24 ≤ r * 2 ^ 24 / 2 ^ n + srgDraw ro.seed ro.ctr j then k + 1 else k

/-- VNARROW (R185). -/
def vnarrowBody (f sf : Fmt) (rm : Rm) (sat : Bool) (d a : VOp) (b : Word) (s : State) : Except Stop State := do
  let (xs, t) ← s.readElems a sf f
  let ro := s.rounding rm sat
  let n := min b.toNat 63
  let (rs, fl) := mapLoop (fun i x => narrowInt f sat (quotRound ro i (intOf sf x) n)) 0 xs
  let t ← t.writeElems d f sf rs
  pure ((t.orFlags fl).drawFor rm)

/-- The leaves of a reduction: the active elements (R105). -/
def leaves {α : Type} (m : BitVec 1024) (g : Nat → Nat → α × Flags) : Nat → List Nat → List (Option α) × Flags
  | _, [] => ([], 0)
  | i, x :: xs =>
    let (rs, fs) := leaves m g (i + 1) xs
    if maskBit m i then
      let (r, fl) := g i x
      (some r :: rs, fl ||| fs)
    else (none :: rs, fs)

/-- A vector whose element 0 is a pattern and whose other elements are zero (R186). -/
def soleElem (f : Fmt) (r : Nat) : List Nat := (r % 2 ^ f.width) :: List.replicate (Fmt.count f - 1) 0

/-- The levels of the tree over a format's elements (R105). -/
def treeDepth (f : Fmt) : Nat := Nat.log2 (Fmt.count f)

/-- Round a value and read it back (R105). -/
def roundVal (f : Fmt) (ro : Rounding) (j : Nat) (v : FVal) : FVal × Flags :=
  let (r, fl) := roundTo f ro j v
  (fpDecode f r, fl)

/-- The sum of VREDSUM over float elements (R105, R186). -/
def redsumFloat (f : Fmt) (ro : Rounding) (m : BitVec 1024) (xs : List Nat) : Nat × Flags :=
  let (ls, fl) := leaves m (fun k x => roundVal f ro k (fpDecode f x)) 0 xs
  let (r, fl') := tree (fun l k a b =>
    let (v, g) := FVal.add ro.rm a b
    let (r, g') := roundVal f ro (l * 65536 + k) v
    (r, g ||| g')) (treeDepth f) 1 ls
  (match r with | some v => encodeExact f v | none => 0, fl ||| fl')

/-- The sum of VREDSUM over integer elements (R105, R186). -/
def redsumInt (f : Fmt) (sat : Bool) (m : BitVec 1024) (xs : List Nat) : Nat × Flags :=
  let (ls, fl) := leaves m (fun _ x => (intOf f x, 0)) 0 xs
  let (r, fl') := tree (fun _ _ a b =>
    let (n, g) := narrowInt f sat (a + b)
    (intOf f n, g)) (treeDepth f) 1 ls
  (match r with | some v => lowBits f.width v | none => 0, fl ||| fl')

/-- VREDSUM (R186). -/
def redsumBody (f : Fmt) (rm : Rm) (sat : Bool) (d a : VOp) (c : MReg) (s : State) : Except Stop State := do
  let (x, t) ← s.readVOp a
  let m := s.readM c
  let (r, fl) := if f.integer then redsumInt f sat m (fmtElems f x) else redsumFloat f (s.rounding rm sat) m (fmtElems f x)
  t.finishVec f rm d (soleElem f r, fl)

/-- VREDMAX and VREDMIN (R186): exact, +0 where no element is active. -/
def redExtremeBody (f : Fmt) (d a : VOp) (c : MReg) (fi : Int → Int → Int) (fv : FVal → FVal → FVal) (s : State) : Except Stop State := do
  let (x, t) ← s.readVOp a
  let m := s.readM c
  let r :=
    if f.integer then
      (match (tree (fun _ _ a b => (fi a b, (0 : Flags))) (treeDepth f) 1 (leaves m (fun _ x => (intOf f x, 0)) 0 (fmtElems f x)).1).1 with
       | some v => lowBits f.width v | none => 0)
    else
      (match (tree (fun _ _ a b => (fv a b, (0 : Flags))) (treeDepth f) 1 (leaves m (fun _ x => (fpDecode f x, 0)) 0 (fmtElems f x)).1).1 with
       | some v => encodeExact f v | none => 0)
  t.finishVec f .rne d (soleElem f r, 0)

/-- The inclusive prefix sums of R106 from element `k` on, `prev` being the result before it. -/
def scanLoop (m : BitVec 1024) (g : Nat → Option Nat → Nat → Nat × Flags) : Nat → Option Nat → List Nat → List Nat × Flags
  | _, _, [] => ([], 0)
  | k, prev, x :: xs =>
    let (r, fl) := if maskBit m k then g k prev x else (prev.getD 0, 0)
    let (rs, fs) := scanLoop m g (k + 1) (some r) xs
    (r :: rs, fl ||| fs)

/-- One prefix sum (R106, R187). -/
def scanStep (f : Fmt) (ro : Rounding) (k : Nat) (prev : Option Nat) (x : Nat) : Nat × Flags :=
  if f.integer then narrowInt f ro.sat (intOf f (prev.getD 0) + intOf f x)
  else match prev with
    | none => roundTo f ro k (fpDecode f x)
    | some p =>
      let (v, g) := FVal.add ro.rm (fpDecode f p) (fpDecode f x)
      let (r, g') := roundTo f ro k v
      (r, g ||| g')

/-- VSCAN (R187). -/
def scanBody (f : Fmt) (rm : Rm) (sat : Bool) (d a : VOp) (c : MReg) (s : State) : Except Stop State := do
  let (x, t) ← s.readVOp a
  t.finishVec f rm d (scanLoop (s.readM c) (scanStep f (s.rounding rm sat)) 0 none (fmtElems f x))

/-- VPERM (R188): the indices fill as many registers as the elements need. -/
def vpermBody (f : Fmt) (d a b : VOp) (c : MReg) (s : State) : Except Stop State := do
  let (x, t) ← s.readVOp a
  let (ix, t) ← t.readWide b (vpermRegs f)
  let xs := fmtElems f x
  let idx := (ix.flatMap (vecElems 16)).take (Fmt.count f)
  t.finishVec f .rne d (elemLoop (s.readM c) (fun _ k _ _ => (xs.getD k 0, 0)) 0 idx idx (s.oldElems f d))

/-- VSLIDE (R189). -/
def vslideBody (f : Fmt) (d a : VOp) (b : Word) (c : MReg) (s : State) : Except Stop State := do
  let (x, t) ← s.readVOp a
  let xs := fmtElems f x
  let at_ (i : Nat) : Nat := let k := (i : Int) + b.toInt; if k < 0 then 0 else xs.getD k.toNat 0
  t.finishVec f .rne d (elemLoop (s.readM c) (fun i _ _ _ => (at_ i, 0)) 0 xs xs (s.oldElems f d))

/-- VZIP and VUNZIP (R189): a permutation of the two sources, written as two halves. -/
def zipBody (f : Fmt) (d a b : VOp) (g : List Nat → List Nat → List Nat) (s : State) : Except Stop State := do
  let (x, t) ← s.readVOp a
  let (y, t) ← t.readVOp b
  let z := g (fmtElems f x) (fmtElems f y)
  t.writeWide d [vecOfElems f.width (z.take (Fmt.count f)), vecOfElems f.width (z.drop (Fmt.count f))]

/-- VCOMPRESS (R189). -/
def vcompressBody (f : Fmt) (d a : VOp) (c : MReg) (s : State) : Except Stop State := do
  let (x, t) ← s.readVOp a
  let m := s.readM c
  let kept := ((fmtElems f x).zipIdx.filter (fun p => maskBit m p.2)).map (·.1)
  t.writeVOp d (vecOfElems f.width kept)

/-- The elements of VEXPAND: active positions take the elements of `a` in turn (R189). -/
def expandLoop (m : BitVec 1024) : Nat → Nat → List Nat → List Nat
  | 0, _, _ => []
  | n + 1, i, xs =>
    if maskBit m i then xs.headD 0 :: expandLoop m n (i + 1) xs.tail else 0 :: expandLoop m n (i + 1) xs

/-- VEXPAND (R189). -/
def vexpandBody (f : Fmt) (d a : VOp) (c : MReg) (s : State) : Except Stop State := do
  let (x, t) ← s.readVOp a
  t.writeVOp d (vecOfElems f.width (expandLoop (s.readM c) (Fmt.count f) 0 (fmtElems f x)))

/-- VINS (R189): for b at or above n nothing is written. -/
def vinsBody (f : Fmt) (d : VReg) (a : Word) (b : Word) (s : State) : State :=
  s.writeV d (vecOfElems f.width ((fmtElems f (s.readV d)).set b.toNat (a.toNat % 2 ^ f.width)))

/-- VEXT (R189). -/
def vextBody (f : Fmt) (d : SReg) (a : VOp) (b : Word) (s : State) : Except Stop State := do
  let (x, t) ← s.readVOp a
  let n := (fmtElems f x).getD b.toNat 0
  pure (t.writeS d (extendTo f.signed f.width n))

/-- The number of the lowest one of a mask, or 1,024 (R190). -/
def firstOne (m : BitVec 1024) : Nat := ((bitList m).takeWhile (!·)).length

/-! Meanings. -/

/-- VADD (R177). -/
def execVadd (g : Guard) (f : Fmt) (rm : Rm) (sat : Bool) (d a b : VOp) (c : MReg) (s : State) : Out :=
  perform unitVU g 8 (arithBody f rm sat d a (.op b) c (fun x y _ => x + y) (fun x y _ => FVal.add rm x y)) s

/-- VADD, literal form (R177). -/
def execVaddLit (g : Guard) (f : Fmt) (rm : Rm) (sat : Bool) (d a : VOp) (lit : BitVec 32) (c : MReg) (s : State) : Out :=
  perform unitVU g 12 (arithBody f rm sat d a (.lit lit) c (fun x y _ => x + y) (fun x y _ => FVal.add rm x y)) s

/-- VSUB (R177). -/
def execVsub (g : Guard) (f : Fmt) (rm : Rm) (sat : Bool) (d a b : VOp) (c : MReg) (s : State) : Out :=
  perform unitVU g 8 (arithBody f rm sat d a (.op b) c (fun x y _ => x - y) (fun x y _ => FVal.add rm x y.neg)) s

/-- VSUB, literal form (R177). -/
def execVsubLit (g : Guard) (f : Fmt) (rm : Rm) (sat : Bool) (d a : VOp) (lit : BitVec 32) (c : MReg) (s : State) : Out :=
  perform unitVU g 12 (arithBody f rm sat d a (.lit lit) c (fun x y _ => x - y) (fun x y _ => FVal.add rm x y.neg)) s

/-- VMUL (R177). -/
def execVmul (g : Guard) (f : Fmt) (rm : Rm) (sat : Bool) (d a b : VOp) (c : MReg) (s : State) : Out :=
  perform unitVU g 8 (arithBody f rm sat d a (.op b) c (fun x y _ => x * y) (fun x y _ => FVal.mul x y)) s

/-- VMUL, literal form (R177). -/
def execVmulLit (g : Guard) (f : Fmt) (rm : Rm) (sat : Bool) (d a : VOp) (lit : BitVec 32) (c : MReg) (s : State) : Out :=
  perform unitVU g 12 (arithBody f rm sat d a (.lit lit) c (fun x y _ => x * y) (fun x y _ => FVal.mul x y)) s

/-- VFMA (R177). -/
def execVfma (g : Guard) (f : Fmt) (rm : Rm) (sat : Bool) (d : VReg) (a b : VOp) (c : MReg) (s : State) : Out :=
  perform unitVU g 8 (arithBody f rm sat (.reg d) a (.op b) c (fun x y d => x * y + d) (fun x y d => FVal.mulAdd rm x y d)) s

/-- VFMS (R177). -/
def execVfms (g : Guard) (f : Fmt) (rm : Rm) (sat : Bool) (d : VReg) (a b : VOp) (c : MReg) (s : State) : Out :=
  perform unitVU g 8 (arithBody f rm sat (.reg d) a (.op b) c (fun x y d => x * y - d) (fun x y d => FVal.mulAdd rm x y d.neg)) s

/-- VNFMA (R177). -/
def execVnfma (g : Guard) (f : Fmt) (rm : Rm) (sat : Bool) (d : VReg) (a b : VOp) (c : MReg) (s : State) : Out :=
  perform unitVU g 8 (arithBody f rm sat (.reg d) a (.op b) c (fun x y d => d - x * y) (fun x y d => FVal.mulAdd rm x.neg y d)) s

/-- VMIN (R107, R177). -/
def execVmin (g : Guard) (f : Fmt) (d a b : VOp) (c : MReg) (s : State) : Out :=
  perform unitVU g 8 (extremeBody f d a (.op b) c min fpMin) s

/-- VMIN, literal form (R107, R177). -/
def execVminLit (g : Guard) (f : Fmt) (d a : VOp) (lit : BitVec 32) (c : MReg) (s : State) : Out :=
  perform unitVU g 12 (extremeBody f d a (.lit lit) c min fpMin) s

/-- VMAX (R107, R177). -/
def execVmax (g : Guard) (f : Fmt) (d a b : VOp) (c : MReg) (s : State) : Out :=
  perform unitVU g 8 (extremeBody f d a (.op b) c max fpMax) s

/-- VMAX, literal form (R107, R177). -/
def execVmaxLit (g : Guard) (f : Fmt) (d a : VOp) (lit : BitVec 32) (c : MReg) (s : State) : Out :=
  perform unitVU g 12 (extremeBody f d a (.lit lit) c max fpMax) s

/-- VABS (R177). -/
def execVabs (g : Guard) (f : Fmt) (sat : Bool) (d a : VOp) (c : MReg) (s : State) : Out :=
  perform unitVU g 8 (unaryBody f .rne d a c (vabsElem f) sat) s

/-- VNEG (R177). -/
def execVneg (g : Guard) (f : Fmt) (sat : Bool) (d a : VOp) (c : MReg) (s : State) : Out :=
  perform unitVU g 8 (unaryBody f .rne d a c (vnegElem f) sat) s

/-- VAND (R177). -/
def execVand (g : Guard) (f : Fmt) (d a b : VOp) (c : MReg) (s : State) : Out :=
  perform unitVU g 8 (bitsBody f d a (.op b) c (fun x y => x &&& y)) s

/-- VAND, literal form (R177). -/
def execVandLit (g : Guard) (f : Fmt) (d a : VOp) (lit : BitVec 32) (c : MReg) (s : State) : Out :=
  perform unitVU g 12 (bitsBody f d a (.lit lit) c (fun x y => x &&& y)) s

/-- VOR (R177). -/
def execVor (g : Guard) (f : Fmt) (d a b : VOp) (c : MReg) (s : State) : Out :=
  perform unitVU g 8 (bitsBody f d a (.op b) c (fun x y => x ||| y)) s

/-- VOR, literal form (R177). -/
def execVorLit (g : Guard) (f : Fmt) (d a : VOp) (lit : BitVec 32) (c : MReg) (s : State) : Out :=
  perform unitVU g 12 (bitsBody f d a (.lit lit) c (fun x y => x ||| y)) s

/-- VXOR (R177). -/
def execVxor (g : Guard) (f : Fmt) (d a b : VOp) (c : MReg) (s : State) : Out :=
  perform unitVU g 8 (bitsBody f d a (.op b) c (fun x y => x ^^^ y)) s

/-- VXOR, literal form (R177). -/
def execVxorLit (g : Guard) (f : Fmt) (d a : VOp) (lit : BitVec 32) (c : MReg) (s : State) : Out :=
  perform unitVU g 12 (bitsBody f d a (.lit lit) c (fun x y => x ^^^ y)) s

/-- VNOT (R177). -/
def execVnot (g : Guard) (f : Fmt) (d a : VOp) (c : MReg) (s : State) : Out :=
  perform unitVU g 8 (unaryBody f .rne d a c (fun _ _ x => (2 ^ f.width - 1 - x, 0)) false) s

/-- VSHL (R178). -/
def execVshl (g : Guard) (f : Fmt) (d a b : VOp) (c : MReg) (s : State) : Out :=
  perform unitVU g 8 (bitsBody f d a (.op b) c (shiftElem .shl f.width)) s

/-- VSHL, literal form (R178). -/
def execVshlLit (g : Guard) (f : Fmt) (d a : VOp) (lit : BitVec 32) (c : MReg) (s : State) : Out :=
  perform unitVU g 12 (bitsBody f d a (.lit lit) c (shiftElem .shl f.width)) s

/-- VSHR (R178). -/
def execVshr (g : Guard) (f : Fmt) (d a b : VOp) (c : MReg) (s : State) : Out :=
  perform unitVU g 8 (bitsBody f d a (.op b) c (shiftElem .shr f.width)) s

/-- VSHR, literal form (R178). -/
def execVshrLit (g : Guard) (f : Fmt) (d a : VOp) (lit : BitVec 32) (c : MReg) (s : State) : Out :=
  perform unitVU g 12 (bitsBody f d a (.lit lit) c (shiftElem .shr f.width)) s

/-- VSRA (R178). -/
def execVsra (g : Guard) (f : Fmt) (d a b : VOp) (c : MReg) (s : State) : Out :=
  perform unitVU g 8 (bitsBody f d a (.op b) c (shiftElem .sra f.width)) s

/-- VSRA, literal form (R178). -/
def execVsraLit (g : Guard) (f : Fmt) (d a : VOp) (lit : BitVec 32) (c : MReg) (s : State) : Out :=
  perform unitVU g 12 (bitsBody f d a (.lit lit) c (shiftElem .sra f.width)) s

/-- VROL (R178). -/
def execVrol (g : Guard) (f : Fmt) (d a b : VOp) (c : MReg) (s : State) : Out :=
  perform unitVU g 8 (bitsBody f d a (.op b) c (shiftElem .rol f.width)) s

/-- VROL, literal form (R178). -/
def execVrolLit (g : Guard) (f : Fmt) (d a : VOp) (lit : BitVec 32) (c : MReg) (s : State) : Out :=
  perform unitVU g 12 (bitsBody f d a (.lit lit) c (shiftElem .rol f.width)) s

/-- VMULHI (R177). -/
def execVmulhi (g : Guard) (f : Fmt) (d a b : VOp) (c : MReg) (s : State) : Out :=
  perform unitVU g 8 (mulhiBody f d a (.op b) c) s

/-- VMULHI, literal form (R177). -/
def execVmulhiLit (g : Guard) (f : Fmt) (d a : VOp) (lit : BitVec 32) (c : MReg) (s : State) : Out :=
  perform unitVU g 12 (mulhiBody f d a (.lit lit) c) s

/-- VCMP (R180). -/
def execVcmp (g : Guard) (f : Fmt) (d : MReg) (a b : VOp) (c : VCond) (s : State) : Out :=
  perform unitVU g 8 (vcmpBody f d a (.op b) c) s

/-- VCMP, literal form (R180). -/
def execVcmpLit (g : Guard) (f : Fmt) (d : MReg) (a : VOp) (lit : BitVec 32) (c : VCond) (s : State) : Out :=
  perform unitVU g 12 (vcmpBody f d a (.lit lit) c) s

/-- VSEL (R181). -/
def execVsel (g : Guard) (f : Fmt) (d a b : VOp) (c : MReg) (s : State) : Out :=
  perform unitVU g 8 (vselBody f d a b c) s

/-- VMOV (R177). -/
def execVmov (g : Guard) (f : Fmt) (d a : VOp) (c : MReg) (s : State) : Out :=
  perform unitVU g 8 (unaryBody f .rne d a c (fun _ _ x => (x, 0)) false) s

/-- VSPLAT: the pattern of sB, with no conversion (R181). -/
def execVsplat (g : Guard) (f : Fmt) (d : VOp) (b : SReg) (c : MReg) (s : State) : Out :=
  perform unitVU g 8 (fun s => fillBody f .rne d c (fun _ => ((s.readS b).toNat % 2 ^ f.width, 0)) s) s

/-- VSPLAT, literal form (R181). -/
def execVsplatLit (g : Guard) (f : Fmt) (rm : Rm) (sat : Bool) (d : VOp) (lit : BitVec 32) (c : MReg) (s : State) : Out :=
  perform unitVU g 12 (fun s => fillBody f rm d c (splatLit f (s.rounding rm sat) lit) s) s

/-- VIOTA (R181). -/
def execViota (g : Guard) (f : Fmt) (d : VOp) (b : SReg) (c : MReg) (s : State) : Out :=
  perform unitVU g 8 (fun s => fillBody f .rne d c (fun i => (((s.readS b).toNat + i) % 2 ^ f.width, 0)) s) s

/-- VIOTA, literal form (R181). -/
def execViotaLit (g : Guard) (f : Fmt) (d : VOp) (lit : BitVec 32) (c : MReg) (s : State) : Out :=
  perform unitVU g 12 (fun s => fillBody f .rne d c (fun i => (((sextLit lit).toNat + i) % 2 ^ f.width, 0)) s) s

/-- VCVT (R183). -/
def execVcvt (g : Guard) (f sf : Fmt) (rm : Rm) (sat : Bool) (d a : VOp) (s : State) : Out :=
  perform unitVU g 8 (vcvtBody f sf rm sat d a) s

/-- VWADD (R184). -/
def execVwadd (g : Guard) (f sf : Fmt) (rm : Rm) (sat : Bool) (d a b : VOp) (s : State) : Out :=
  perform unitVU g 8 (widenBody f sf rm sat d a b (· + ·) (FVal.add rm)) s

/-- VWMUL (R184). -/
def execVwmul (g : Guard) (f sf : Fmt) (rm : Rm) (sat : Bool) (d a b : VOp) (s : State) : Out :=
  perform unitVU g 8 (widenBody f sf rm sat d a b (· * ·) FVal.mul) s

/-- VNARROW (R185). -/
def execVnarrow (g : Guard) (f sf : Fmt) (rm : Rm) (sat : Bool) (d a : VOp) (b : SReg) (s : State) : Out :=
  perform unitVU g 8 (fun s => vnarrowBody f sf rm sat d a (s.readS b) s) s

/-- VNARROW, literal form (R185). -/
def execVnarrowLit (g : Guard) (f sf : Fmt) (rm : Rm) (sat : Bool) (d a : VOp) (lit : BitVec 32) (s : State) : Out :=
  perform unitVU g 12 (vnarrowBody f sf rm sat d a (zextLit lit)) s

/-- VREDSUM (R186). -/
def execVredsum (g : Guard) (f : Fmt) (rm : Rm) (sat : Bool) (d a : VOp) (c : MReg) (s : State) : Out :=
  perform unitVU g 8 (redsumBody f rm sat d a c) s

/-- VREDMAX (R186). -/
def execVredmax (g : Guard) (f : Fmt) (d a : VOp) (c : MReg) (s : State) : Out :=
  perform unitVU g 8 (redExtremeBody f d a c max fpMax) s

/-- VREDMIN (R186). -/
def execVredmin (g : Guard) (f : Fmt) (d a : VOp) (c : MReg) (s : State) : Out :=
  perform unitVU g 8 (redExtremeBody f d a c min fpMin) s

/-- VSCAN (R187). -/
def execVscan (g : Guard) (f : Fmt) (rm : Rm) (sat : Bool) (d a : VOp) (c : MReg) (s : State) : Out :=
  perform unitVU g 8 (scanBody f rm sat d a c) s

/-- VPERM (R188). -/
def execVperm (g : Guard) (f : Fmt) (d a b : VOp) (c : MReg) (s : State) : Out :=
  perform unitVU g 8 (vpermBody f d a b c) s

/-- VSLIDE (R189). -/
def execVslide (g : Guard) (f : Fmt) (d a : VOp) (b : SReg) (c : MReg) (s : State) : Out :=
  perform unitVU g 8 (fun s => vslideBody f d a (s.readS b) c s) s

/-- VSLIDE, literal form (R189). -/
def execVslideLit (g : Guard) (f : Fmt) (d a : VOp) (lit : BitVec 32) (c : MReg) (s : State) : Out :=
  perform unitVU g 12 (vslideBody f d a (sextLit lit) c) s

/-- VZIP (R189). -/
def execVzip (g : Guard) (f : Fmt) (d a b : VOp) (s : State) : Out :=
  perform unitVU g 8 (zipBody f d a b (fun x y => interleave [x, y])) s

/-- VUNZIP (R189). -/
def execVunzip (g : Guard) (f : Fmt) (d a b : VOp) (s : State) : Out :=
  perform unitVU g 8 (zipBody f d a b (fun x y => everyNth 2 0 (x ++ y) ++ everyNth 2 1 (x ++ y))) s

/-- VCOMPRESS (R189). -/
def execVcompress (g : Guard) (f : Fmt) (d a : VOp) (c : MReg) (s : State) : Out :=
  perform unitVU g 8 (vcompressBody f d a c) s

/-- VEXPAND (R189). -/
def execVexpand (g : Guard) (f : Fmt) (d a : VOp) (c : MReg) (s : State) : Out :=
  perform unitVU g 8 (vexpandBody f d a c) s

/-- VINS (R189). -/
def execVins (g : Guard) (f : Fmt) (d : VReg) (a b : SReg) (s : State) : Out :=
  perform unitVU g 8 (fun s => .ok (vinsBody f d (s.readS a) (s.readS b) s)) s

/-- VINS, literal form (R189). -/
def execVinsLit (g : Guard) (f : Fmt) (d : VReg) (a : SReg) (lit : BitVec 32) (s : State) : Out :=
  perform unitVU g 12 (fun s => .ok (vinsBody f d (s.readS a) (zextLit lit) s)) s

/-- VEXT (R189). -/
def execVext (g : Guard) (f : Fmt) (d : SReg) (a : VOp) (b : SReg) (s : State) : Out :=
  perform unitVU g 8 (fun s => vextBody f d a (s.readS b) s) s

/-- VEXT, literal form (R189). -/
def execVextLit (g : Guard) (f : Fmt) (d : SReg) (a : VOp) (lit : BitVec 32) (s : State) : Out :=
  perform unitVU g 12 (vextBody f d a (zextLit lit)) s

/-- VRCP (R179). -/
def execVrcp (g : Guard) (f : Fmt) (rm : Rm) (sat : Bool) (d a : VOp) (c : MReg) (s : State) : Out :=
  perform unitVU g 8 (unaryBody f rm d a c (specialElem .rcp f) sat) s

/-- VRSQ (R179). -/
def execVrsq (g : Guard) (f : Fmt) (rm : Rm) (sat : Bool) (d a : VOp) (c : MReg) (s : State) : Out :=
  perform unitVU g 8 (unaryBody f rm d a c (specialElem .rsq f) sat) s

/-- VSQRT (R179). -/
def execVsqrt (g : Guard) (f : Fmt) (rm : Rm) (sat : Bool) (d a : VOp) (c : MReg) (s : State) : Out :=
  perform unitVU g 8 (unaryBody f rm d a c (specialElem .sqrt f) sat) s

/-- VEXP2 (R179). -/
def execVexp2 (g : Guard) (f : Fmt) (rm : Rm) (sat : Bool) (d a : VOp) (c : MReg) (s : State) : Out :=
  perform unitVU g 8 (unaryBody f rm d a c (specialElem .exp2 f) sat) s

/-- VLOG2 (R179). -/
def execVlog2 (g : Guard) (f : Fmt) (rm : Rm) (sat : Bool) (d a : VOp) (c : MReg) (s : State) : Out :=
  perform unitVU g 8 (unaryBody f rm d a c (specialElem .log2 f) sat) s

/-- VTANH (R179). -/
def execVtanh (g : Guard) (f : Fmt) (rm : Rm) (sat : Bool) (d a : VOp) (c : MReg) (s : State) : Out :=
  perform unitVU g 8 (unaryBody f rm d a c (specialElem .tanh f) sat) s

/-- MAND (R190). -/
def execMand (g : Guard) (d a b : MReg) (s : State) : Out :=
  performPure g 8 (fun s => s.writeM d (s.readM a &&& s.readM b)) s

/-- MOR (R190). -/
def execMor (g : Guard) (d a b : MReg) (s : State) : Out :=
  performPure g 8 (fun s => s.writeM d (s.readM a ||| s.readM b)) s

/-- MXOR (R190). -/
def execMxor (g : Guard) (d a b : MReg) (s : State) : Out :=
  performPure g 8 (fun s => s.writeM d (s.readM a ^^^ s.readM b)) s

/-- MNOT (R190). -/
def execMnot (g : Guard) (d a : MReg) (s : State) : Out :=
  performPure g 8 (fun s => s.writeM d (~~~(s.readM a))) s

/-- MPOPC (R190). -/
def execMpopc (g : Guard) (d : SReg) (a : MReg) (s : State) : Out :=
  performPure g 8 (fun s => s.writeS d (BitVec.ofNat 64 ((bitList (s.readM a)).filter (·)).length)) s

/-- MFIRST (R190). -/
def execMfirst (g : Guard) (d : SReg) (a : MReg) (s : State) : Out :=
  performPure g 8 (fun s => s.writeS d (BitVec.ofNat 64 (firstOne (s.readM a)))) s

end Sys2Proof.Machine
end

