-- ==== Sys2Proof/Machine/Convert.lean ====
section
/-!
DEFINITION. The conversion and lattice instructions (chapter 08): the shared bodies first, then one meaning per row.
-/

namespace Sys2Proof.Machine

open Sys2Proof

/-! Quotients. -/

/-- The quotient of `m * 2^e` by `d * 2^f`, exact or with a last bit that stands for the rest below it: 96 bits below the
quotient's own are kept, more than any rounding looks at. -/
def quotVal (neg : Bool) (m : Nat) (e : Int) (d : Nat) (f : Int) : FVal :=
  let n := m * 2 ^ (96 + Nat.log2 d)
  cellValue neg (n / d) (e - f - 96 - (Nat.log2 d : Int)) (n % d = 0)

/-- A finite value divided by the positive magnitude `d * 2^f`. -/
def FVal.overMag (x : FVal) (d : Nat) (f : Int) : FVal :=
  match x with
  | .fin neg m e => if m = 0 then x else quotVal neg m e d f
  | x => x

/-! QCVT and QDCVT (R196 to R198). -/

/-- The emax of R197. -/
def mxEmax : Fmt → Int
  | .e2m1 => 2 | .e4m3 => 8 | .e5m2 => 15 | _ => 0

/-- The mf of R197, as an odd number and a power of two. -/
def mxMf : Fmt → Nat × Int
  | .e2m1 => (3, 1) | .e4m3 => (7, 6) | .e5m2 => (7, 13) | _ => (127, -6)

/-- Is a value NaN or infinite? -/
def FVal.special (x : FVal) : Bool := x.isNan || x.isInf

/-- The largest magnitude of a block, as a value. -/
def blockMax (xs : List FVal) : FVal := xs.foldl (fun a x => if a.compare x.abs == .lt then x.abs else a) (.fin false 0 0)

/-- The E8M0 scale of a block whose largest magnitude is nonzero (R196). -/
def e8m0Scale (f : Fmt) (noClip : Bool) (m : Nat) (e : Int) : Nat :=
  let ex : Int :=
    if noClip then
      let (d, k) := mxMf f
      let l := floorLog2 m e - floorLog2 d k
      if magCompare m e d (k + l) == .gt then l + 1 else l
    else floorLog2 m e - mxEmax f
  (max 0 (min 254 (ex + 127))).toNat

/-- The UE4M3 scale of a block whose largest magnitude is nonzero (R196): the exact quotient by mf, rounded on the grid of
E4M3 without its overflow, then clamped. -/
def ue4m3Scale (f : Fmt) (noClip : Bool) (m : Nat) (e : Int) : Nat :=
  let (d, k) := mxMf f
  match quotVal false m e d k with
  | .fin _ m e =>
    let q := max (floorLog2 m e - 3) (-9)
    let (u, _) := roundMag (if noClip then .rup else .rne) false m e q 0
    max 0x01 (min 0x7E (fpEncode .e4m3 false u q))
  | _ => 0x7E

/-- The scale byte of a finite block (R196). -/
def blockScale (f : Fmt) (k : BitVec 2) (a : FVal) : Nat :=
  match a with
  | .fin _ 0 _ => 0
  | .fin _ m e => if k.getLsbD 0 then ue4m3Scale f (k.getLsbD 1) m e else e8m0Scale f (k.getLsbD 1) m e
  | _ => 0

/-- An INT8 element of QCVT (R196): the quotient in units of 2^-6, rounded as VNARROW does, clamped. -/
def qcvtInt (ro : Rounding) (j : Nat) (x : FVal) : Nat × Flags :=
  match x with
  | .fin neg m e =>
    let v : Int := if neg then -(m : Int) else m
    let (r, nx) : Int × Bool :=
      if 0 ≤ e + 6 then (v * (2 ^ (e + 6).toNat : Nat), false)
      else
        let n := (-(e + 6)).toNat
        (quotRound ro j v n, v % (2 ^ n : Nat) != 0)
    let (p, fl) := narrowInt .int8 true r
    (p, if nx || fl != 0 then fl ||| flagNX else fl)
  | _ => (0, 0)

/-- One element of QCVT under a scale (R196). -/
def qcvtElem (f : Fmt) (ro : Rounding) (scale : FVal) (j : Nat) (x : FVal) : Nat × Flags :=
  match scale with
  | .fin _ 0 _ => if f == .int8 then (0, 0) else (f.withSign x.negative 0, 0)
  | .fin _ m e => if f == .int8 then qcvtInt ro j (x.overMag m e) else roundTo f { ro with sat := true } j (x.overMag m e)
  | _ => (0, 0)

/-- One block of QCVT, its first element being number `j` (R196): the scale byte, the elements and the flags. -/
def qcvtBlock (f : Fmt) (k : BitVec 2) (ro : Rounding) (j : Nat) (xs : List FVal) : Nat × List Nat × Flags :=
  if xs.any FVal.special then (if k.getLsbD 0 then 0x7F else 0xFF, xs.map (fun _ => 0), flagNV)
  else
    let sc := blockScale f k (blockMax xs)
    let (qs, fl) := mapLoop (fun i x => qcvtElem f ro (scaleVal (k.getLsbD 0) sc) i x) j xs
    (sc, qs, fl)

/-- The blocks of QCVT from element number `j` on. -/
def qcvtBlocks (f : Fmt) (k : BitVec 2) (ro : Rounding) : Nat → Nat → List FVal → List Nat × List Nat × Flags
  | 0, _, _ => ([], [], 0)
  | n + 1, j, xs =>
    let (sc, qs, fl) := qcvtBlock f k ro j (xs.take 32)
    let (scs, qss, fls) := qcvtBlocks f k ro n (j + 32) (xs.drop 32)
    (sc :: scs, qs ++ qss, fl ||| fls)

/-- QCVT (R196): the scale entry follows the vector; where several faults stand, those of the queue operands come first, as
R220 orders them (DEDUCED, log 34). -/
def qcvtBody (f sf : Fmt) (rm : Rm) (d a : VOp) (k : BitVec 2) (s : State) : Except Stop State := do
  let (xs, t) ← s.readElems a sf f
  let (scs, qs, fl) := qcvtBlocks f k (s.rounding rm true) (Fmt.count f / 32) 0 (xs.map (fpDecode sf))
  let t ← t.writeVOp d (vecOfElems f.width qs)
  let t ← t.scaleFill (BitVec.ofNat 256 (packElems 8 scs))
  pure ((t.orFlags fl).drawFor rm)

/-- QDCVT of one element (R198): an infinite element under a zero scale makes a NaN of operands none of which is NaN (R83, R99). -/
def qdcvtElem (f sf : Fmt) (ro : Rounding) (scale : FVal) (i x : Nat) : Nat × Flags :=
  let (r, fl) := roundTo f ro i (mxVal sf scale x)
  (r, if scale.isZero && (match mxElem sf x with | .inf _ => true | _ => false) then fl ||| flagNV else fl)

/-- QDCVT (R198). Its source's queue fault comes first, then that of the scale queue, then its destination's (log 34). -/
def qdcvtBody (f sf : Fmt) (rm : Rm) (sat : Bool) (d a : VOp) (k : BitVec 1) (s : State) : Except Stop State := do
  let (x, t) ← s.readVOp a
  let (e, t) ← t.scaleTake
  let ro := s.rounding rm sat
  let (rs, fl) := mapLoop (fun i x => qdcvtElem f sf ro (scaleVal (k.getLsbD 0) (e.toNat / 256 ^ (i / 32) % 256)) i x) 0 (fmtElems sf x)
  let t ← t.writeElems d f sf rs
  pure ((t.orFlags fl).drawFor rm)

/-! The lattice control word (R199). -/

def latX (l : Word) : Nat := (l.extractLsb' 0 16).toNat
def latH (l : Word) (f : Fmt) : Nat := if f.width = 16 then (l.extractLsb' 16 1).toNat else 0
def latG (l : Word) : Nat := (l.extractLsb' 17 4).toNat
def latTP (l : Word) : Nat := (l.extractLsb' 21 7).toNat
def latMR (l : Word) : MReg := l.extractLsb' 28 4

/-! The quantiser (R201). Coordinates are integers in units of 1/d, where d is even. -/

/-- The nearest integer to z / d, a tie going to the even one, within -2 to 1 when bounded. -/
def nearInt (bounded : Bool) (d : Nat) (z : Int) : Int :=
  let k := z / d
  let r := z % d
  let n := if 2 * r < d ∨ (2 * r = d ∧ k % 2 = 0) then k else k + 1
  if bounded then max (-2) (min 1 n) else n

/-- The nearest integer to z / d other than `n`, a tie going to the lower one. -/
def nextInt (bounded : Bool) (d : Nat) (z n : Int) : Int :=
  if bounded && n ≤ -2 then n + 1
  else if bounded && 1 ≤ n then n - 1
  else if (z - (n - 1) * d).natAbs ≤ (z - (n + 1) * d).natAbs then n - 1 else n + 1

/-- The square of the distance of z / d from an integer, in units of 1/d². -/
def distSq (d : Nat) (z n : Int) : Int := (z - n * d) * (z - n * d)

/-- The integer parts of the nearest point of coset `c` and its squared distance (R201). -/
def nearCoset (bounded : Bool) (d : Nat) (c : Nat) (y : List Int) : List Int × Int :=
  let zs := y.map (fun y => y - (c : Int) * (d / 2 : Nat))
  let rs := zs.map (nearInt bounded d)
  let ss := List.zipWith (nextInt bounded d) zs rs
  let rs :=
    if rs.sum % 2 = 0 then rs
    else
      let costs := List.zipWith (· - ·) (List.zipWith (distSq d) zs ss) (List.zipWith (distSq d) zs rs)
      let least := costs.foldl min (costs.headD 0)
      let k := costs.findIdx (· == least)
      rs.set k (ss.getD k 0)
  (rs, (List.zipWith (distSq d) zs rs).sum)

/-- `near` of R201: the integer parts and the coset. -/
def near (bounded : Bool) (d : Nat) (y : List Int) : List Int × Nat :=
  let (p0, d0) := nearCoset bounded d 0 y
  let (p1, d1) := nearCoset bounded d 1 y
  if d1 < d0 then (p1, 1) else (p0, 0)

/-- The word of a point of P16 (R102): SEL says which of the two candidates n7 is. -/
def l16Encode (p : List Int × Nat) : Nat :=
  packElems 2 ((p.1.take 7).map (lowBits 2)) + 2 ^ 14 * (if 0 ≤ p.1.getD 7 0 then 1 else 0) + 2 ^ 15 * p.2

/-- The target of one coordinate: padded, a coordinate of the point as it stands (twice its value), or an element over X. -/
inductive Target where
  | pad
  | keep (c2 : Int)
  | elem (x : FVal)

/-- Is the point of these targets under scale X invalid (R202)? -/
def targetsInvalid (x : FVal) (ts : List Target) : Bool :=
  x.special || x.isZero || ts.any (fun t => match t with | .elem v => v.special | _ => false)

/-- The exponent of an element over X. -/
def targetExp (x : FVal) (t : Target) : Int :=
  match x, t with
  | .fin _ _ ex, .elem (.fin _ _ e) => e - ex
  | _, _ => -1

/-- The unit of the coordinates of a point: 1/d with d even, a multiple of X's magnitude. -/
def targetUnit (x : FVal) (ts : List Target) : Nat :=
  match x with
  | .fin _ mx _ => mx * 2 ^ (-(ts.foldl (fun q t => min q (targetExp x t)) (-1))).toNat
  | _ => 2

/-- A coordinate in units of 1/d (R203, R205). -/
def targetCoord (x : FVal) (d : Nat) (t : Target) : Int :=
  match x, t with
  | .fin sx mx ex, .elem (.fin s m e) =>
    let v : Int := (m * (d / mx) * 2 ^ (e - ex).toNat / 2 ^ (ex - e).toNat : Nat)
    if s != sx then -v else v
  | _, .keep c2 => c2 * (d / 2 : Nat)
  | _, _ => 0

/-- What the quantiser says of a point (R202): the word, and whether it is invalid, inexact or a shell overflow. -/
structure PointRes where
  word : Nat
  invalid : Bool
  inexact : Bool
  overflow : Bool

/-- Quantise one point (R202, R203). -/
def quantPoint (x : FVal) (ts : List Target) : PointRes :=
  if targetsInvalid x ts then { word := 0x4000, invalid := true, inexact := false, overflow := false }
  else
    let d := targetUnit x ts
    let y := ts.map (targetCoord x d)
    let p := near true d y
    let (p0, _) := near false d y
    let far := (List.zipWith (fun y n => y != n * d + (p.2 : Int) * (d / 2 : Nat)) y p.1).zip ts
    { word := l16Encode p, invalid := false,
      inexact := far.any (fun z => z.1 && (match z.2 with | .pad => false | _ => true)),
      overflow := p0.any (fun n => decide (n < -2) || decide (1 < n)) }

/-- The flags of a point written (R203). -/
def PointRes.flags (r : PointRes) (sat : Bool) : Flags :=
  if r.invalid then flagNV
  else (if r.inexact then flagNX else 0) ||| (if sat && r.overflow then flagSF else 0)

/-- The targets of point `p` of a block for LQ and LSTAT (R203). -/
def blockTargets (xs : List FVal) (tp p : Nat) : List Target :=
  (List.range 8).map (fun k => if 128 - tp ≤ 8 * p + k then .pad else .elem (xs.getD (8 * p + k) .nan))

/-- Block H of a vector of format `sf`, as values (R200). -/
def latBlock (sf : Fmt) (l : Word) (v : Vec) : List FVal := (((fmtElems sf v).drop (128 * latH l sf)).take 128).map (fpDecode sf)

/-- The points of the block for LQ and LSTAT. -/
def blockPoints (sf : Fmt) (l : Word) (v : Vec) : List PointRes :=
  let xs := latBlock sf l v
  (List.range 16).map (fun p => quantPoint (fpDecode .bf16 (latX l)) (blockTargets xs (latTP l) p))

/-- Replace the 16 words of group G of an L16 vector. -/
def putGroup (old : Vec) (l : Word) (ws : List Nat) : Vec :=
  let o := vecElems 16 old
  vecOfElems 16 (o.take (16 * latG l) ++ ws ++ o.drop (16 * latG l + 16))

/-- The 16 words of group G of an L16 vector. -/
def groupOf (l : Word) (v : Vec) : List Nat := ((vecElems 16 v).drop (16 * latG l)).take 16

/-- LQ (R203). -/
def lqBody (sf : Fmt) (sat : Bool) (d : VReg) (a : VOp) (l : Word) (s : State) : Except Stop State := do
  let (x, t) ← s.readVOp a
  let rs := blockPoints sf l x
  pure ((t.writeV d (putGroup (s.readV d) l (rs.map (·.word)))).orFlags (rs.foldl (fun f r => f ||| r.flags sat) 0))

/-- LDQ of one element (R103, R204): a product beyond FP32 is infinite with OF, and with NX as R83 and R86 pair it with every overflow
(DEDUCED, log 82), then the result is rounded; an infinite scale makes a NaN of no NaN operand, which sets NV (R83). -/
def ldqElem (f : Fmt) (ro : Rounding) (x : FVal) (j w k : Nat) : Nat × Flags :=
  let v := l16Val x w k
  let (m, e) := maxFiniteMag .fp32
  let beyond : Bool := match v with | .fin _ vm ve => vm != 0 && magCompare vm ve m e == .gt | _ => false
  let (r, fl) := roundTo f ro j (if beyond then .inf v.negative else v)
  (r, fl ||| (if beyond then flagOF ||| flagNX else 0) ||| (match x with | .inf _ => flagNV | _ => 0))

/-- LDQ (R204). -/
def ldqBody (f : Fmt) (rm : Rm) (sat : Bool) (d : VReg) (a : VOp) (l : Word) (s : State) : Except Stop State := do
  let (v, t) ← s.readVOp a
  let ro := s.rounding rm sat
  let x := fpDecode .bf16 (latX l)
  let ws := groupOf l v
  let at_ := 128 * latH l f
  let (rs, fl) := mapLoop (fun i (wk : Nat × Nat) => ldqElem f ro x i wk.1 wk.2) at_ (ws.flatMap (fun w => (List.range 8).map (fun k => (w, k))))
  let old := fmtElems f (s.readV d)
  let t := t.writeV d (vecOfElems f.width (old.take at_ ++ rs ++ old.drop (at_ + 128)))
  pure ((t.orFlags fl).drawFor rm)

/-- One point of LQREP (R205): untouched when the mask selects none of its coordinates. -/
def lqrepPoint (x : FVal) (xs : List FVal) (m : BitVec 1024) (p w : Nat) : Option PointRes :=
  if (List.range 8).any (fun k => maskBit m (8 * p + k)) then
    some (quantPoint x ((List.range 8).map (fun k =>
      if maskBit m (8 * p + k) then .elem (xs.getD (8 * p + k) .nan) else .keep (l16Coord2 w k))))
  else none

/-- LQREP (R205). -/
def lqrepBody (sf : Fmt) (sat : Bool) (d : VReg) (a : VOp) (l : Word) (s : State) : Except Stop State := do
  let (v, t) ← s.readVOp a
  let xs := latBlock sf l v
  let m := s.readM (latMR l)
  let old := s.readV d
  let rs := (groupOf l old).mapIdx (fun p w => (w, lqrepPoint (fpDecode .bf16 (latX l)) xs m p w))
  let ws := rs.map (fun r => match r.2 with | some q => q.word | none => r.1)
  let fl := rs.foldl (fun f r => match r.2 with | some q => f ||| q.flags sat | none => f) (0 : Flags)
  pure ((t.writeV d (putGroup old l ws)).orFlags fl)

/-- A bit for each point that a condition holds of. -/
def pointBits (c : PointRes → Bool) (rs : List PointRes) : Nat := packElems 1 (rs.map (fun r => if c r then 1 else 0))

/-- LSTAT (R206). -/
def lstatBody (sf : Fmt) (d : SReg) (a : VOp) (l : Word) (s : State) : Except Stop State := do
  let (v, t) ← s.readVOp a
  let rs := blockPoints sf l v
  pure (t.writeS d (BitVec.ofNat 64 ((rs.filter (·.overflow)).length * 2 ^ 48 + pointBits (·.invalid) rs * 2 ^ 32
    + pointBits (·.inexact) rs * 2 ^ 16 + pointBits (·.overflow) rs)))

/-! Draws and scale entries. -/

/-- RNGSEED (R207). -/
def rngseedBody (b : Word) (s : State) : State := s.setImg { s.img with seed := b, ctr := 0 }

/-- RNGGET (R208). -/
def rnggetBody (f : Fmt) (d : VOp) (c : MReg) (s : State) : Except Stop State := do
  let t ← fillBody f .rne d c (fun i => (((srg s.img.seed s.img.ctr i) >>> (64 - f.width)).toNat, 0)) s
  pure t.takeDraw

/-- SCPUSH (R209). -/
def scpushBody (a : VOp) (b : Word) (s : State) : Except Stop State := do
  let (v, t) ← s.readVOp a
  t.scaleFill (v.extractLsb' (256 * (b.extractLsb' 0 4).toNat) 256)

/-- SCPOP (R209). -/
def scpopBody (d : VReg) (b : Word) (s : State) : Except Stop State := do
  let (e, t) ← s.scaleTake
  let n := 256 * (b.extractLsb' 0 4).toNat
  pure (t.writeV d ((s.readV d &&& ~~~((BitVec.allOnes 256).setWidth 4096 <<< n)) ||| ((e.setWidth 4096) <<< n)))

/-! Meanings. -/

/-- QCVT (R196, R197). -/
def execQcvt (g : Guard) (f sf : Fmt) (rm : Rm) (d a : VOp) (b : BitVec 2) (s : State) : Out :=
  perform unitVU g 8 (qcvtBody f sf rm d a b) s

/-- QDCVT (R198). -/
def execQdcvt (g : Guard) (f sf : Fmt) (rm : Rm) (sat : Bool) (d a : VOp) (b : BitVec 1) (s : State) : Out :=
  perform unitVU g 8 (qdcvtBody f sf rm sat d a b) s

/-- LQ (R203). -/
def execLq (g : Guard) (_f sf : Fmt) (sat : Bool) (d : VReg) (a : VOp) (b : SReg) (s : State) : Out :=
  perform unitVU g 8 (fun s => lqBody sf sat d a (s.readS b) s) s

/-- LQ (R203), literal form. -/
def execLqLit (g : Guard) (_f sf : Fmt) (sat : Bool) (d : VReg) (a : VOp) (lit : BitVec 32) (s : State) : Out :=
  perform unitVU g 12 (lqBody sf sat d a (zextLit lit)) s

/-- LDQ (R204). -/
def execLdq (g : Guard) (f _sf : Fmt) (rm : Rm) (sat : Bool) (d : VReg) (a : VOp) (b : SReg) (s : State) : Out :=
  perform unitVU g 8 (fun s => ldqBody f rm sat d a (s.readS b) s) s

/-- LDQ (R204), literal form. -/
def execLdqLit (g : Guard) (f _sf : Fmt) (rm : Rm) (sat : Bool) (d : VReg) (a : VOp) (lit : BitVec 32) (s : State) : Out :=
  perform unitVU g 12 (ldqBody f rm sat d a (zextLit lit)) s

/-- LQREP (R205). -/
def execLqrep (g : Guard) (_f sf : Fmt) (sat : Bool) (d : VReg) (a : VOp) (b : SReg) (s : State) : Out :=
  perform unitVU g 8 (fun s => lqrepBody sf sat d a (s.readS b) s) s

/-- LQREP (R205), literal form. -/
def execLqrepLit (g : Guard) (_f sf : Fmt) (sat : Bool) (d : VReg) (a : VOp) (lit : BitVec 32) (s : State) : Out :=
  perform unitVU g 12 (lqrepBody sf sat d a (zextLit lit)) s

/-- LSTAT (R206). -/
def execLstat (g : Guard) (_f sf : Fmt) (d : SReg) (a : VOp) (b : SReg) (s : State) : Out :=
  perform unitVU g 8 (fun s => lstatBody sf d a (s.readS b) s) s

/-- LSTAT (R206), literal form. -/
def execLstatLit (g : Guard) (_f sf : Fmt) (d : SReg) (a : VOp) (lit : BitVec 32) (s : State) : Out :=
  perform unitVU g 12 (lstatBody sf d a (zextLit lit)) s

/-- RNGSEED (R207): performed by the SQ. -/
def execRngseed (g : Guard) (b : SReg) (s : State) : Out := performPure g 8 (fun s => rngseedBody (s.readS b) s) s

/-- RNGSEED, literal form (R207). -/
def execRngseedLit (g : Guard) (lit : BitVec 32) (s : State) : Out := performPure g 12 (rngseedBody (zextLit lit)) s

/-- RNGGET (R208). -/
def execRngget (g : Guard) (f : Fmt) (d : VOp) (c : MReg) (s : State) : Out :=
  perform unitVU g 8 (rnggetBody f d c) s

/-- SCPUSH (R209). -/
def execScpush (g : Guard) (a : VOp) (b : SReg) (s : State) : Out :=
  perform unitVU g 8 (fun s => scpushBody a (s.readS b) s) s

/-- SCPUSH (R209), literal form. -/
def execScpushLit (g : Guard) (a : VOp) (lit : BitVec 32) (s : State) : Out :=
  perform unitVU g 12 (scpushBody a (zextLit lit)) s

/-- SCPOP (R209). -/
def execScpop (g : Guard) (d : VReg) (b : SReg) (s : State) : Out :=
  perform unitVU g 8 (fun s => scpopBody d (s.readS b) s) s

/-- SCPOP (R209), literal form. -/
def execScpopLit (g : Guard) (d : VReg) (lit : BitVec 32) (s : State) : Out :=
  perform unitVU g 12 (scpopBody d (zextLit lit)) s

end Sys2Proof.Machine
end

