-- ==== Sys2Proof/Machine/Matrix.lean ====
section
/-!
DEFINITION. The matrix unit and the weight stream unit (chapter 09): the matrix record and the weight slots, the reload of
slots at a bind (R234), the shared bodies, then one meaning per row.
-/

namespace Sys2Proof.Machine

open Sys2Proof

/-- The first `n` runs of `k` elements of a list. -/
def slices {α : Type} (k : Nat) : Nat → List α → List (List α)
  | 0, _ => []
  | n + 1, xs => xs.take k :: slices k n (xs.drop k)

/-- The first `n` little-endian patterns of `k` bytes. -/
def patternsOf (k n : Nat) (bs : List Byte) : List Nat := (slices k n bs).map natOfBytes

/-! The matrix record (R234). -/

/-- The matrix record of the active slot. -/
def State.mr (s : State) : MatrixRec := s.core.m.mr
/-- Replace the matrix record. -/
def State.setMr (s : State) (r : MatrixRec) : State := { s with core := { s.core with m := { s.core.m with mr := r } } }
/-- The record of a weight slot. -/
def State.slotRec (s : State) (b : WSlot) : SlotRec := s.mr.slots[b.toFin]
/-- Replace the record of a weight slot. -/
def State.setSlotRec (s : State) (b : WSlot) (r : SlotRec) : State :=
  s.setMr { s.mr with slots := s.mr.slots.set b.toNat r b.isLt }
/-- The failure that a reload left at a slot (R234). -/
def State.slotFail (s : State) (b : WSlot) : Option Stop := s.core.wfail[b.toFin]
/-- Set or clear the failure of a slot. -/
def State.setSlotFail (s : State) (b : WSlot) (f : Option Stop) : State :=
  { s with core := { s.core with wfail := s.core.wfail.set b.toNat f b.isLt } }
/-- Fill a slot of the weight buffer. -/
def State.fillSlot (s : State) (b : WSlot) (v : BitVec 34816) : State :=
  { s with core := { s.core with wbuf := s.core.wbuf.set b.toNat v b.isLt } }

/-- A MU command completes: counter 1 of MSTAT, and the cycles it spent computing and waiting: for A entries where A is a queue, and
for scale entries where it takes scales (R233). Counter 1 counts MMA, MMAS, MMAG, MMAL, MZERO and MDRAIN; counter 4 adds the cycles of R211,
MMAG 8 more, MZERO and MDRAIN none (DESIGN CHOICE, log 6). -/
def State.muDone (s : State) (busy : Nat) (queued scaled : Bool) : State :=
  s.setMr { s.mr with instrs := s.mr.instrs + 1, busy := s.mr.busy + BitVec.ofNat 64 busy,
                      waitA := if queued then s.mr.waitA + Config.freeCount s.fresh else s.mr.waitA,
                      waitS := if scaled then s.mr.waitS + Config.freeCount (s.fresh + 1) else s.mr.waitS }

/-- Is operand A of a matrix instruction a queue? -/
def isQueue (a : TOp) : Bool := match a with | .queue _ => true | .tile _ => false

/-! Formats (R211). -/

/-- The A formats and their pairing: formats of one class pair (R211). -/
def matrixClass : Fmt → Option Nat
  | .int8 | .uint8 => some 0
  | .int4 | .uint4 => some 1
  | .e4m3 | .e5m2 => some 2
  | .e2m1 => some 3
  | .fp16 | .bf16 => some 4
  | _ => none

/-- K per instruction (R211). -/
def matrixDepth (f : Fmt) : Nat := 512 / f.width
/-- The chunk of R108. -/
def matrixChunk (f : Fmt) : Nat := 256 / f.width
/-- The dense MU cycles (R211). -/
def matrixCycles (f : Fmt) : Nat := if f.width = 16 then 128 else 64

/-- The format a slot holds: CB3 decodes to BF16 (R229). -/
def SlotRec.format (r : SlotRec) : Fmt := match Fmt.ofCode r.fmt with | some .cb3 => .bf16 | some f => f | none => .int8
/-- The K of a slot (R229). -/
def SlotRec.depth (r : SlotRec) : Nat := if r.format == .l16 then (if r.c.getLsbD 4 then 32 else 64) else matrixDepth r.format

/-! Tile images (R229, R231). -/

/-- The bytes of a tile image (R229). -/
def imageBytes (f : Fmt) (c : BitVec 6) : Nat :=
  match f with
  | .l16 => if c.getLsbD 4 then 640 else 1152
  | .cb3 => 768
  | _ => 4096 + (if c.getLsbD 2 then 2 * (matrixDepth f) else 0)

/-- A BF16 table entry: a NaN becomes the canonical one (R101). -/
def cb3Entry (n : Nat) : Nat := if 0x7F80 < n % 0x8000 then 0x7FC0 else n

/-- The 4,096 bytes that a CB3 image decodes to, each block under its own table (R100, R101, R231). -/
def cb3Decode (image tables : List Byte) : List Byte :=
  let entries := (patternsOf 2 128 tables).map cb3Entry
  ((unpackElems 3 2048 (natOfBytes image)).mapIdx (fun i x => bytesOfNat 2 (entries.getD (8 * (i / 128) + x) 0))).flatten

/-- Check and read a tile image and its tables into slot content (R229, R231). The image is checked and read before TV and the tables are
looked at (DESIGN CHOICE, log 92). The range fault of TV = 0 gives T as its value (DESIGN CHOICE, log 103). -/
def State.slotImage (s : State) (f : Fmt) (c : BitVec 6) (ea : Word) (tv : Bool) (ts : Space) (t : Nat) : Except Stop (BitVec 34816) := do
  if ea.toNat % 64 != 0 then .error (trapAt 4 ea 0)
  let sp := Space.ofCode (c.extractLsb' 0 2)
  let n := imageBytes f c
  s.checkRun sp (some .wsu) ea.toNat n
  let image ← s.loadRunEngine sp ea.toNat n
  if f == .cb3 then do
    if !tv then .error (trapAt 6 (BitVec.ofNat 64 t) 0)
    s.checkRun ts (some .wsu) t 256
    let tables ← s.loadRunEngine ts t 256
    pure (BitVec.ofNat 34816 (natOfBytes (cb3Decode image tables)))
  else pure (BitVec.ofNat 34816 (natOfBytes image))

/-- The weight stream unit reads a tile image and its tables (R321). -/
def State.noteImage (s : State) (f : Fmt) (c : BitVec 6) (ea : Word) (ts : Space) (t : Nat) : State :=
  let s := s.noteRun (Space.ofCode (c.extractLsb' 0 2)) ea.toNat (imageBytes f c)
  if f == .cb3 then s.noteRun ts t 256 else s

/-- Make the load of a slot's record again (R234). -/
def State.reloadImage (s : State) (b : WSlot) : Except Stop (BitVec 34816) :=
  let r := s.slotRec b
  s.slotImage ((Fmt.ofCode r.fmt).getD .int8) r.c r.ea true (Space.ofCode r.ts) r.t.toNat

/-- The reads of that load (R321). -/
def State.noteReload (s : State) (b : WSlot) : State :=
  let r := s.slotRec b
  s.noteImage ((Fmt.ofCode r.fmt).getD .int8) r.c r.ea (Space.ofCode r.ts) r.t.toNat

/-- The failure of a reload as the first reader of the slot meets it (R234). -/
def readerFault (b : WSlot) (f : Stop) : Stop :=
  match f with
  | .trap e => .trap { code := 15, faddr := e.faddr, info := b.setWidth 64, slotn := b.toNat }
  | f => f

/-- Reload one slot recorded as Loading or Valid: content, or a failure and for a page that is away its recall (R234); a load that waits at
a bank stays Loading, and the slot's reader makes it again. It adds nothing to
WSTAT 1 (DESIGN CHOICE, log 92). A slot that failed shows the state Loading, also where its record said Valid (DESIGN CHOICE, log 103). -/
def State.reloadSlot (s : State) (b : WSlot) : State :=
  let r := s.slotRec b
  if r.st == .invalid then s
  else match s.reloadImage b with
    | .ok v => (((s.noteReload b).fillSlot b v).setSlotRec b { r with st := .valid }).setSlotFail b none
    | .error (.bank pa) => ((s.setSlotRec b { r with st := .loading }).setSlotFail b none).bankWait pa
    | .error f =>
      let s := (s.setSlotRec b { r with st := .loading }).setSlotFail b (some f)
      match f with
      | .park va => s.recall s.core.part va 0
      | _ => s

/-- The reloads of the core whose turn it is, in ascending slot order (R234). -/
def State.reloadSlots (s : State) : State := (List.range 16).foldl (fun t i => t.reloadSlot (BitVec.ofNat 4 i)) s

/-- What follows a bind on each core: the NS size of the context's task is applied (R256), then the slots reload (R234). -/
def State.startMember (s : State) (id : BitVec 10) : State :=
  let turn := s.core.id
  let s := s.focus id
  ((s.moveNs s.core.m.ns).reloadSlots).focus turn

/-- Place a Ready context on a block (R303). -/
def State.placeCtx (s : State) (h : BitVec 32) (base : BitVec 10) : State :=
  match s.findCtx h with
  | none => s
  | some c => (gangCores base c.gang).foldl State.startMember (s.bindCtx h base)

/-! Issue checks (R220). -/

/-- The weight-slot fault, code 15. -/
def slotFault (b : WSlot) : Stop := .trap { code := 15, info := b.setWidth 64 }
/-- The accumulator-view fault, code 16. -/
def viewFault (n : AccReg) : Stop := .trap { code := 16, info := n.setWidth 64 }

/-- Pop the `n` entries that a matrix instruction reads: fewer than `n` entries left is a fault before any held-back fault of
theirs is (R220). -/
def State.popEntries (s : State) (q : QReg) (n : Nat) : Except Stop (List Vec × State) :=
  let st := s.stream q
  let more := (st.n - st.spec + shElems (s.readSh st.sh) - 1) / shElems (s.readSh st.sh)
  if st.fetches && decide ((s.queue q).length + more < n) then .error (queueFault 12 q)
  else s.readWide (.queue q) n

/-- The 4 KiB A tile of an operand (R216). -/
def State.readTile (s : State) (a : TOp) : Except Stop (List Byte × State) :=
  match a with
  | .tile t => .ok (s.regBytesAt (s.offT t.toNat) 4096, s)
  | .queue q => do
    let (vs, s) ← s.popEntries q 8
    pure (vs.flatMap bytesOfVec, s)

/-- A slot as a reader of format `f` finds it at issue (R220, R227): its record and the state, a reload that is due having been
made. -/
def State.slotFor (s : State) (f : Fmt) (lattice : Bool) (b : WSlot) : Except Stop (SlotRec × State) := do
  let r := s.slotRec b
  let s ← match r.st, s.slotFail b with
    | .invalid, _ => .error (slotFault b)
    | _, some e => .error (readerFault b e)
    | .valid, none => .ok s
    | .loading, none => match s.reloadImage b with
      | .ok v => .ok (((s.noteReload b).fillSlot b v).setSlotRec b { r with st := .valid })
      | .error e => .error (readerFault b e)
  let pairs := if lattice then r.format == .l16 else r.format != .l16 && matrixClass r.format == matrixClass f
  if !pairs || r.depth != matrixDepth f then .error (slotFault b) else pure (r, s)

/-- Do two register-space runs overlap, after wrap (R220)? -/
def runsOverlap (a na b nb : Nat) : Bool :=
  decide ((b + regBytes - a) % regBytes < na) || decide ((a + regBytes - b) % regBytes < nb)

/-- The overlap check of R220. -/
def State.viewClear (s : State) (n : AccReg) (runs : List (Nat × Nat)) : Except Stop Unit :=
  if runs.any (fun r => runsOverlap (s.offAcc n.toNat) 16384 r.1 r.2) then .error (viewFault n) else .ok ()

/-! Values. -/

/-- The bytes of a slot of the weight buffer. -/
def State.slotBytes (s : State) (b : WSlot) : List Byte := bytesOfNat 4352 (s.core.wbuf[b.toFin]).toNat

/-- The elements of a run of bytes (R58). -/
def rowElems (f : Fmt) (bs : List Byte) : List Nat := unpackElems f.width (8 * bs.length / f.width) (natOfBytes bs)

/-- The values of a row or column: under the scale bytes `sc`, one for 32 elements, when it has them (R99). -/
def scaledVals (f : Fmt) (ue : Bool) (sc : Option (List Nat)) (xs : List Nat) : List FVal :=
  match sc with
  | none => xs.map (valOf f)
  | some bs => xs.mapIdx (fun k x => mxVal f (scaleVal ue (bs.getD (k / 32) 0)) x)

/-- NV where decoding under scales makes a NaN of an element and a scale that are none (R83, R99; DEDUCED, log 93). -/
def scaledFlags (f : Fmt) (ue : Bool) (sc : Option (List Nat)) (xs : List Nat) : Flags :=
  match sc with
  | none => 0
  | some bs =>
    if xs.zipIdx.any (fun (x, k) =>
        let c := scaleVal ue (bs.getD (k / 32) 0)
        !c.isNan && !(mxElem f x).isNan && (mxVal f c x).isNan) then flagNV else 0

/-- The values of a column of an L16 slot through the coset port (R223), OF with NX where a product passes FP32 (R103, R83; log 82), and NV
where an infinite scale makes a NaN (R83; DEDUCED, log 93). -/
def cosetColumn (scale : FVal) (ws : List Nat) : List FVal × Flags :=
  let (m, e) := maxFiniteMag .fp32
  let vs := ws.flatMap (fun w => (List.range 8).map (fun k =>
    let v := l16Val scale w k
    match v with
    | .fin n vm ve => if vm != 0 && magCompare vm ve m e == Ordering.gt then (FVal.inf n, flagOF ||| flagNX) else (v, (0 : Flags))
    | v => (v, (0 : Flags))))
  (vs.map (·.1), vs.foldl (fun f x => f ||| x.2) (match scale with | .inf _ => flagNV | _ => 0))

/-- The 64 columns of a slot, with the flags of their decoding (R222, R223). -/
def State.slotColumns (s : State) (r : SlotRec) (b : WSlot) : List (List FVal × Flags) :=
  let bs := s.slotBytes b
  let k := r.depth
  if r.format == .l16 then
    let cols := slices (k / 8) 64 (patternsOf 2 (8 * k) bs)
    let scales := patternsOf 2 64 (bs.drop (16 * k))
    List.zipWith (fun ws x => cosetColumn (fpDecode .bf16 x) ws) cols scales
  else
    let scales := slices (k / 32) 64 ((bs.drop 4096).map BitVec.toNat)
    List.zipWith (fun col sc => 
        let xs := rowElems r.format col
        let sc := if r.c.getLsbD 2 then some sc else none
        (scaledVals r.format (r.c.getLsbD 3) sc xs, scaledFlags r.format (r.c.getLsbD 3) sc xs))
      (slices 64 64 bs) scales

/-- Rebuild a dense row from its kept values and its metadata row (R218). -/
def denseRow (kept : List Nat) (meta_ : Nat) : List Nat :=
  ((List.range (kept.length / 2)).map (fun g =>
    let nib := meta_ / 16 ^ g % 16
    (([0, 0, 0, 0] : List Nat).set (nib % 4) (kept.getD (2 * g) 0)).set (nib / 4) (kept.getD (2 * g + 1) 0))).flatten

/-- The exact sum of a chunk's products (R108): any NaN gives NaN with no flag of its own; NV where infinities make one. -/
def chunkSum (xs ys : List FVal) : FVal × Flags :=
  if xs.any FVal.isNan || ys.any FVal.isNan then (.nan, 0)
  else
    let (t, f) := (List.zipWith FVal.mul xs ys).foldl (fun (a : FVal × Flags) p =>
      let (v, f) := FVal.add .rne a.1 p.1
      (v, a.2 ||| p.2 ||| f)) (.fin false 0 0, 0)
    if t.isNan then (.nan, flagNV) else (t, f)

/-- One chunk of `acc_update` (R108). -/
def accChunk (sat : Bool) (acc : Nat) (xs ys : List FVal) : Nat × Flags :=
  let (s, f) := chunkSum xs ys
  let (t, f1) := if s.isZero then (0, 0) else roundTo .fp32 (Rounding.rne false) 0 s
  let (v, f2) := FVal.add .rne (fpDecode .fp32 acc) (fpDecode .fp32 t)
  let (r, f3) := roundTo .fp32 (Rounding.rne sat) 0 v
  (r, f ||| f1 ||| f2 ||| f3)

/-- `acc_update` of R108 over `n` chunks of `cs`. -/
def accUpdate (sat : Bool) (cs : Nat) : Nat → Nat → List FVal → List FVal → Nat × Flags
  | 0, acc, _, _ => (acc, 0)
  | n + 1, acc, xs, ys =>
    let (acc, f) := accChunk sat acc (xs.take cs) (ys.take cs)
    let (acc, g) := accUpdate sat cs n acc (xs.drop cs) (ys.drop cs)
    (acc, f ||| g)

/-- The integer update of R109. -/
def intUpdate (sat : Bool) (acc : Nat) (xs ys : List Int) : Nat × Flags :=
  narrowInt .int32 sat (sextNat 32 acc + (List.zipWith (· * ·) xs ys).sum)

/-- Update every element of an accumulator, rows by columns (R221). -/
def updateAll {α : Type} (up : Nat → List α → List α → Nat × Flags) (rows cols : List (List α)) (acc : List Nat) : List Nat × Flags :=
  let accRows := slices 64 64 acc
  let rs := (List.zipWith (fun row ar => List.zipWith (fun col x => up x row col) cols ar) rows accRows).flatten
  (rs.map (·.1), rs.foldl (fun f r => f ||| r.2) 0)

/-- The integer of an exact integer value. -/
def FVal.toInt (x : FVal) : Int :=
  match x with
  | .fin n m _ => if n then -(m : Int) else m
  | _ => 0

/-- Multiply and accumulate (R221): the A rows as values, the columns with their flags, and accumulator D. -/
def State.accumulate (s : State) (f : Fmt) (sat : Bool) (d : AccReg) (busy : Nat) (queued scaled : Bool) (rows : List (List FVal)) (cols : List (List FVal × Flags)) : State :=
  let acc := patternsOf 4 4096 (s.regBytesAt (s.offAcc d.toNat) 16384)
  let (res, fl) :=
    if f.integer then updateAll (intUpdate sat) (rows.map (·.map FVal.toInt)) (cols.map (fun c => c.1.map FVal.toInt)) acc
    else
      let kd := (rows.headD []).length
      updateAll (accUpdate sat (matrixChunk f) (kd / matrixChunk f)) rows (cols.map (·.1)) acc
  let fl := cols.foldl (fun f c => f ||| c.2) fl
  (((s.putReg (s.offAcc d.toNat) (res.flatMap (bytesOfNat 4))).orFlags fl)).muDone busy queued scaled

/-- Does the MCW give the A format scales (R214, R219)? -/
def State.scalesA (s : State) (f : Fmt) : Bool := (f == .e2m1 || f == .e4m3 || f == .e5m2) && s.mr.mcw.extractLsb' 0 2 != 0

/-- The scale bytes of the A rows, from `Kd / 16` consecutive entries (R219), or none. -/
def State.takeScales (s : State) (f : Fmt) (kd : Nat) : Except Stop (Option (List (List Nat)) × State) :=
  if s.scalesA f then do
    let (es, s) ← s.scaleTakeN (kd / 16)
    pure (some (slices (kd / 32) 64 (es.flatMap (fun e => unpackElems 8 32 e.toNat))), s)
  else .ok (none, s)

/-- The values of the A rows (R216, R219). -/
def State.rowVals (s : State) (f : Fmt) (scales : Option (List (List Nat))) (rows : List (List Nat)) : List (List FVal) :=
  let ue := s.mr.mcw.extractLsb' 0 2 == 2
  match scales with
  | none => rows.map (scaledVals f ue none)
  | some scs => List.zipWith (fun r sc => scaledVals f ue (some sc) r) rows scs

/-- The flags of decoding the A rows (R83). -/
def State.rowFlags (s : State) (f : Fmt) (scales : Option (List (List Nat))) (rows : List (List Nat)) : Flags :=
  let ue := s.mr.mcw.extractLsb' 0 2 == 2
  match scales with
  | none => 0
  | some scs => (List.zipWith (fun r sc => scaledFlags f ue (some sc) r) rows scs).foldl (· ||| ·) 0

/-- MMA and MMAL (R216, R220 to R223). -/
def mmaBody (f : Fmt) (sat lattice : Bool) (d : AccReg) (a : TOp) (b : WSlot) (s : State) : Except Stop State := do
  let (tile, s) ← s.readTile a
  let (r, s) ← s.slotFor f lattice b
  s.viewClear d (match a with | .tile t => [(s.offT t.toNat, 4096)] | .queue _ => [])
  let (scales, s) ← s.takeScales f (matrixDepth f)
  let rows := (slices 64 64 tile).map (rowElems f)
  pure ((s.accumulate f sat d (matrixCycles f) (isQueue a) scales.isSome (s.rowVals f scales rows) (s.slotColumns r b)).orFlags
    (s.rowFlags f scales rows))

/-- The tiles of an operand and of the metadata as runs, for the overlap check. -/
def State.tileRuns (s : State) (a : TOp) (c : TileReg) : List (Nat × Nat) :=
  (match a with | .tile t => [(s.offT t.toNat, 4096)] | .queue _ => []) ++ [(s.offT c.toNat, 4096)]

/-- MMAS (R218): slots B and B + 1 hold the two halves of the depth and must hold one format. -/
def mmasBody (f : Fmt) (sat : Bool) (d : AccReg) (a : TOp) (b : WSlot) (c : TileReg) (s : State) : Except Stop State := do
  let (tile, s) ← s.readTile a
  let (r, s) ← s.slotFor f false b
  let (r', s) ← s.slotFor f false (b + 1)
  if r.format != r'.format then .error (slotFault (b + 1))
  s.viewClear d (s.tileRuns a c)
  let kd := 2 * matrixDepth f
  let (scales, s) ← s.takeScales f kd
  let metas := patternsOf (kd / 8) 64 (s.regBytesAt (s.offT c.toNat) 4096)
  let rows := List.zipWith denseRow ((slices 64 64 tile).map (rowElems f)) metas
  let cols := List.zipWith (fun x y => (x.1 ++ y.1, x.2 ||| y.2)) (s.slotColumns r b) (s.slotColumns r' (b + 1))
  pure ((s.accumulate f sat d (matrixCycles f) (isQueue a) scales.isSome (s.rowVals f scales rows) cols).orFlags (s.rowFlags f scales rows))

/-- The row that MMAG takes for an index: none at or above GLIM (R217). -/
def State.gatherRow (s : State) (a : TileReg) (i : Nat) : Option Nat :=
  let glim := (s.mr.mcw.extractLsb' 16 12).toNat
  if glim != 0 && decide (glim ≤ i) then none else some ((s.offT a.toNat + 64 * i) % regBytes)

/-- MMAG (R217); the rows that it takes hold no error (R354). -/
def mmagBody (f : Fmt) (sat : Bool) (d : AccReg) (a : TileReg) (b : WSlot) (c : VOp) (s : State) : Except Stop State := do
  let (v, s) ← match c with
    | .reg n => .ok (s.readV n, s)
    | .queue q => do
      let (vs, s) ← s.popEntries q 1
      pure (vs.headD 0, s)
  let (r, s) ← s.slotFor f false b
  let offs := ((vecElems 16 v).take 64).map (s.gatherRow a)
  s.viewClear d (offs.filterMap (fun o => o.map (fun o => (o, 64))))
  let _ ← (offs.filterMap id).mapM (fun o => s.soundReg o 64)
  let (scales, s) ← s.takeScales f (matrixDepth f)
  let rows := offs.map (fun o => rowElems f (match o with | some o => s.regBytesAt o 64 | none => List.replicate 64 0))
  pure ((s.accumulate f sat d (matrixCycles f + 8) (match c with | .queue _ => true | .reg _ => false) scales.isSome (s.rowVals f scales rows)
    (s.slotColumns r b)).orFlags (s.rowFlags f scales rows))

/-- MZERO (R224). -/
def mzeroBody (d : AccReg) (s : State) : State := (s.putReg (s.offAcc d.toNat) (List.replicate 16384 0)).muDone 0 false false

/-- The amax space of MDRAIN's field C (R212): none, vault or NS. -/
def amaxSpace (sp : Space) : Option Space := match sp with | .virt => none | sp => some sp

/-- The amax update of R226 with the accumulator's patterns. -/
def State.amaxUpdate (s : State) (f : Fmt) (sp : Space) (ea : Word) (acc : List Nat) : Except Stop State := do
  if ea.toNat % 4 != 0 then .error (trapAt 4 ea 0)
  s.checkRun sp none ea.toNat 4
  let old ← s.loadRun sp ea.toNat 4
  let new :=
    if f.integer then acc.foldl (fun m x => max m (sextNat 32 x).natAbs) (natOfBytes old)
    else encodeExact .fp32 (acc.foldl (fun m x => fpMax m (fpDecode .fp32 x).abs) (fpDecode .fp32 (natOfBytes old)))
  s.storeRun sp .atomic ea.toNat (bytesOfNat 4 new)

/-- MDRAIN (R225, R226). A fault of its queue destination comes before those of the magnitude word (DESIGN CHOICE, log 92). -/
def mdrainBody (f : Fmt) (rm : Rm) (sat : Bool) (sp : Space) (z : Bool) (d : TOp) (a : AccReg) (ea : Word) (s : State) : Except Stop State := do
  let off := s.offAcc a.toNat
  let acc := patternsOf 4 4096 (s.regBytesAt off 16384)
  let ro := s.rounding rm sat
  let (res, fl) := mapLoop (fun e x => if f.integer then narrowInt f sat (sextNat 32 x) else roundTo f ro e (fpDecode .fp32 x)) 0 acc
  let vs := (slices (4096 / f.width) f.width res).map (vecOfElems f.width)
  let t ← match d with
    | .tile t => do
      s.viewClear a [(s.offT t.toNat, 512 * f.width)]
      pure (s.putReg (s.offT t.toNat) (vs.flatMap bytesOfVec))
    | .queue q => s.writeWide (.queue q) vs
  let t := if z then t.putReg off (List.replicate 16384 0) else t
  let t ← match amaxSpace sp with
    | some sp => t.amaxUpdate f sp ea acc
    | none => pure t
  pure (((t.orFlags fl).drawFor rm).muDone 0 false false)

/-- MCFG (R215). -/
def mcfgBody (b : Word) (s : State) : Except Stop State :=
  if b.extractLsb' 0 2 == 3 || b &&& ~~~0x0FFF0003#64 != 0 then .error (.trap { code := 17, info := b })
  else .ok (s.setMr { s.mr with mcw := b })

/-- The field C of WLOAD (R229). -/
def wloadC (sp : Space) (mx ue k32 : Bool) : BitVec 6 := 0#1 ++ BitVec.ofBool k32 ++ BitVec.ofBool ue ++ BitVec.ofBool mx ++ sp.code

/-- The record that a WLOAD puts in its slot when it is dispatched (R227, R234). -/
def State.wloadRec (s : State) (f : Fmt) (c : BitVec 6) (cl : BitVec 4) (ea : Word) (st : SlotState) : SlotRec :=
  { st := st, ea := ea, t := s.mr.t, ts := s.mr.ts, fmt := f.code, c := c, cl := cl }

/-- The cycles until the first byte of a table or an image arrives (R232, R235): from virtual memory they are not stated. -/
def firstByte (sp : Space) : Option Nat := match sp with | .ns => some 4 | .vault => some 10 | _ => none

/-- The cycles that block 0 of a CB3 WLOAD waits for its table (R232): none but for the first WLOAD after a WTAB, where the wait is
what the index fetch, begun a cycle after it or later, does not cover; from virtual memory they are free (DESIGN CHOICE, log 6). A WTAB
counts as the last one of its core also for the next context there (DESIGN CHOICE, log 103). -/
def State.lateCycles (s : State) (sp : Space) : Nat :=
  let free := (Config.freeCount s.fresh).toNat
  match firstByte (Space.ofCode s.mr.ts), firstByte sp, s.core.wtab with
  | none, _, _ => free
  | some _, _, none => 0
  | some t, none, some _ => free % (t + 1)
  | some t, some i, some p => if p == s.img.pc then t - (i + 1) else free % (t - (i + 1) + 1)

/-- WLOAD whose checks pass (R229, R231): slot, record, T past the tables used, the counters of R233; the tables of a CB3 load are
bytes read too. -/
def State.wloadDone (s : State) (f : Fmt) (c : BitVec 6) (cl : BitVec 4) (d : WSlot) (ea : Word) (v : BitVec 34816) : State :=
  let late := s.lateCycles (Space.ofCode (c.extractLsb' 0 2))
  let s := s.noteImage f c ea (Space.ofCode s.mr.ts) s.mr.t.toNat
  let s := if f == .cb3 then { s with core := { s.core with wtab := none } } else s
  let s := ((s.fillSlot d v).setSlotRec d (s.wloadRec f c cl ea .valid)).setSlotFail d none
  let r := s.mr
  s.setMr { r with read := r.read + BitVec.ofNat 64 (imageBytes f c + (if f == .cb3 then 256 else 0)),
                   t := if f == .cb3 then r.t + 256 else r.t,
                   late := if f == .cb3 then r.late + BitVec.ofNat 64 late else r.late }

/-- WLOAD whose check failed: a trap leaves the slot Invalid, a park keeps the record Loading (R227). -/
def State.wloadFailed (s : State) (f : Fmt) (c : BitVec 6) (cl : BitVec 4) (d : WSlot) (ea : Word) (st : Stop) : State :=
  (s.setSlotRec d (s.wloadRec f c cl ea (match st with | .trap _ => .invalid | _ => .loading))).setSlotFail d none

/-- WLOAD (R229) under a guard. -/
def performLoad (g : Guard) (len : Nat) (f : Fmt) (c : BitVec 6) (cl : BitVec 4) (d : WSlot) (ea : Word) (s : State) : Out :=
  if s.guardTrue g then
    match s.slotImage f c ea s.mr.tv (Space.ofCode s.mr.ts) s.mr.t.toNat with
    | .ok v => .next ((s.wloadDone f c cl d ea v).retire len)
    | .error st => .next ((s.wloadFailed f c cl d ea st).deliver unitWSU st)
  else .next (s.retire len)

/-- WTAB (R231). -/
def wtabBody (sp : Space) (ea : Word) (len : Nat) (s : State) : Except Stop State := do
  if ea.toNat % 16 != 0 then .error (trapAt 4 ea 0)
  s.checkRun sp (some .wsu) ea.toNat 16
  let s := s.setMr { s.mr with t := ea.setWidth 57, ts := sp.code, tv := true }
  pure { s with core := { s.core with wtab := some (s.img.pc + BitVec.ofNat 64 len) } }

/-- Does a slot stand in a state? A bit for each slot. -/
def slotBits (v : Vector SlotRec 16) (st : SlotState) : Nat := packElems 1 (v.toList.map (fun r => if r.st == st then 1 else 0))

/-- The value of WSTAT (R233). -/
def State.wstatWord (s : State) (k : BitVec 2) : Word :=
  let r := s.mr
  match k.toNat with
  | 0 => BitVec.ofNat 64 (slotBits r.slots .valid + 2 ^ 16 * slotBits r.slots .loading + 2 ^ 32 * r.tv.toNat + 2 ^ 33 * r.ts.toNat)
  | 1 => r.late
  | 2 => r.t.setWidth 64
  | _ => r.read

/-- The value of MSTAT (R233). -/
def State.mstatWord (s : State) (k : Fin 5) : Word :=
  let r := s.mr
  match k.val with
  | 0 => r.mcw
  | 1 => r.instrs
  | 2 => r.waitA
  | 3 => r.waitS
  | _ => r.busy

/-- A reader has met the failure of a reload: the reload is due again before the slot's next reader (R234). -/
def State.reloadDue (s : State) (slots : List WSlot) (st : Stop) : State :=
  slots.foldl (fun t b => match t.slotFail b with
    | some f => if readerFault b f == st then t.setSlotFail b none else t
    | none => t) s

/-- Perform a matrix instruction that reads weight slots. -/
def performReader (g : Guard) (slots : List WSlot) (body : State → Except Stop State) (s : State) : Out :=
  if s.guardTrue g then
    match body s with
    | .ok t => .next (t.retire 8)
    | .error st => .next ((s.reloadDue slots st).deliver unitMU st)
  else .next (s.retire 8)

/-! Meanings. -/

/-- MMA (R221). -/
def execMma (g : Guard) (f : Fmt) (sat : Bool) (d : AccReg) (a : TOp) (b : WSlot) (s : State) : Out :=
  performReader g [b] (mmaBody f sat false d a b) s

/-- MMAS (R218, R221). -/
def execMmas (g : Guard) (f : Fmt) (sat : Bool) (d : AccReg) (a : TOp) (b : WSlot) (c : TileReg) (s : State) : Out :=
  performReader g [b, b + 1] (mmasBody f sat d a b c) s

/-- MMAG (R217, R221). -/
def execMmag (g : Guard) (f : Fmt) (sat : Bool) (d : AccReg) (a : TileReg) (b : WSlot) (c : VOp) (s : State) : Out :=
  performReader g [b] (mmagBody f sat d a b c) s

/-- MMAL (R221, R223). -/
def execMmal (g : Guard) (f : Fmt) (sat : Bool) (d : AccReg) (a : TOp) (b : WSlot) (s : State) : Out :=
  performReader g [b] (mmaBody f sat true d a b) s

/-- MZERO (R224). -/
def execMzero (g : Guard) (d : AccReg) (s : State) : Out :=
  performPure g 8 (mzeroBody d) s

/-- MDRAIN (R225, R226). -/
def execMdrain (g : Guard) (f : Fmt) (rm : Rm) (sat : Bool) (_sc : Scope) (_cl : BitVec 4) (sp : Space) (z : Bool) (d : TOp) (a : AccReg) (b : SReg) (s : State) : Out :=
  perform unitMU g 8 (mdrainBody f rm sat sp z d a (s.readS b)) s

/-- MDRAIN, literal form (R225, R226). -/
def execMdrainLit (g : Guard) (f : Fmt) (rm : Rm) (sat : Bool) (_sc : Scope) (_cl : BitVec 4) (sp : Space) (z : Bool) (d : TOp) (a : AccReg) (lit : BitVec 32) (s : State) : Out :=
  perform unitMU g 12 (mdrainBody f rm sat sp z d a (zextLit lit)) s

/-- MCFG (R215). -/
def execMcfg (g : Guard) (b : SReg) (s : State) : Out :=
  perform unitSQ g 8 (mcfgBody (s.readS b)) s

/-- MCFG, literal form (R215). -/
def execMcfgLit (g : Guard) (lit : BitVec 32) (s : State) : Out :=
  perform unitSQ g 12 (mcfgBody (zextLit lit)) s

/-- WLOAD (R229). -/
def execWload (g : Guard) (f : Fmt) (cl : BitVec 4) (sp : Space) (mx ue k32 : Bool) (d : WSlot) (a b : SReg) (s : State) : Out :=
  performLoad g 8 f (wloadC sp mx ue k32) cl d (s.addrOf a (s.readS b)) s

/-- WLOAD, literal form (R229). -/
def execWloadLit (g : Guard) (f : Fmt) (cl : BitVec 4) (sp : Space) (mx ue k32 : Bool) (d : WSlot) (a : SReg) (lit : BitVec 32) (s : State) : Out :=
  performLoad g 12 f (wloadC sp mx ue k32) cl d (s.addrOf a (sextLit lit)) s

/-- WTAB (R231). -/
def execWtab (g : Guard) (_cl : BitVec 4) (sp : Space) (a b : SReg) (s : State) : Out :=
  perform unitWSU g 8 (wtabBody sp (s.addrOf a (s.readS b)) 8) s

/-- WTAB, literal form (R231). -/
def execWtabLit (g : Guard) (_cl : BitVec 4) (sp : Space) (a : SReg) (lit : BitVec 32) (s : State) : Out :=
  perform unitWSU g 12 (wtabBody sp (s.addrOf a (sextLit lit)) 12) s

/-- WSTAT (R233). -/
def execWstat (g : Guard) (d : SReg) (b : BitVec 2) (s : State) : Out :=
  performPure g 8 (fun s => s.writeS d (s.wstatWord b)) s

/-- MSTAT (R233). -/
def execMstat (g : Guard) (d : SReg) (b : Fin 5) (s : State) : Out :=
  performPure g 8 (fun s => s.writeS d (s.mstatWord b)) s

end Sys2Proof.Machine
end

