-- ==== Sys2Proof/Machine/Copy.lean ====
section
/-!
DEFINITION. The copy and transform instructions (chapter 10): the checks of R240, the shared bodies, then one meaning per
row. A command is checked and performed whole at its place in program order (DESIGN CHOICE, log 36).
-/

namespace Sys2Proof.Machine

open Sys2Proof

/-! Checks (R240). -/

/-- The range fault of a command's size or value. -/
def sizeFault (v : Nat) : Stop := trapAt 6 (BitVec.ofNat 64 v) 0

/-- Step 3 for a run: every byte is located in its space. -/
def State.placeRun (s : State) (sp : Space) (a n : Nat) : Except Stop Unit :=
  if n = 0 then .ok ()
  else
    let top := match sp with | .virt => 2 ^ 57 | .vault => vaultBytes | .ns => s.core.nsSize | .reg => regBytes
    if a + n ≤ top then .ok () else .error (trapAt (match sp with | .virt => 5 | _ => 6) (BitVec.ofNat 64 (max a top)) 0)

/-- Step 4 for a run: its vault or NS tiles hold the engine's code. -/
def State.ownRun (s : State) (owner : Owner) (sp : Space) (a n : Nat) : Except Stop Unit :=
  match sp with
  | .vault | .ns => s.requireOwner sp a n owner
  | _ => .ok ()

/-- Step 5 for a run: its virtual pages are translated; the parts of the run. -/
def State.locateRun (s : State) (acc : Acc) (sp : Space) (a n : Nat) : Except Stop (List (Loc × Nat)) :=
  match sp with
  | .virt => s.place acc a n
  | .reg => .ok [(.reg a, n)]
  | sp => .ok [(.mem (s.padBase sp + a), n)]

/-- One side of a command: a space, how it is accessed, and its runs in order. -/
structure Side where
  sp : Space
  acc : Acc
  runs : List (Nat × Nat)

/-- Steps 3 to 5 of R240 over the sides of a command, the source first: the parts of each run. Then the data that the command consumes
holds no error (R354). -/
def State.checkSides (s : State) (owner : Owner) (sides : List Side) : Except Stop (List (List (List (Loc × Nat)))) := do
  let _ ← sides.mapM (fun x => x.runs.mapM (fun r => s.placeRun x.sp r.1 r.2))
  let _ ← sides.mapM (fun x => x.runs.mapM (fun r => s.ownRun owner x.sp r.1 r.2))
  let parts ← sides.mapM (fun x => x.runs.mapM (fun r => s.locateRun x.acc x.sp r.1 r.2))
  let _ ← (sides.zip parts).mapM (fun x => (x.1.runs.zip x.2).mapM (fun y => s.soundParts x.1.acc y.1.1 y.2))
  pure parts

/-- The bytes an engine reads over parts. -/
def State.engineOver (s : State) (parts : List (Loc × Nat)) : List Byte := parts.flatMap (fun (l, k) => s.engineBytes l k)

/-- Capture for the journal the lines that a side's runs write (R335). -/
def State.journalRuns (s : State) (sp : Space) (runs : List (Nat × Nat)) : Except Stop State :=
  match sp with
  | .virt => runs.foldlM (fun t r => if r.2 = 0 then .ok t else t.journalRun r.1 r.2) s
  | .reg => .ok s
  | sp => runs.foldlM (fun t r => t.journalPa (t.padBase sp + r.1) r.2) s

/-- The largest command (R240 step 2). -/
def maxCommand : Nat := 1048576

/-! Copies and fills. -/

/-- COPY (R242): every source byte is read before any is written. -/
def copyBody (dsp ssp : Space) (dst src n : Nat) (s : State) : Except Stop State := do
  if maxCommand < n then .error (sizeFault n)
  let sides ← s.checkSides .ce [{ sp := ssp, acc := .read, runs := [(src, n)] }, { sp := dsp, acc := .write, runs := [(dst, n)] }]
  let s' ← s.journalRuns dsp [(dst, n)]
  let data := s.engineOver (sides.headD []).flatten
  pure ((s'.engineRead (sides.headD []).flatten).engineStoreParts (sides.getD 1 []).flatten data)

/-- The nibble address of the element at an index, no dimension being indirect (R143). -/
def plainNibble (sh : BitVec 512) : Nat → List Nat → Int → Nat
  | _, [], a => lowBits 65 a
  | k, x :: rest, a => plainNibble sh (k + 1) rest (a + x * shStride sh k)

/-- An element of a walk for an engine: the byte it begins in and whether it is the high nibble (R143). -/
def engineElem (sh : BitVec 512) (idx : List Nat) : Nat × Bool :=
  let a := plainNibble sh 0 idx (2 * shBase sh : Nat)
  (a / 2, a % 2 == 1)

/-- The elements of a shape's whole walk, in order. -/
def walkElems (sh : BitVec 512) : List (Nat × Bool) := (List.range (shLength sh)).map (fun p => engineElem sh (shIndex sh p))

/-- The runs of a list of elements. -/
def elemRuns (sh : BitVec 512) (es : List (Nat × Bool)) : List (Nat × Nat) := es.map (fun e => (e.1, shBytes sh))

/-- The pattern of an element that an engine reads. -/
def State.engineGet (s : State) (w : Nat) (high : Bool) (parts : List (Loc × Nat)) : Nat :=
  let n := natOfBytes (s.engineOver parts)
  if w = 4 then (if high then n / 16 else n % 16) else n

/-- An engine writes an element: a nibble keeps its neighbour. -/
def State.enginePut (s : State) (w : Nat) (high : Bool) (parts : List (Loc × Nat)) (v : Nat) : State :=
  if w = 4 then
    let old := natOfBytes (s.engineOver parts)
    s.engineStoreParts parts (bytesOfNat 1 (if high then old % 16 + 16 * (v % 16) else old / 16 * 16 + v % 16))
  else s.engineStoreParts parts (bytesOfNat (w / 8) v)

/-- Write elements in order, the later position's value remaining (R144). -/
def State.enginePutAll (s : State) (w : Nat) : List (Nat × Bool) → List (List (Loc × Nat)) → List Nat → State
  | e :: es, p :: ps, v :: vs => (s.enginePut w e.2 p v).enginePutAll w es ps vs
  | _, _, _ => s

/-- A shape of a copy or transform command (R240 step 1): checked, and not indirect. -/
def State.plainShape (s : State) (n : ShReg) : Except Stop (BitVec 512) := do
  let sh ← s.shape n
  if shInd sh != 0 then .error (shapeFault n) else pure sh

/-- The bytes that `n` elements of width `w` fill, as the limit of R240 counts them: those of the elements side by side, also where 4-bit ones
lie apart (DESIGN CHOICE, log 104). -/
def elemBytes (w n : Nat) : Nat := (n * w + 7) / 8

/-- COPYN (R243). -/
def copynBody (d a : ShReg) (s : State) : Except Stop State := do
  let sa ← s.plainShape a
  let sd ← s.plainShape d
  let w := (shFmtD sa).width
  if w != (shFmtD sd).width || shLength sa != shLength sd then .error (shapeFault d)
  if maxCommand < elemBytes w (shLength sa) then .error (sizeFault (elemBytes w (shLength sa)))
  let ea := walkElems sa
  let ed := walkElems sd
  let sides ← s.checkSides .ce [{ sp := shSpace sa, acc := .read, runs := elemRuns sa ea }, { sp := shSpace sd, acc := .write, runs := elemRuns sd ed }]
  let s' ← s.journalRuns (shSpace sd) (elemRuns sd ed)
  let vs := List.zipWith (fun (e : Nat × Bool) p => s.engineGet w e.2 p) ea (sides.headD [])
  pure ((s'.engineRead (sides.headD []).flatten).enginePutAll w ed (sides.getD 1 []) vs)

/-- The bytes of a fill (R244). -/
def fillBytes (w pat n : Nat) : List Byte :=
  let one := if w = 4 then [BitVec.ofNat 8 (pat % 16 * 17)] else bytesOfNat (w / 8) pat
  (List.replicate (n / one.length) one).flatten

/-- CFILL (R244). -/
def cfillBody (f : Fmt) (sp : Space) (dst : Nat) (pat : Word) (n : Nat) (s : State) : Except Stop State := do
  if n % max 1 (f.width / 8) != 0 || decide (maxCommand < n) then .error (sizeFault n)
  let sides ← s.checkSides .ce [{ sp := sp, acc := .write, runs := [(dst, n)] }]
  let s ← s.journalRuns sp [(dst, n)]
  pure (s.engineStoreParts (sides.headD []).flatten (fillBytes f.width pat.toNat n))

/-! Gather, scatter and transpose. -/

/-- The data shape of GATHER or SCATTER: not in the register space (R240 step 1). -/
def State.dataShape (s : State) (n : ShReg) : Except Stop (BitVec 512) := do
  let sh ← s.plainShape n
  if shSpace sh == .reg then .error (shapeFault n) else pure sh

/-- The index shape of GATHER or SCATTER: rank 1, 32-bit integers, not in the register space (R150, R240 step 1). -/
def State.indexShape (s : State) (n : ShReg) : Except Stop (BitVec 512) := do
  let sh ← s.dataShape n
  if shRank sh != 1 || !(shFmt sh == some .int32 || shFmt sh == some .uint32) then .error (shapeFault n) else pure sh

/-- The index list, read whole before any data element (R246); an index outside the dimension is the range fault (R150). -/
def State.indexList (s : State) (ish : BitVec 512) (limit : Nat) : Except Stop (List Nat × State) := do
  let es := walkElems ish
  let sides ← s.checkSides .xe [{ sp := shSpace ish, acc := .read, runs := elemRuns ish es }]
  let is := (sides.headD []).map (fun p => intOf (shFmtD ish) (natOfBytes (s.engineOver p)))
  match is.find? (fun i => decide (i < 0) || decide ((limit : Int) ≤ i)) with
  | some i => .error (trapAt 6 (BitVec.ofInt 64 i) 0)
  | none => pure (is.map Int.toNat, s.engineRead (sides.headD []).flatten)

/-- The elements of the R150 walk of a data shape through an index list. -/
def gatherElems (sh : BitVec 512) (is : List Nat) : List (Nat × Bool) :=
  let r := shRank sh
  let m := shProduct sh (r - 1)
  is.flatMap (fun i => (List.range m).map (fun k => engineElem sh (shIndices sh (r - 1) 0 k ++ [i])))

/-- Elements packed from byte `a` on, the unused nibble of a final odd byte keeping the old value (R247). -/
def packedBytes (w : Nat) (vs : List Nat) (oldLast : Byte) : List Byte :=
  let n := elemBytes w vs.length
  let v := packElems w vs
  if w * vs.length % 8 = 0 then bytesOfNat n v else bytesOfNat n (v + oldLast.toNat / 16 * 16 * 256 ^ (n - 1))

/-- The shapes and size checks shared by GATHER and SCATTER (R240 steps 1 and 2), and the elements that the index list names, once it
has been read. A fault of the data shape comes before one of the index shape, and the bytes before the indices (DESIGN CHOICE, log 104). -/
def State.gatherSetup (s : State) (a b : ShReg) : Except Stop (BitVec 512 × List (Nat × Bool) × State) := do
  let sh ← s.dataShape a
  let ish ← s.indexShape b
  let n := shExt ish 0 * shProduct sh (shRank sh - 1)
  let w := (shFmtD sh).width
  if maxCommand < elemBytes w n then .error (sizeFault (elemBytes w n))
  if 262144 < shExt ish 0 then .error (sizeFault (shExt ish 0))
  let (is, s) ← s.indexList ish (shExt sh (shRank sh - 1))
  pure (sh, gatherElems sh is, s)

/-- `n` bytes of parts, from byte `off` on. -/
def subParts : List (Loc × Nat) → Nat → Nat → List (Loc × Nat)
  | [], _, _ => []
  | (l, k) :: rest, off, n =>
    if n = 0 then []
    else if k ≤ off then subParts rest (off - k) n
    else
      let m := min n (k - off)
      (match l with | .mem pa => .mem (pa + off) | .reg o => .reg (o + off) | .pod g a => .pod g (a + off) | l => l, m) :: subParts rest 0 (n - m)

/-- The loop of R245: each element is read, then put at nibble `q` of the destination, before the next one is read. -/
def State.gatherLoop (s : State) (w : Nat) (out : List (Loc × Nat)) : Nat → List (Nat × Bool) → List (List (Loc × Nat)) → State
  | q, e :: es, p :: ps =>
    (s.enginePut w (q % 2 == 1) (subParts out (q / 2) (max 1 (w / 8))) (s.engineGet w e.2 p)).gatherLoop w out (q + w / 4) es ps
  | _, _, _ => s

/-- GATHER (R245). -/
def gatherBody (sp : Space) (dst : Nat) (a b : ShReg) (s : State) : Except Stop State := do
  let (sh, es, s) ← s.gatherSetup a b
  let w := (shFmtD sh).width
  let n := elemBytes w es.length
  let sides ← s.checkSides .xe [{ sp := shSpace sh, acc := .read, runs := elemRuns sh es }, { sp := sp, acc := .write, runs := [(dst, n)] }]
  let s' ← s.journalRuns sp [(dst, n)]
  pure ((s'.engineRead (sides.headD []).flatten).gatherLoop w (sides.getD 1 []).flatten 0 es (sides.headD []))

/-- SCATTER (R246). Every source element is read before any is written, where the two overlap (DESIGN CHOICE, log 96). -/
def scatterBody (sp : Space) (src : Nat) (d b : ShReg) (s : State) : Except Stop State := do
  let (sh, es, s) ← s.gatherSetup d b
  let w := (shFmtD sh).width
  let sides ← s.checkSides .xe [{ sp := sp, acc := .read, runs := [(src, elemBytes w es.length)] }, { sp := shSpace sh, acc := .write, runs := elemRuns sh es }]
  let s' ← s.journalRuns (shSpace sh) (elemRuns sh es)
  let vs := unpackElems w es.length (natOfBytes (s.engineOver (sides.headD []).flatten))
  pure ((s'.engineRead (sides.headD []).flatten).enginePutAll w es (sides.getD 1 []) vs)

/-- XPOSE (R247). Bits above the 16 of the geometry are ignored in the literal form too (DESIGN CHOICE, log 96). -/
def xposeBody (f : Fmt) (dsp ssp : Space) (dst src : Nat) (geom : Word) (s : State) : Except Stop State := do
  let rows := (geom.extractLsb' 0 8).toNat + 1
  let cols := (geom.extractLsb' 8 8).toNat + 1
  let w := f.width
  let n := elemBytes w (rows * cols)
  let sides ← s.checkSides .xe [{ sp := ssp, acc := .read, runs := [(src, n)] }, { sp := dsp, acc := .write, runs := [(dst, n)] }]
  let s' ← s.journalRuns dsp [(dst, n)]
  let xs := (unpackElems w (rows * cols) (natOfBytes (s.engineOver (sides.headD []).flatten))).toArray
  let vs := (List.range (rows * cols)).map (fun k => xs.getD (k % rows * cols + k / rows) 0)
  let out := (sides.getD 1 []).flatten
  pure ((s'.engineRead (sides.headD []).flatten).engineStoreParts out (packedBytes w vs ((s.engineOver out).getLastD 0)))

/-! Pushes, lines and the carve-out. -/

/-- VPUSH (R250): an absent die is the endpoint-absent fault (R390). Of a fault of alignment and one of range the first is raised (DESIGN
CHOICE, log 104). -/
def vpushBody (d : VReg) (ea : Word) (s : State) : Except Stop State := do
  if ea.extractLsb' 0 9 != 0 then .error (trapAt 4 ea 0)
  if ea.extractLsb' 30 34 != 0 then .error (trapAt 6 ea 0)
  let die := (ea.extractLsb' 28 2).toNat
  let pa := vaultBase die + (ea.extractLsb' 0 28).toNat
  if !(s.dieUp die && s.pathUp s.core.die die) then .error (trapAt 25 ea (BitVec.ofNat 64 die))
  let s' ← s.journalPa pa 512
  pure (s'.engineStore (.mem pa) (bytesOfVec (s.readV d)))

/-- Is a line of L1 covered by CWB or CINV (R251): by any address of the partition that maps it (R339)? -/
def State.lineCovered (s : State) (a n : Nat) (x : L1Line) : Bool :=
  n == 0 || s.pages.any (fun p => p.part == s.core.part && p.st == .resident && decide (p.frame ≤ 128 * x.line)
    && decide (128 * x.line < p.frame + p.bytes)
    && decide (a < p.va + (128 * x.line - p.frame) + 128) && decide (p.va + (128 * x.line - p.frame) < a + n))

/-- CWB and CINV (R251): each covered line that is dirty is written to L2, and with CINV the covered lines leave the cache. -/
def cleanBody (drop : Bool) (a n : Word) (s : State) : Except Stop State :=
  if a.extractLsb' 57 7 != 0 then .error (trapAt 5 a 0)
  else
    let hit (x : L1Line) : Bool := s.lineCovered a.toNat n.toNat x
    let dirty := s.core.l1.filter (fun x => hit x && x.below.isSome)
    let l1 := if drop then s.core.l1.filter (fun x => !hit x)
              else s.core.l1.map (fun x => if hit x then { x with below := none } else x)
    .ok (({ s with core := { s.core with l1 := l1 } } : State).writeBack dirty)

/-- Does an open stream walk NS (R254)? A gather stream whose index shape alone lies there counts as one (DESIGN CHOICE, log 95). -/
def State.nsStream (s : State) : Option (Fin 8) :=
  (List.finRange 8).find? (fun q =>
    let st := s.img.q[q]
    st.dir != .closed && (shSpace (s.readSh st.sh) == .ns || (st.dir == .gather && shSpace (s.readSh st.ish) == .ns)))

/-- PHASE (R254): it waits for outstanding SCLDs, as for every earlier access. -/
def phaseBody (d : SReg) (b : Word) (s : State) : Except Stop Fate := do
  if !s.img.late.isEmpty then pure (.stay s)
  else if 311296 < b.toNat then pure (.done (s.writeS d 2))
  else if b.toNat % 8192 != 0 then pure (.done (s.writeS d 1))
  else match s.nsStream with
    | some q => .error (.trap { code := 11, info := BitVec.ofNat 64 q.val })
    | none => do
      s.requireOwner .ns b.toNat (s.core.nsSize - b.toNat) .thread
      pure (.done ((s.moveNs b.toNat).writeS d 0))

/-! Meanings. -/

/-- COPY (R242). -/
def execCopy (g : Guard) (_sc : Scope) (_cl : BitVec 4) (dsp ssp : Space) (d a b : SReg) (s : State) : Out :=
  perform unitCE g 8 (copyBody dsp ssp (s.readS d).toNat (s.readS a).toNat (s.readS b).toNat) s

/-- COPY, literal form (R242). -/
def execCopyLit (g : Guard) (_sc : Scope) (_cl : BitVec 4) (dsp ssp : Space) (d a : SReg) (lit : BitVec 32) (s : State) : Out :=
  perform unitCE g 12 (copyBody dsp ssp (s.readS d).toNat (s.readS a).toNat lit.toNat) s

/-- COPYN (R243). -/
def execCopyn (g : Guard) (_sc : Scope) (_cl : BitVec 4) (d a : ShReg) (s : State) : Out :=
  perform unitCE g 8 (copynBody d a) s

/-- GATHER (R245). -/
def execGather (g : Guard) (_sc : Scope) (_cl : BitVec 4) (sp : Space) (d : SReg) (a b : ShReg) (s : State) : Out :=
  perform unitXE g 8 (gatherBody sp (s.readS d).toNat a b) s

/-- SCATTER (R246). -/
def execScatter (g : Guard) (_sc : Scope) (_cl : BitVec 4) (sp : Space) (d : ShReg) (a : SReg) (b : ShReg) (s : State) : Out :=
  perform unitXE g 8 (scatterBody sp (s.readS a).toNat d b) s

/-- XPOSE (R247). -/
def execXpose (g : Guard) (f : Fmt) (_sc : Scope) (_cl : BitVec 4) (dsp ssp : Space) (d a b : SReg) (s : State) : Out :=
  perform unitXE g 8 (xposeBody f dsp ssp (s.readS d).toNat (s.readS a).toNat (s.readS b)) s

/-- XPOSE, literal form (R247). -/
def execXposeLit (g : Guard) (f : Fmt) (_sc : Scope) (_cl : BitVec 4) (dsp ssp : Space) (d a : SReg) (lit : BitVec 32) (s : State) : Out :=
  perform unitXE g 12 (xposeBody f dsp ssp (s.readS d).toNat (s.readS a).toNat (zextLit lit)) s

/-- CFILL (R244). -/
def execCfill (g : Guard) (f : Fmt) (_sc : Scope) (_cl : BitVec 4) (sp : Space) (d a b : SReg) (s : State) : Out :=
  perform unitCE g 8 (cfillBody f sp (s.readS d).toNat (s.readS a) (s.readS b).toNat) s

/-- CFILL, literal form (R244). -/
def execCfillLit (g : Guard) (f : Fmt) (_sc : Scope) (_cl : BitVec 4) (sp : Space) (d a : SReg) (lit : BitVec 32) (s : State) : Out :=
  perform unitCE g 12 (cfillBody f sp (s.readS d).toNat (s.readS a) lit.toNat) s

/-- PHASE (R254). -/
def execPhase (g : Guard) (d b : SReg) (s : State) : Out :=
  runFate unitSQ g 8 (phaseBody d (s.readS b)) s

/-- PHASE, literal form (R254). -/
def execPhaseLit (g : Guard) (d : SReg) (lit : BitVec 32) (s : State) : Out :=
  runFate unitSQ g 12 (phaseBody d (zextLit lit)) s

/-- VPUSH (R250). -/
def execVpush (g : Guard) (_cl : BitVec 4) (d : VReg) (a b : SReg) (s : State) : Out :=
  perform unitCE g 8 (vpushBody d (s.addrOf a (s.readS b))) s

/-- VPUSH, literal form (R250). -/
def execVpushLit (g : Guard) (_cl : BitVec 4) (d : VReg) (a : SReg) (lit : BitVec 32) (s : State) : Out :=
  perform unitCE g 12 (vpushBody d (s.addrOf a (sextLit lit))) s

/-- CWB (R251). -/
def execCwb (g : Guard) (a b : SReg) (s : State) : Out :=
  perform unitCE g 8 (cleanBody false (s.readS a) (s.readS b)) s

/-- CWB, literal form (R251). -/
def execCwbLit (g : Guard) (a : SReg) (lit : BitVec 32) (s : State) : Out :=
  perform unitCE g 12 (cleanBody false (s.readS a) (zextLit lit)) s

/-- CINV (R251). -/
def execCinv (g : Guard) (a b : SReg) (s : State) : Out :=
  perform unitCE g 8 (cleanBody true (s.readS a) (s.readS b)) s

/-- CINV, literal form (R251). -/
def execCinvLit (g : Guard) (a : SReg) (lit : BitVec 32) (s : State) : Out :=
  perform unitCE g 12 (cleanBody true (s.readS a) (zextLit lit)) s

end Sys2Proof.Machine
end

