-- ==== Sys2Proof/Machine/Sync.lean ====
section
/-!
DEFINITION. The ordering and synchronisation instructions (chapter 11): atomics, tile hand-offs, the barrier networks, WAITM
and SIGNAL. The accesses of every core perform at one moment, in the order of the steps: one of the outcomes of R261 and
R262 (DESIGN CHOICE, logs 37 and 38).
-/

namespace Sys2Proof.Machine

open Sys2Proof

/-! Fences and atomics. -/

/-- FENCE (R263): the accepted entries of write streams whose class lies in the mask are written; it waits for those that a stack holds. -/
def fenceBody (b : Word) (s : State) : Except Stop State := s.settled (b.setWidth 16)

/-- The scalar atomics (R273) and the vector atomics (R274). -/
inductive AtomicOp where
  | add | and | or | xor | min | max | xchg | cas
deriving DecidableEq, Repr

/-- The new value of an atomic and its flags (R273, R274): `cmp` is what ACAS compares. -/
def atomicNew (op : AtomicOp) (f : Fmt) (rm : Rm) (old v cmp : Nat) : Nat × Flags :=
  let w := f.width
  match op with
  | .and => (old &&& v, 0)
  | .or => (old ||| v, 0)
  | .xor => (old ^^^ v, 0)
  | .xchg => (v, 0)
  | .cas => (if old = cmp then v else old, 0)
  | .add =>
    if f == .fp32 then
      let (x, fl) := FVal.add rm (fpDecode .fp32 old) (fpDecode .fp32 v)
      let (r, fl') := roundTo .fp32 { Rounding.rne false with rm := rm } 0 x
      (r, fl ||| fl')
    else ((old + v) % 2 ^ w, 0)
  | .min =>
    if f == .fp32 then (encodeExact .fp32 (fpMin (fpDecode .fp32 old) (fpDecode .fp32 v)), 0)
    else (if intOf f v < intOf f old then v else old, 0)
  | .max =>
    if f == .fp32 then (encodeExact .fp32 (fpMax (fpDecode .fp32 old) (fpDecode .fp32 v)), 0)
    else (if intOf f old < intOf f v then v else old, 0)

/-- The bytes at a word that an atomic, WAITM or SIGNAL reaches, when its checks pass (R272): no ownership, natural alignment,
the faults of R133. What is read is what memory holds, not a copy in L1. -/
def State.readWord (s : State) (sp : Space) (acc : Acc) (ea : Word) (n : Nat) : Except Stop Nat := do
  if ea.toNat % n != 0 then .error (trapAt 4 ea 0)
  s.checkRun sp none ea.toNat n
  match sp with
  | .virt => do
    let l ← s.translate acc ea.toNat
    s.soundAt acc ea.toNat l n
    pure (natOfBytes (s.bytesAt l n))
  | sp => do
    s.soundAt acc ea.toNat (.mem (s.padBase sp + ea.toNat)) n
    pure (natOfBytes (s.mem.bytes (s.padBase sp + ea.toNat) n))

/-- The class of the old value that sD takes (R273). -/
def oldWord (f : Fmt) (old : Nat) : Word := extendTo (f == .int32) f.width (intOf f old)

/-- A scalar atomic (R273). Every earlier write of the thread performs before it and no later access before it ends, so that
each order of R264 holds. -/
def atomicBody (op : AtomicOp) (f : Fmt) (rm : Rm) (sp : Space) (d : SReg) (ea v : Word) (s : State) : Except Stop State := do
  let n := f.width / 8
  let s ← s.settled
  let old ← s.readWord sp .atomic ea n
  let (new, fl) := atomicNew op f rm old (v.toNat % 2 ^ f.width) ((s.readS d).toNat % 2 ^ f.width)
  let s ← s.storeRun sp .atomic ea.toNat (bytesOfNat n new)
  pure ((s.orFlags fl).writeS d (oldWord f old))

/-- The active elements of a vector atomic: address and operand (R274). -/
def vatomicElems (m : BitVec 1024) (base : Word) (idx xs : List Nat) : List (Word × Nat) :=
  (((idx.zip xs).zipIdx).filter (fun e => maskBit m e.2)).map (fun e => (base + BitVec.ofNat 64 (4 * e.1.1), e.1.2))

/-- The element atomics of R274, in order. -/
def State.vatomicRun (op : AtomicOp) (f : Fmt) (sp : Space) : State → List (Word × Nat) → Except Stop (State × Flags)
  | s, [] => .ok (s, 0)
  | s, (ea, x) :: rest => do
    let old ← s.readWord sp .atomic ea 4
    let (new, fl) := atomicNew op f .rne old x 0
    let s ← s.storeRun sp .atomic ea.toNat (bytesOfNat 4 new)
    let (s, fl') ← s.vatomicRun op f sp rest
    pure (s, fl ||| fl')

/-- VAOR, VAADD and VAMAX (R274): every active element is checked before any is performed. -/
def vatomicBody (op : AtomicOp) (f : Fmt) (sp : Space) (m : MReg) (d : VReg) (base : Word) (b : VOp) (s : State) : Except Stop State := do
  let (iv, s) ← s.readVOp b
  let s ← s.settled
  let es := vatomicElems (s.readM m) base (vecElems 32 iv) (vecElems 32 (s.readV d))
  let _ ← es.mapM (fun e => s.readWord sp .atomic e.1 4)
  let (s, fl) ← s.vatomicRun op f sp es
  pure (s.orFlags fl)

/-! Tile ownership (R269 to R271). -/

/-- Where a core's own vault begins in its die's vault space (R13). -/
def State.ownVault (s : State) : Nat := (s.core.id.setWidth 8).toNat * 0x100000

/-- The offsets of `n` tiles from the byte offset `a`, after the checks of R269: an own-vault offset counts from the start of
the core's vault. -/
def State.tileRange (s : State) (sp : Space) (a : Word) (n : Nat) : Except Stop (List Nat) := do
  if a.toNat % 4096 != 0 then .error (trapAt 4 a 0)
  let top := match sp with | .ns => s.core.nsSize | _ => 0x100000
  if top < a.toNat + 4096 * n then .error (trapAt 6 a 0)
  let base := match sp with | .ns => 0 | _ => s.ownVault
  pure ((List.range n).map (fun k => base + a.toNat + 4096 * k))

/-- Every tile of a list holds an owner, otherwise the ownership fault names the first that does not (R268 to R270). -/
def State.requireTiles (s : State) (sp : Space) (o : Owner) (ts : List Nat) : Except Stop Unit :=
  match ts.find? (fun t => s.ownerOf sp t != o) with
  | none => .ok ()
  | some t => .error (trapAt 7 (BitVec.ofNat 64 t) (BitVec.ofNat 64 ((s.ownerOf sp t).code.toNat + 8 * o.code.toNat)))

/-- OWN.GIVE (R269). From SYS, for which the rule gives no place, it takes effect at the SQ and waits for no write (DESIGN CHOICE, log 97). -/
def ownGiveBody (sp : Space) (frm dst : Owner) (a : Word) (n : Nat) (s : State) : Except Stop State := do
  if frm == .sys || dst == .sys then s.requireS
  let ts ← s.tileRange sp a n
  let s ← if frm == .thread then s.settled else pure s
  s.requireTiles sp frm ts
  pure (ts.foldl (fun t x => t.setOwner sp x dst) s)

/-- The unit that delivers a fault of OWN.GIVE: the SQ for the privilege check, otherwise where it takes effect (R269, R351); from SYS the
SQ (DESIGN CHOICE, log 97). -/
def State.giveUnit (s : State) (frm dst : Owner) : Nat :=
  if (frm == .sys || dst == .sys) && !s.levelS then unitSQ
  else match frm with
    | .ce | .xe => unitCE
    | .wsu => unitWSU
    | _ => unitSQ

/-- OWN.TAKE (R270): every give before it has taken effect, so an owner that differs is the fault. -/
def ownTakeBody (sp : Space) (o : Owner) (a : Word) (n : Nat) (s : State) : Except Stop State := do
  let ts ← s.tileRange sp a n
  s.requireTiles sp o ts
  pure s

/-- OWN.TEST (R271). -/
def ownTestBody (sp : Space) (d : SReg) (a : Word) (n : Nat) (s : State) : Except Stop State := do
  let ts ← s.tileRange sp a n
  pure (s.writeS d (BitVec.ofNat 64 (packElems 3 (ts.map (fun t => (s.ownerOf sp t).code.toNat)))))

/-! Barriers (R275 to R278). -/

/-- The domain of a core at a scope (R18, R259). -/
def domainOf (sc : Scope) (id : BitVec 10) : Nat :=
  match sc with
  | .co => id.toNat
  | .qd => id.toNat / 4
  | .di => id.toNat / 256
  | _ => 0

/-- The cores of a domain (R18): a pod has at most 1,024 packages. -/
def domainCores (s : State) (sc : Scope) : Nat :=
  match sc with
  | .co => 1
  | .qd => 4
  | .di => 256
  | .pk => 1024
  | .pd => if s.podv then 1048576 else 1024

/-- Is a channel assigned to a partition (R275)? A quad's channels are its owner's. -/
def State.channelGranted (s : State) (part : BitVec 6) (sc : Scope) (k : Nat) : Bool :=
  match sc with
  | .co | .qd => true
  | .di => (s.partField part 14).getLsbD k
  | .pk => (s.partField part 14).getLsbD (16 + k)
  | .pd => (s.partField part 14).getLsbD (32 + k)

/-- Is it the channel of a domain and number? -/
def Channel.at_ (c : Channel) (sc : Scope) (dom k : Nat) : Bool := c.sc == sc && c.domain == dom && c.k == k

/-- The channel of a domain (R275). -/
def State.channelAt (s : State) (sc : Scope) (dom k : Nat) : Channel :=
  (s.channels.find? (·.at_ sc dom k)).getD { sc := sc, domain := dom, k := k, count := 0, arrived := 0, phase := false }

/-- Replace a channel. -/
def State.putChannel (s : State) (c : Channel) : State :=
  { s with channels := c :: s.channels.filter (fun x => !x.at_ c.sc c.domain c.k) }

/-- Does an open arrival stand at a channel in its phase? -/
def BarRec.waitsAt (r : BarRec) (c : Channel) : Bool := c.at_ r.sc r.domain r.k && r.phase == c.phase && r.out.isNone

/-- A member sees the end of the round it waits in. -/
def Member.seeEnd (m : Member) (c : Channel) (status : Nat) : Member :=
  { m with bar := m.bar.map (fun r => if r.waitsAt c then { r with out := some status } else r) }

/-- End the round of a channel with a status: PHASE flips and the members that wait on cores see it (R276, R277). A context
that is switched out looks at PHASE when it runs again, but an aborted round ends for it too. -/
def State.endRound (s : State) (c : Channel) (status : Nat) : State :=
  let onCore (k : Core) : Core := { k with m := k.m.seeEnd c status }
  let away (x : Ctx) : Ctx := if status = 0 then x else { x with members := x.members.map (·.seeEnd c status) }
  { s.putChannel { c with arrived := 0, phase := !c.phase } with
      core := onCore s.core, others := s.others.map onCore, ctxs := s.ctxs.map away }

/-- Record an arrival with a count at a channel (R276): `none` is the barrier fault, with no arrival recorded. -/
def State.arrive (s : State) (sc : Scope) (dom k n : Nat) : Option State :=
  let c := s.channelAt sc dom k
  if c.arrived != 0 && n != c.count then none
  else
    let c := { c with count := n, arrived := c.arrived + 1 }
    let s := s.putChannel c
    some (if c.arrived = c.count then s.endRound c 0 else s)

/-- The members of the issuer's gang within its domain (R276). -/
def State.gangInDomain (s : State) (sc : Scope) : Nat :=
  match s.self with
  | none => 1
  | some c => ((gangCores c.base c.gang).filter (fun id => domainOf sc id == domainOf sc s.core.id)).length

/-- The arrival of the member on the core. -/
def State.setBar (s : State) (r : Option BarRec) : State := { s with core := { s.core with m := { s.core.m with bar := r } } }

/-- The barrier fault (R354): code 21. -/
def barrierFault (k : BitVec 4) : Stop := .trap { code := 21, info := k.setWidth 64 }

/-- How a member that has arrived goes on (R276, R277): its round has ended with a status, or it waits. -/
def State.barGoOn (s : State) (d : SReg) (r : BarRec) : Fate :=
  match r.out with
  | some st => .done ((s.setBar none).writeS d (BitVec.ofNat 64 st))
  | none =>
    if (s.channelAt r.sc r.domain r.k).phase != r.phase then .done ((s.setBar none).writeS d 0)
    else .stay s

/-- BAR and SSTEP (R276, R278): a member that has not arrived arrives; then it goes on if the round has ended. Every VPUSH
before SSTEP has completed at its place in program order (DESIGN CHOICE, log 36). -/
def barBody (sc : Scope) (d : SReg) (k : BitVec 4) (b : Word) (s : State) : Except Stop Fate :=
  match s.core.m.bar with
  | some r => .ok (s.barGoOn d r)
  | none =>
    let n := if b = 0 then s.gangInDomain sc else b.toNat % 2 ^ 32
    if !s.channelGranted s.core.part sc k.toNat || decide (domainCores s sc < n) then .error (barrierFault k)
    else do
      let s ← s.settled
      let dom := domainOf sc s.core.id
      let r : BarRec := { sc := sc, domain := dom, k := k.toNat, phase := (s.channelAt sc dom k.toNat).phase, out := none }
      match (s.setBar (some r)).arrive sc dom k.toNat n with
      | none => .error (barrierFault k)
      | some t => match t.core.m.bar with
        | some r => .ok (t.barGoOn d r)
        | none => .ok (.stay t)

/-- SSTEP, whose completion is a boundary at which a Slate cut stops the context (R278, R408). -/
def sstepBody (len : Nat) (sc : Scope) (d : SReg) (k : BitVec 4) (b : Word) (s : State) : Except Stop Fate := do
  match ← barBody sc d k b s with
  | .done t =>
    match t.core.handle with
    | some h => if t.slateStops t.core.part then pure (.left (((Fate.done t).close len).leave h)) else pure (.done t)
    | none => pure (.done t)
  | f => pure f

/-! Waiting and signalling (R279, R280). -/

/-- The conditions of R279. -/
def waitmHolds (c : WCond) (v b : Nat) : Bool :=
  match c with
  | .eq => v == b
  | .ne => v != b
  | .geu => decide (b ≤ v)
  | .ltu => decide (v < b)
  | .any => v &&& b != 0
  | .none => v &&& b == 0

/-- The watches that a gang leaves when it parks by WAITM: of each member whose wait has reached its time (R279). -/
def State.gangWatches (s : State) (c : Ctx) : List Watch :=
  (gangCores c.base c.gang).filterMap (fun id =>
    let k := s.coreAt id
    match k.m.wait with
    | some (.waitm _ true q) =>
      if q.park then
        some { sp := q.sp, core := id,
               addr := match q.sp with | .virt => q.ea.toNat | .ns => nsBase id.toNat + q.ea.toNat | _ => vaultBase k.die + q.ea.toNat }
      else none
    | _ => none)

/-- WAITM parks the context with cause WAITM, to run again from its first read (R279, R293). -/
def State.parkWaitm (s : State) : State :=
  match s.core.handle, s.self with
  | some h, some c =>
    let ws := s.gangWatches c
    let s := (s.park h .waitm 0).updCtx h (fun c => { c with watch := ws })
    if s.wakeReached c then s.readyEvent h else s
  | _, _ => s

/-- One read of WAITM, and what follows from it (R279). -/
def waitmBody (q : WaitmReq) (s : State) : Except Stop Fate := do
  let v ← s.readWord q.sp .read q.ea (q.f.width / 8)
  let s := s.touchNewest q.sp q.ea.toNat (q.f.width / 8)
  if waitmHolds q.cond v (q.b.toNat % 2 ^ q.f.width) then pure (.done (s.writeS q.d (BitVec.ofNat 64 v)))
  else
    let wait (since : Word) (due : Bool) : State := { s with core := { s.core with m := { s.core.m with wait := some (.waitm since due q) } } }
    match s.core.m.wait with
    | some (.waitm since due _) => pure (if due && q.park then .left s.parkWaitm else .stay (wait since due))
    | _ => pure (.stay (wait s.ptc false))

/-- The physical place of a watched word now, if it has one (R279). -/
def State.watchPlace (s : State) (part : BitVec 6) (x : Watch) : Option Loc :=
  match x.sp with
  | .virt => s.wordPlace part x.addr
  | _ => some (.mem x.addr)

/-- Make ready every context parked by WAITM on a word whose parking core lies in the signaller's domain (R280). -/
def State.wakeWatchers (s : State) (sc : Scope) (l : Loc) : State :=
  (s.ctxs.filter (fun c => c.watch.any (fun x => domainOf sc x.core == domainOf sc s.core.id && s.watchPlace c.part x == some l))).foldl
    (fun t c => t.readyEvent c.handle) s

/-- SIGNAL (R280). -/
def signalBody (f : Fmt) (sc : Scope) (sp : Space) (add : Bool) (ea b : Word) (s : State) : Except Stop State := do
  let n := f.width / 8
  let acc : Acc := if add then .atomic else .write
  let s ← s.settled
  let old ← s.readWord sp acc ea n
  let v := b.toNat % 2 ^ f.width
  let place ← match sp with
    | .virt => s.translate acc ea.toNat
    | sp => .ok (.mem (s.padBase sp + ea.toNat))
  let s ← s.storeRun sp acc ea.toNat (bytesOfNat n (if add then (old + v) % 2 ^ f.width else v))
  pure (s.wakeWatchers sc place)

/-! Meanings. -/

/-- FENCE (R263). -/
def execFence (g : Guard) (_sc : Scope) (b : SReg) (s : State) : Out :=
  perform unitSQ g 8 (fun s => fenceBody (s.readS b) s) s

/-- FENCE, literal form (R263). -/
def execFenceLit (g : Guard) (_sc : Scope) (lit : BitVec 32) (s : State) : Out :=
  perform unitSQ g 12 (fun s => fenceBody (zextLit lit) s) s

/-- AADD (R272, R273). -/
def execAadd (g : Guard) (f : Fmt) (rm : Rm) (_sc : Scope) (_cl : BitVec 4) (sp : Space) (_ord : Order) (d a b : SReg) (s : State) : Out :=
  perform unitSQ g 8 (fun s => atomicBody .add f rm sp d (s.readS a) (s.readS b) s) s

/-- AADD, literal form (R272, R273). -/
def execAaddLit (g : Guard) (f : Fmt) (rm : Rm) (_sc : Scope) (_cl : BitVec 4) (sp : Space) (_ord : Order) (d a : SReg) (lit : BitVec 32) (s : State) : Out :=
  perform unitSQ g 12 (fun s => atomicBody .add f rm sp d (s.readS a) (sextLit lit) s) s

/-- AAND (R272, R273). -/
def execAand (g : Guard) (f : Fmt) (_sc : Scope) (_cl : BitVec 4) (sp : Space) (_ord : Order) (d a b : SReg) (s : State) : Out :=
  perform unitSQ g 8 (fun s => atomicBody .and f .rne sp d (s.readS a) (s.readS b) s) s

/-- AAND, literal form (R272, R273). -/
def execAandLit (g : Guard) (f : Fmt) (_sc : Scope) (_cl : BitVec 4) (sp : Space) (_ord : Order) (d a : SReg) (lit : BitVec 32) (s : State) : Out :=
  perform unitSQ g 12 (fun s => atomicBody .and f .rne sp d (s.readS a) (sextLit lit) s) s

/-- AOR (R272, R273). -/
def execAor (g : Guard) (f : Fmt) (_sc : Scope) (_cl : BitVec 4) (sp : Space) (_ord : Order) (d a b : SReg) (s : State) : Out :=
  perform unitSQ g 8 (fun s => atomicBody .or f .rne sp d (s.readS a) (s.readS b) s) s

/-- AOR, literal form (R272, R273). -/
def execAorLit (g : Guard) (f : Fmt) (_sc : Scope) (_cl : BitVec 4) (sp : Space) (_ord : Order) (d a : SReg) (lit : BitVec 32) (s : State) : Out :=
  perform unitSQ g 12 (fun s => atomicBody .or f .rne sp d (s.readS a) (sextLit lit) s) s

/-- AXOR (R272, R273). -/
def execAxor (g : Guard) (f : Fmt) (_sc : Scope) (_cl : BitVec 4) (sp : Space) (_ord : Order) (d a b : SReg) (s : State) : Out :=
  perform unitSQ g 8 (fun s => atomicBody .xor f .rne sp d (s.readS a) (s.readS b) s) s

/-- AXOR, literal form (R272, R273). -/
def execAxorLit (g : Guard) (f : Fmt) (_sc : Scope) (_cl : BitVec 4) (sp : Space) (_ord : Order) (d a : SReg) (lit : BitVec 32) (s : State) : Out :=
  perform unitSQ g 12 (fun s => atomicBody .xor f .rne sp d (s.readS a) (sextLit lit) s) s

/-- AMIN (R272, R273). -/
def execAmin (g : Guard) (f : Fmt) (_sc : Scope) (_cl : BitVec 4) (sp : Space) (_ord : Order) (d a b : SReg) (s : State) : Out :=
  perform unitSQ g 8 (fun s => atomicBody .min f .rne sp d (s.readS a) (s.readS b) s) s

/-- AMIN, literal form (R272, R273). -/
def execAminLit (g : Guard) (f : Fmt) (_sc : Scope) (_cl : BitVec 4) (sp : Space) (_ord : Order) (d a : SReg) (lit : BitVec 32) (s : State) : Out :=
  perform unitSQ g 12 (fun s => atomicBody .min f .rne sp d (s.readS a) (sextLit lit) s) s

/-- AMAX (R272, R273). -/
def execAmax (g : Guard) (f : Fmt) (_sc : Scope) (_cl : BitVec 4) (sp : Space) (_ord : Order) (d a b : SReg) (s : State) : Out :=
  perform unitSQ g 8 (fun s => atomicBody .max f .rne sp d (s.readS a) (s.readS b) s) s

/-- AMAX, literal form (R272, R273). -/
def execAmaxLit (g : Guard) (f : Fmt) (_sc : Scope) (_cl : BitVec 4) (sp : Space) (_ord : Order) (d a : SReg) (lit : BitVec 32) (s : State) : Out :=
  perform unitSQ g 12 (fun s => atomicBody .max f .rne sp d (s.readS a) (sextLit lit) s) s

/-- AXCHG (R272, R273). -/
def execAxchg (g : Guard) (f : Fmt) (_sc : Scope) (_cl : BitVec 4) (sp : Space) (_ord : Order) (d a b : SReg) (s : State) : Out :=
  perform unitSQ g 8 (fun s => atomicBody .xchg f .rne sp d (s.readS a) (s.readS b) s) s

/-- AXCHG, literal form (R272, R273). -/
def execAxchgLit (g : Guard) (f : Fmt) (_sc : Scope) (_cl : BitVec 4) (sp : Space) (_ord : Order) (d a : SReg) (lit : BitVec 32) (s : State) : Out :=
  perform unitSQ g 12 (fun s => atomicBody .xchg f .rne sp d (s.readS a) (sextLit lit) s) s

/-- ACAS (R272, R273). -/
def execAcas (g : Guard) (f : Fmt) (_sc : Scope) (_cl : BitVec 4) (sp : Space) (_ord : Order) (d a b : SReg) (s : State) : Out :=
  perform unitSQ g 8 (fun s => atomicBody .cas f .rne sp d (s.readS a) (s.readS b) s) s

/-- ACAS, literal form (R272, R273). -/
def execAcasLit (g : Guard) (f : Fmt) (_sc : Scope) (_cl : BitVec 4) (sp : Space) (_ord : Order) (d a : SReg) (lit : BitVec 32) (s : State) : Out :=
  perform unitSQ g 12 (fun s => atomicBody .cas f .rne sp d (s.readS a) (sextLit lit) s) s

/-- VAOR (R274). -/
def execVaor (g : Guard) (f : Fmt) (_sc : Scope) (_cl : BitVec 4) (sp : Space) (m : MReg) (d : VReg) (a : SReg) (b : VOp) (s : State) : Out :=
  perform unitVU g 8 (fun s => vatomicBody .or f sp m d (s.readS a) b s) s

/-- VAADD (R274). -/
def execVaadd (g : Guard) (f : Fmt) (_sc : Scope) (_cl : BitVec 4) (sp : Space) (m : MReg) (d : VReg) (a : SReg) (b : VOp) (s : State) : Out :=
  perform unitVU g 8 (fun s => vatomicBody .add f sp m d (s.readS a) b s) s

/-- VAMAX (R274). -/
def execVamax (g : Guard) (f : Fmt) (_sc : Scope) (_cl : BitVec 4) (sp : Space) (m : MReg) (d : VReg) (a : SReg) (b : VOp) (s : State) : Out :=
  perform unitVU g 8 (fun s => vatomicBody .max f sp m d (s.readS a) b s) s

/-- OWN.GIVE (R269). -/
def execOwnGive (g : Guard) (_sc : Scope) (sp : Space) (frm d : Owner) (a : SReg) (b : BitVec 6) (s : State) : Out :=
  perform (s.giveUnit frm d) g 8 (fun s => ownGiveBody sp frm d (s.readS a) (b.toNat + 1) s) s

/-- OWN.TAKE (R270). -/
def execOwnTake (g : Guard) (sp : Space) (d : Owner) (a : SReg) (b : BitVec 6) (s : State) : Out :=
  perform unitSQ g 8 (fun s => ownTakeBody sp d (s.readS a) (b.toNat + 1) s) s

/-- OWN.TEST (R271). -/
def execOwnTest (g : Guard) (sp : Space) (d a : SReg) (b : BitVec 4) (s : State) : Out :=
  perform unitSQ g 8 (fun s => ownTestBody sp d (s.readS a) (b.toNat + 1) s) s

/-- BAR (R276). -/
def execBar (g : Guard) (sc : Scope) (d : SReg) (a : BitVec 4) (b : SReg) (s : State) : Out :=
  runFate unitSQ g 8 (fun s => barBody sc d a (s.readS b) s) s

/-- BAR, literal form (R276). -/
def execBarLit (g : Guard) (sc : Scope) (d : SReg) (a : BitVec 4) (lit : BitVec 32) (s : State) : Out :=
  runFate unitSQ g 12 (fun s => barBody sc d a (zextLit lit) s) s

/-- SSTEP (R278). -/
def execSstep (g : Guard) (sc : Scope) (d : SReg) (a : BitVec 4) (b : SReg) (s : State) : Out :=
  runFate unitSQ g 8 (fun s => sstepBody 8 sc d a (s.readS b) s) s

/-- SSTEP, literal form (R278). -/
def execSstepLit (g : Guard) (sc : Scope) (d : SReg) (a : BitVec 4) (lit : BitVec 32) (s : State) : Out :=
  runFate unitSQ g 12 (fun s => sstepBody 12 sc d a (zextLit lit) s) s

/-- WAITM (R279). -/
def execWaitm (g : Guard) (f : Fmt) (sc : Scope) (_cl : BitVec 4) (sp : Space) (cond : WCond) (park : Bool) (d a b : SReg) (s : State) : Out :=
  runFate unitSQ g 8 (fun s => waitmBody { f := f, sc := sc, sp := sp, cond := cond, park := park, d := d, ea := s.readS a, b := s.readS b, len := 8 } s) s

/-- WAITM, literal form (R279). -/
def execWaitmLit (g : Guard) (f : Fmt) (sc : Scope) (_cl : BitVec 4) (sp : Space) (cond : WCond) (park : Bool) (d a : SReg) (lit : BitVec 32) (s : State) : Out :=
  runFate unitSQ g 12 (fun s => waitmBody { f := f, sc := sc, sp := sp, cond := cond, park := park, d := d, ea := s.readS a, b := sextLit lit, len := 12 } s) s

/-- SIGNAL (R280). -/
def execSignal (g : Guard) (f : Fmt) (sc : Scope) (_cl : BitVec 4) (sp : Space) (add : Bool) (a b : SReg) (s : State) : Out :=
  perform unitSQ g 8 (fun s => signalBody f sc sp add (s.readS a) (s.readS b) s) s

/-- SIGNAL, literal form (R280). -/
def execSignalLit (g : Guard) (f : Fmt) (sc : Scope) (_cl : BitVec 4) (sp : Space) (add : Bool) (a : SReg) (lit : BitVec 32) (s : State) : Out :=
  perform unitSQ g 12 (fun s => signalBody f sc sp add (s.readS a) (sextLit lit) s) s

end Sys2Proof.Machine
end

