-- ==== Sys2Proof/Machine/Context.lean ====
section
/-!
DEFINITION. The context instructions (chapter 13): handles, the instructions that act on a whole gang, CTXNEW to CTXSET and
LAUNCH, and the order in which a Steward chooses what runs (R302).
-/

namespace Sys2Proof.Machine

open Sys2Proof

/-! Handles and entries. -/

/-- The context-handle fault (R288): code 18. -/
def handleFault (h : BitVec 32) : Stop := .trap { code := 18, info := h.setWidth 64 }
/-- The context-state fault (R291): code 19. -/
def ctxStateFault (h : BitVec 32) : Stop := .trap { code := 19, info := h.setWidth 64 }
/-- The endpoint-absent fault of a context operation (R307, R309, R390): code 25. -/
def dieAbsent (d : Nat) : Stop := .trap { code := 25, info := BitVec.ofNat 64 d }

/-- Can a core's die reach the Steward of a die (R307, R309)? -/
def State.stewardUp (s : State) (d : Nat) : Bool := s.dieUp d && s.pathUp s.core.die d

/-- The context that a handle operand names (R287, R288): 0 is the issuer; the Steward of EDIE must answer. -/
def State.target (s : State) (v : Word) : Except Stop Ctx :=
  let h : BitVec 32 := if v = 0 then s.core.handle.getD 0 else v.setWidth 32
  let d := (h.extractLsb' 30 2).toNat
  if v.extractLsb' 32 32 != 0 then .error (.trap { code := 18, info := v })
  else if !s.stewardUp d then .error (dieAbsent d)
  else match s.findCtx h with
    | some c => if c.part == s.core.part then .ok c else .error (handleFault h)
    | none => .error (handleFault h)

/-- An attribute word that CTXNEW refuses (R307). -/
def attrBad (a : Word) : Bool := a.extractLsb' 9 55 != 0 || decide (4 < (a.extractLsb' 0 3).toNat)

/-- The entry that a Steward allocates on a die (R307): any free one, the model's choice a free value; with its generation. -/
def State.freeIndex (s : State) (d : BitVec 2) : Option (BitVec 14 × BitVec 16) :=
  let used := s.ctxs.filter (fun c => c.edie == d)
  let start := (Config.freeWord s.fresh).toNat
  (List.range (min (used.length + 1) 16384)).findSome? (fun i =>
    let ix : BitVec 14 := BitVec.ofNat 14 (start + i)
    match used.find? (fun c => c.index == ix) with
    | some c => if c.st == .free then some (ix, c.gen) else none
    | none => some (ix, 1))

/-- The contexts that a partition holds (R307, R362 k = 4). -/
def State.ctxCount (s : State) (p : BitVec 6) : Nat := (s.ctxs.filter (fun c => c.part == p && c.st != .free)).length

/-- Create a context on a die (R291, R295, R307): its handle, or 0 with nothing changed. -/
def State.newCtx (s : State) (part : BitVec 6) (die : BitVec 2) (attr seed : Word) : State × BitVec 32 :=
  if (s.partField part 4).toNat ≤ s.ctxCount part then (s, 0)
  else match s.freeIndex die with
    | none => (s, 0)
    | some (ix, gen) =>
      let prio := attr.extractLsb' 3 3
      let c := { Ctx.freeEntry die ix gen with
                 part := part, st := .parked, cause := .idle, prio := prio, eff := prio, wake := BitVec.allOnes 64,
                 rundie := die, gang := attr.extractLsb' 0 3, parkedAt := s.ptc, seed := seed, fresh := true }
      ({ s with ctxs := c :: s.ctxs.filter (fun x => !(x.edie == die && x.index == ix)) }, c.handle)

/-- CTXNEW (R307). -/
def ctxnewBody (d : SReg) (attr seed : Word) (s : State) : Except Stop State := do
  if attrBad attr then .error (.trap { code := 20, info := attr })
  let die : BitVec 2 := if attr.getLsbD 8 then BitVec.ofNat 2 s.core.die else attr.extractLsb' 6 2
  if !s.stewardUp die.toNat then .error (dieAbsent die.toNat)
  let (s, h) := s.newCtx s.core.part die attr seed
  pure (s.writeS d (h.setWidth 64))

/-- CTXFREE (R308): a Running or Frozen context is the context-state fault (R291), and so is always the issuer, which 0 names. The entries
of the context's pages change before it completes, so a slice that cannot be reached holds the issuer or is an absent endpoint (R313). -/
def ctxfreeBody (v : Word) (s : State) : Except Stop State := do
  if v = 0 then .error (ctxStateFault (s.core.handle.getD 0))
  let c ← s.target v
  if c.st == .running || c.st == .frozen then .error (ctxStateFault c.handle)
  match s.ownedBlock c.handle with
  | some st => .error st
  | none => pure (s.freeCtx c.handle 4)

/-- The codes of R309. -/
def CtxState.code : CtxState → Nat
  | .free => 0 | .ready => 1 | .running => 2 | .parked => 3 | .swapped => 4 | .frozen => 5
def Cause.code : Cause → Nat
  | .none => 0 | .idle => 1 | .park => 2 | .fault => 3 | .waitm => 4

/-- Fields of CTXQ (R309). -/
def State.ctxField (s : State) (c : Ctx) (k : Fin 7) : Word :=
  match k.val with
  | 0 =>
    let ret := if c.st == .frozen then c.ret.code else 0
    let core := if c.st == .running then c.base.toNat else 0
    BitVec.ofNat 64 (core * 2 ^ 32 + c.rundie.toNat * 2 ^ 24 + c.holds.length % 256 * 2 ^ 16 + c.kp.toNat * 2 ^ 15
      + c.mask.toNat * 2 ^ 12 + c.cause.code * 2 ^ 8 + ret * 8 + c.st.code)
  | 1 => BitVec.ofNat 64 ((s.effective c).toNat * 8 + c.prio.toNat)
  | 2 => c.wake
  | 3 => BitVec.ofNat 64 (c.part.toNat * 256 + c.rundie.toNat * 32 + c.edie.toNat * 8 + c.gang.toNat)
  | 4 => c.runtime + (if c.st == .running then s.ran c else 0)
  | 5 => match c.task with | some t => t.tag | none => 0
  | _ => 0

/-- CTXQ (R309). -/
def ctxqBody (d : SReg) (v : Word) (k : Fin 7) (s : State) : Except Stop State := do
  let c ← s.target v
  pure (s.writeS d (s.ctxField c k))

/-! Ready events of a parked context (R293, R294). -/

/-- A kick (R294). -/
def State.kick (s : State) (h : BitVec 32) : State :=
  match s.findCtx h with
  | none => s
  | some c =>
    if (c.away || c.pendReady) && c.cause == .park && c.mask.getLsbD 2 then s.tryUnpark h true
    else s.updCtx h (fun c => { c with kp := true })

/-- Ticks since a context last became Ready. -/
def State.waited (s : State) (c : Ctx) : Nat := (s.ptc - c.readyAt).toNat
/-- AGE of a context's partition. -/
def State.age (s : State) (c : Ctx) : Nat := (s.partField c.part 5).toNat
/-- When a Ready context joined the list of its number: at `joinedAt`, or when its age last changed the number it had then (R302). -/
def State.joined (s : State) (c : Ctx) : Nat :=
  if s.effective c = c.eff then c.joinedAt.toNat
  else c.readyAt.toNat + min (s.waited c / s.age c) c.prio.toNat * s.age c

/-- A new base priority of a Ready context (R302): it goes to the tail of its list when its effective number changes. -/
def State.setPrio (s : State) (c : Ctx) (p : BitVec 3) : State :=
  let h := c.handle
  let n := s.effective { c with prio := p }
  if c.st != .ready then s.updCtx h (fun c => { c with prio := p })
  else if n = s.effective c then s.updCtx h (fun x => { x with prio := p, joinedAt := BitVec.ofNat 64 (s.joined c), eff := n })
  else { s.updCtx h (fun x => { x with prio := p, joinedAt := s.ptc, eff := n }) with
           rr := if s.rr.contains h then s.rr.filter (· != h) ++ [h] else s.rr }

/-- CTXSET (R309). A new RUNDIE, which the next placement follows (R289), ends a placement in standby slots of another die. -/
def State.setCtxField (s : State) (c : Ctx) (k : BitVec 3) (b : Word) : State :=
  let h := c.handle
  match k.toNat with
  | 1 => s.setPrio c (b.setWidth 3)
  | 2 => s.updCtx h (fun c => { c with wake := b })
  | 3 => (if b.extractLsb' 5 2 == c.rundie then s else s.dropStandby h).updCtx h (fun c => { c with rundie := b.extractLsb' 5 2 })
  | _ => s.kick h

/-- CTXSET. -/
def ctxsetBody (v b : Word) (k : BitVec 3) (s : State) : Except Stop State := do
  let c ← s.target v
  pure (s.setCtxField c k b)

/-- WAKEAT (R306). -/
def wakeatBody (inn : Bool) (b : Word) (s : State) : State :=
  match s.core.handle with
  | none => s
  | some h => s.updCtx h (fun c => { c with wake := if inn then s.ptc + b else b })

/-! Choosing what runs (R302). -/

/-- Overdue contexts. -/
def State.overdue (s : State) (c : Ctx) : Bool := decide ((c.prio.toNat + 1) * s.age c ≤ s.waited c)

/-- Does one Ready context come before another (R302)? -/
def State.before (s : State) (a b : Ctx) : Bool :=
  match s.overdue a, s.overdue b with
  | true, true => decide (s.waited b < s.waited a)
  | true, false => true
  | false, true => false
  | false, false =>
    let ea := (s.effective a).toNat
    let eb := (s.effective b).toNat
    decide (ea < eb) || (ea == eb && decide (s.joined a < s.joined b))

/-- Insert in order, behind those that do not come after. -/
def State.insertCtx (s : State) (c : Ctx) : List Ctx → List Ctx
  | [] => [c]
  | d :: rest => if s.before c d then c :: d :: rest else d :: s.insertCtx c rest

/-- The Ready contexts whose RUNDIE is a die, in the order of R302; a Slate cut places none of those it covers (R408). -/
def State.readyOrder (s : State) (d : Nat) : List Ctx :=
  ((s.rr.filterMap s.findCtx).filter (fun c => c.st == .ready && c.rundie.toNat == d && !s.slateStops c.part)).foldl (fun l c => s.insertCtx c l) []

/-- Does a partition own the quad of a core (R362)? -/
def State.owns (s : State) (p : BitVec 6) (id : BitVec 10) : Bool :=
  let k : Fin 19 := ⟨id.toNat / 256 % 4, by omega⟩
  (s.partField p k).getLsbD (id.toNat % 256 / 4)

/-- The first cores of the blocks of a die that fit a context's gang and lie in its partition (R20, R302). -/
def State.blocksFor (s : State) (c : Ctx) (d : Nat) : List (BitVec 10) :=
  let n := gangSize c.gang
  ((List.range (256 / n)).map (fun i => BitVec.ofNat 10 (256 * d + i * n))).filter (fun b => (gangCores b c.gang).all (s.owns c.part))

/-- Are the cores of a block free? -/
def State.blockFree (s : State) (c : Ctx) (b : BitVec 10) : Bool := (gangCores b c.gang).all (fun id => (s.coreAt id).handle.isNone)

/-- Do the standby slots of a block hold a context's loaded image (R303)? -/
def State.blockStandby (s : State) (c : Ctx) (b : BitVec 10) : Bool :=
  (gangCores b c.gang).all (fun id => (s.coreAt id).standby == some { handle := c.handle, loaded := true })

/-- Do the slots of a block still hold the image a context left there (R303)? -/
def State.blockHolds (s : State) (c : Ctx) (b : BitVec 10) : Bool :=
  (gangCores b c.gang).all (fun id => (s.coreAt id).held.toList.contains (some c.handle))

/-- The block that R302 chooses among some: standby loaded, image still there, or the lowest. -/
def State.pickBlock (s : State) (c : Ctx) (bs : List (BitVec 10)) : Option (BitVec 10) :=
  (bs.find? (s.blockStandby c)) <|> (bs.find? (s.blockHolds c)) <|> bs.head?

/-- The free blocks of a context that touch no reserved core. -/
def State.freeBlocks (s : State) (c : Ctx) (d : Nat) (reserved : List (BitVec 10)) : List (BitVec 10) :=
  (s.blocksFor c d).filter (fun b => s.blockFree c b && (gangCores b c.gang).all (fun id => !reserved.contains id))

/-- The next placement of a die (R302): the oldest overdue context that does not fit reserves the blocks it could use. -/
def State.nextPlacement (s : State) (d : Nat) : List Ctx → List (BitVec 10) → Option (Ctx × BitVec 10)
  | [], _ => none
  | c :: rest, reserved =>
    match s.pickBlock c (s.freeBlocks c d reserved) with
    | some b => some (c, b)
    | none =>
      let reserved := if s.overdue c && reserved.isEmpty then (s.blocksFor c d).flatMap (fun b => gangCores b c.gang) else reserved
      s.nextPlacement d rest reserved

/-- The contexts that run on a block. -/
def State.runningOn (s : State) (c : Ctx) (b : BitVec 10) : List Ctx :=
  (((gangCores b c.gang).filterMap (fun id => (s.coreAt id).handle)).dedup).filterMap s.findCtx

/-- Is the slice of a Running context at its end (R302)? -/
def State.sliceSpent (s : State) (c : Ctx) : Bool := decide (c.allowance ≤ ((s.ran c).toNat : Int))

/-- May a Ready context take the cores of a Running one (R302): at once when its number is strictly lower; at the end of the
slice when it is equal, or when the Ready one is overdue? -/
def State.mayTake (s : State) (slice : Bool) (c v : Ctx) : Bool :=
  let e := (s.effective c).toNat
  decide (e < v.eff.toNat) || (slice && (e == v.eff.toNat || s.overdue c) && s.sliceSpent v)

/-- The highest number among the contexts of a block. -/
def State.blockNumber (s : State) (c : Ctx) (b : BitVec 10) : Nat := ((s.runningOn c b).map (fun v => v.eff.toNat)).foldl max 0

/-- The block with the highest number, the lowest-numbered one of equals. -/
def State.worstBlock (s : State) (c : Ctx) : List (BitVec 10) → Option (BitVec 10)
  | [] => none
  | b :: rest => match s.worstBlock c rest with
    | none => some b
    | some b' => if s.blockNumber c b < s.blockNumber c b' then some b' else some b

/-- The block that a Ready context without a free block takes from Running ones (R302): all of them at once, or for an overdue context
each at the end of its own slice. -/
def State.victimBlock (s : State) (slice : Bool) (c : Ctx) (d : Nat) : Option (BitVec 10) :=
  s.worstBlock c ((s.blocksFor c d).filter (fun b =>
    if slice && s.overdue c then (s.runningOn c b).any (s.mayTake slice c) else (s.runningOn c b).all (s.mayTake slice c)))

/-- The next pre-emption of a die: the first Ready context in order that fits no free block and may take one. -/
def State.nextPreempt (s : State) (slice : Bool) (d : Nat) : Option (Ctx × BitVec 10) :=
  (s.readyOrder d).findSome? (fun c =>
    if (s.freeBlocks c d []).isEmpty then (s.victimBlock slice c d).map (fun b => (c, b)) else none)

/-- Could another Ready context use the cores of a gang (R305)? -/
def State.someoneCanUse (s : State) (h : BitVec 32) (ids : List (BitVec 10)) (d : Nat) : Bool :=
  (s.readyOrder d).any (fun c => c.handle != h && (s.blocksFor c d).any (fun b =>
    (gangCores b c.gang).any ids.contains &&
    (gangCores b c.gang).all (fun id => ids.contains id || (s.coreAt id).handle.isNone)))

/-! The instructions of a whole gang (R305). -/

/-- Set what the member on the core waits for. -/
def State.setWait (s : State) (x : Option Wait) : State := { s with core := { s.core with m := { s.core.m with wait := x } } }

/-- The register a member's collective instruction writes. -/
def Member.gangReg (m : Member) : SReg := match m.wait with | some (.gang _ d) => d | _ => 0

/-- Each member of a gang goes on behind its instruction with a value in its register. -/
def State.gangGoOn (s : State) (ids : List (BitVec 10)) (v : Word) : State :=
  ids.foldl (fun t id => t.onCore id (fun u => ((u.setWait none).writeS u.core.m.gangReg v).retire 8)) s

/-- Each member stands behind its instruction, its register to be written when it next runs. -/
def State.gangOwe (s : State) (ids : List (BitVec 10)) (v : Word) : State :=
  ids.foldl (fun t id => t.onCore id (fun u =>
    let d := u.core.m.gangReg
    let u := (u.setWait none).retire 8
    { u with core := { u.core with m := { u.core.m with owed := some (d, v) } } })) s

/-- The Ready contexts placed in standby slots that lie wholly on a gang's cores, each with its first core (R305). -/
def State.standbysOn (s : State) (ids : List (BitVec 10)) : List (Ctx × BitVec 10) :=
  let hs := (ids.filterMap (fun id => (s.coreAt id).standby.map (·.handle))).dedup
  hs.filterMap (fun h => match s.findCtx h with
    | none => none
    | some c => if c.st != .ready then none else match ids.find? (fun id => ((s.coreAt id).standby.map (·.handle)) == some h) with
      | none => none
      | some b => if (gangCores b c.gang).all (fun id => ids.contains id && ((s.coreAt id).standby.map (·.handle)) == some h) then some (c, b) else none)

/-- Is the standby image of a context loaded on a block? -/
def State.standbyLoaded (s : State) (x : Ctx × BitVec 10) : Bool := s.blockStandby x.1 x.2

/-- CSWAP when every member has performed it (R305); a Slate cut stops the context there (R408). -/
def State.actCswap (s : State) (c : Ctx) (ids : List (BitVec 10)) : Fate :=
  if s.slateStops c.part then .left ((s.gangOwe ids 0).leave c.handle)
  else match s.standbysOn ids with
  | [] => .left (s.gangGoOn ids 0)
  | xs =>
    if !xs.all s.standbyLoaded then .stay s
    else .left (xs.foldl (fun t x => t.placeCtx x.1.handle x.2) ((s.gangOwe ids 1).leave c.handle))

/-- YIELD when every member has performed it (R305). -/
def State.actYield (s : State) (c : Ctx) (ids : List (BitVec 10)) : Fate :=
  if s.slateStops c.part || s.someoneCanUse c.handle ids s.core.die then .left ((s.gangOwe ids 0).leave c.handle) else .left (s.gangGoOn ids 0)

/-- PARK when every member has performed it (R294, R305). -/
def State.actPark (s : State) (c : Ctx) (ids : List (BitVec 10)) (mask : BitVec 3) : Fate :=
  let m := s.condMask c mask
  if m != 0 then
    .left ((s.updCtx c.handle (fun c => { c with kp := c.kp && !mask.getLsbD 2 })).gangGoOn ids (m.setWidth 64))
  else .left ((s.gangOwe ids 0).park c.handle .park mask)

/-- Does a member wait at the same instruction? -/
def Member.waitsFor (m : Member) (k : Collective) : Bool :=
  match m.wait, k with
  | some (.gang .cswap _), .cswap => true
  | some (.gang .yield _), .yield => true
  | some (.gang (.park _) _), .park _ => true
  | _, _ => false

/-- CSWAP, YIELD and PARK (R304, R305): each member waits at it, its writes performed and no SCLD outstanding (R131), until every member
has performed it. -/
def collectiveBody (k : Collective) (d : SReg) (s : State) : Except Stop Fate := do
  s.requireU
  match s.self with
  | none => pure (.stay s)
  | some c => if !s.img.late.isEmpty then pure (.stay s) else
    let s := (← s.settled).setWait (some (.gang k d))
    let ids := gangCores c.base c.gang
    if ids.all (fun id => (s.coreAt id).m.waitsFor k) then
      match k with
      | .cswap => pure (s.actCswap c ids)
      | .yield => pure (s.actYield c ids)
      | .park mask => pure (s.actPark c ids mask)
    else pure (.stay s)

/-! LAUNCH (R310). -/

/-- A host queue (R296); one that is not listed holds zeros. -/
def State.queueAt (s : State) (q : Nat) : HostQueue :=
  (s.queues.lookup q).getD
    { base := 0, part := 0, rerr := false, ovr := false, log2n := 0, en := false, tail := 0, head := 0, cerr := 0, cur := none }

/-- Replace a host queue. -/
def State.putQueue (s : State) (q : Nat) (x : HostQueue) : State := { s with queues := (q, x) :: s.queues.filter (fun y => y.1 != q) }

/-- The number of records of a queue's ring. -/
def HostQueue.size (x : HostQueue) : Nat := 2 ^ x.log2n.toNat

/-- The virtual address of the ring's record of an index. -/
def HostQueue.slotAt (x : HostQueue) (i : BitVec 32) : Nat := (x.base.toNat + 64 * (i.toNat % x.size)) % 2 ^ 64

/-- LAUNCH (R310): a release, then the record is read and goes to the ring as a write of the issuing context, which its journal
records (R335; DEDUCED, log 40). -/
def launchBody (d : SReg) (a b : Word) (s : State) : Except Stop State := do
  let q := b.toNat
  let x := s.queueAt q
  if 1024 ≤ q || x.part != s.core.part || !x.en then pure (s.writeS d 2)
  else do
    let s ← s.settled
    let bs ← s.loadChecked .virt none a 64
    let s := s.touchRead .virt a.toNat 64
    if x.size ≤ (x.tail - x.head).toNat then pure (s.writeS d 1)
    else do
      let va := x.slotAt x.tail
      s.checkRun .virt none va 64
      let s ← s.storeVirt .write va bs
      pure ((s.putQueue q { x with tail := x.tail + 1 }).writeS d 0)

/-! Meanings. -/

/-- CSWAP (R305). -/
def execCswap (g : Guard) (d : SReg) (s : State) : Out :=
  runFate unitSQ g 8 (collectiveBody .cswap d) s

/-- YIELD (R305). -/
def execYield (g : Guard) (s : State) : Out :=
  runFate unitSQ g 8 (collectiveBody .yield 0) s

/-- PARK (R305). -/
def execPark (g : Guard) (wr wt wk : Bool) (d : SReg) (s : State) : Out :=
  runFate unitSQ g 8 (collectiveBody (.park (BitVec.ofBool wk ++ BitVec.ofBool wt ++ BitVec.ofBool wr)) d) s

/-- WAKEAT (R306). -/
def execWakeat (g : Guard) (inn : Bool) (b : SReg) (s : State) : Out :=
  performPure g 8 (fun s => wakeatBody inn (s.readS b) s) s

/-- WAKEAT, literal form (R306). -/
def execWakeatLit (g : Guard) (inn : Bool) (lit : BitVec 32) (s : State) : Out :=
  performPure g 12 (fun s => wakeatBody inn (zextLit lit) s) s

/-- CTXNEW (R307). -/
def execCtxnew (g : Guard) (d a b : SReg) (s : State) : Out :=
  perform unitSQ g 8 (fun s => ctxnewBody d (s.readS a) (s.readS b) s) s

/-- CTXNEW, literal form (R307). -/
def execCtxnewLit (g : Guard) (d a : SReg) (lit : BitVec 32) (s : State) : Out :=
  perform unitSQ g 12 (fun s => ctxnewBody d (s.readS a) (sextLit lit) s) s

/-- CTXFREE (R308). -/
def execCtxfree (g : Guard) (a : SReg) (s : State) : Out :=
  perform unitSQ g 8 (fun s => ctxfreeBody (s.readS a) s) s

/-- CTXQ (R309). -/
def execCtxq (g : Guard) (d a : SReg) (c : Fin 7) (s : State) : Out :=
  perform unitSQ g 8 (fun s => ctxqBody d (s.readS a) c s) s

/-- CTXSET (R309). -/
def execCtxset (g : Guard) (a b : SReg) (c : BitVec 3) (s : State) : Out :=
  perform unitSQ g 8 (fun s => ctxsetBody (s.readS a) (s.readS b) c s) s

/-- CTXSET, literal form (R309). -/
def execCtxsetLit (g : Guard) (a : SReg) (lit : BitVec 32) (c : BitVec 3) (s : State) : Out :=
  perform unitSQ g 12 (fun s => ctxsetBody (s.readS a) (sextLit lit) c s) s

/-- LAUNCH (R310). -/
def execLaunch (g : Guard) (d a b : SReg) (s : State) : Out :=
  perform unitSQ g 8 (fun s => launchBody d (s.readS a) (s.readS b) s) s

/-- LAUNCH, literal form (R310). -/
def execLaunchLit (g : Guard) (d a : SReg) (lit : BitVec 32) (s : State) : Out :=
  perform unitSQ g 12 (fun s => launchBody d (s.readS a) (zextLit lit) s) s

end Sys2Proof.Machine
end

