-- ==== Sys2Proof/Machine/HostQueue.lean ====
section
/-!
DEFINITION. The events of chapter 13: the host's writes to queue registers, the Steward's acceptance and start of launch
records, graphs, completion, placement, slices and swap-outs. An event whose conditions do not hold changes nothing.
-/

namespace Sys2Proof.Machine

open Sys2Proof

/-! Queue registers (R296). -/

/-- The home die of a host queue. -/
def queueDie (q : Nat) : Nat := q / 256 % 4

/-- A QTAIL write (R296): valid between the value it holds and the end of the ring counted from HEAD, otherwise an overrun. -/
def State.writeQtail (s : State) (q : Nat) (v : BitVec 32) : State :=
  let x := s.queueAt q
  if (x.tail - x.head).toNat ≤ (v - x.head).toNat && decide ((v - x.head).toNat ≤ x.size) then s.putQueue q { x with tail := v }
  else s.putQueue q { x with ovr := true }

/-- A QCTL write of EN = 1 (R296): ignored while EN = 1; a LOG2N outside 4 to 16 leaves EN at 0. -/
def State.enableQueue (s : State) (q : Nat) (log2n : BitVec 5) (part : BitVec 6) : State :=
  let x := s.queueAt q
  if x.en then s
  else s.putQueue q { x with log2n := log2n, part := part, en := decide (4 ≤ log2n.toNat) && decide (log2n.toNat ≤ 16) }

/-- A write of QCTL (R296): OVR and RERR are cleared by ones; while EN = 1 nothing else but EN = 0 is taken; otherwise PART and
LOG2N are set, and EN by the rule of `enableQueue`. -/
def State.writeQctl (s : State) (q : Nat) (v : Word) : State :=
  let x := s.queueAt q
  let x := { x with ovr := x.ovr && !v.getLsbD 6, rerr := x.rerr && !v.getLsbD 7 }
  if x.en then s.putQueue q { x with en := v.getLsbD 0 }
  else
    let n : BitVec 5 := v.extractLsb' 1 5
    s.putQueue q { x with part := v.extractLsb' 16 6, log2n := n,
                          en := v.getLsbD 0 && decide (4 ≤ n.toNat) && decide (n.toNat ≤ 16) }

/-! Reads and writes of the Steward for a queue (R299, R300). -/

/-- Where the Steward of a die reads a run of a partition's virtual address space. -/
def State.stewardParts (s : State) (part : BitVec 6) (d va n : Nat) : Except Stop (List (Loc × Nat)) :=
  if 2 ^ 57 < va + n then .error (trapAt 5 0 0)
  else (cut va n).mapM (fun (a, k) => do
    let l ← s.translateFor part d .read true a
    pure (l, k))

/-- The Steward of a die reads a run of a partition's virtual address space. -/
def State.stewardRead (s : State) (part : BitVec 6) (d va n : Nat) : Except Stop (List Byte) := do
  let parts ← s.stewardParts part d va n
  pure (parts.flatMap (fun (l, k) => s.bytesAt l k))

/-- The reads that a Steward has made reach the pages they lie in (R321, R325): runs that were read, not the others. -/
def State.noteSteward (s : State) (part : BitVec 6) (d : Nat) (xs : List (Nat × Nat)) : State :=
  xs.foldl (fun t x => match t.stewardParts part d x.1 x.2 with | .ok parts => t.noteParts parts | .error _ => t) s

/-- "Endpoint absent" that a read of the Steward of a die gets is counted by the island that answers (R390, R398). -/
def State.noteAbsent (s : State) (d : Nat) (st : Stop) : State :=
  match st with
  | .trap e => if e.code = 25 && e.island.isNone then s.countAbsent d e.info.toNat else s
  | _ => s

/-- What a failed read of the Steward does (R299): a page that is not resident is recalled and waited for. -/
def State.stewardWait (s : State) (part : BitVec 6) (st : Stop) : Option State :=
  match st with
  | .park va => some (s.recall part va 0)
  | .hold _ _ | .link _ _ _ | .bank _ => some s
  | .trap _ | .pop _ _ _ => none

/-- A launch record from its bytes (R297). -/
def launchOfBytes (bs : List Byte) : Launch :=
  let w (i : Nat) : Word := wordOfBytes ((bs.drop (8 * i)).take 8)
  { w0 := w 0, addr := w 1, handle := w 2, arg := w 3, compl := w 4, rsv := w 5, pred := w 6, tag := w 7 }

def Launch.type (l : Launch) : Nat := (l.w0.extractLsb' 0 8).toNat
def Launch.barrier (l : Launch) : Bool := l.w0.getLsbD 8
def Launch.irq (l : Launch) : Bool := l.w0.getLsbD 10

/-- A record that completes with DESC and does nothing else (R297): a reserved or zero field that is not zero, an unknown
TYPE, an ADDR that is not a multiple of 64. `node` says that it is a graph node, whose PRED is used. -/
def Launch.bad (l : Launch) (node : Bool) : Bool :=
  let t := l.type
  l.w0.extractLsb' 11 21 != 0 || l.rsv != 0 || l.handle.extractLsb' 32 32 != 0 || (!node && l.pred != 0)
    || t == 0 || decide (4 < t)
    || ((t == 1 || t == 2) && l.addr.extractLsb' 0 6 != 0)
    || ((t == 2 || t == 3) && l.handle != 0)
    || ((t == 2 || t == 4) && l.arg != 0)
    || (t == 4 && l.addr != 0)

/-- The part of a task that its record gives. -/
def Launch.task (l : Launch) (q : Nat) (part : BitVec 6) (seqno : Nat) (node : Option (Nat × Nat)) : Task :=
  { queue := q, part := part, compl := l.compl, irq := l.irq, tag := l.tag, seqno := seqno, node := node }

/-- The record of a queue that has been accepted and has not started; its number is the last one given to the queue. -/
def State.finishCur (s : State) (q : Nat) : State := s.putQueue q { s.queueAt q with cur := none }

/-- The number of the record at the head of a queue: it is outstanding from its acceptance. -/
def State.curSeqno (s : State) (q : Nat) : Nat := ((s.outstanding.filter (fun o => o.queue == q)).map (·.seqno)).foldl max 0

/-- Complete the record at the head with a status and handle (R300). -/
def State.completeCur (s : State) (q : Nat) (l : Launch) (h : BitVec 32) (status : Nat) : State :=
  let n := s.curSeqno q
  ((s.finishCur q).complete (l.task q (s.queueAt q).part n none) h status)

/-- The Steward accepts the record at HEAD (R296, R297, R299). -/
def State.acceptRecord (s : State) (q : Nat) : State :=
  let x := s.queueAt q
  if !x.en || x.head == x.tail || x.cur.isSome || decide (1024 ≤ q) || !s.dieUp (queueDie q) then s
  else match s.stewardRead x.part (queueDie q) (x.slotAt x.head) 64 with
    | .error st => match s.stewardWait x.part st with
      | some t => t
      | none => ((s.noteAbsent (queueDie q) st).putQueue q { x with en := false, rerr := true }).postError x.part
    | .ok bs =>
      let l := launchOfBytes bs
      let s := s.noteSteward x.part (queueDie q) [(x.slotAt x.head, 64)]
      let s := { s.putQueue q { x with head := x.head + 1, cur := some l } with
                   seqno := s.seqno + 1, outstanding := { queue := q, seqno := s.seqno + 1 } :: s.outstanding }
      if l.bad false then s.completeCur q l (l.handle.setWidth 32) 8 else s

/-- The record at the head of a queue, when it may start: with BARRIER, every earlier record has completed (R297, R300). -/
def State.headRecord (s : State) (q : Nat) : Option Launch :=
  match (s.queueAt q).cur with
  | none => none
  | some l =>
    if l.barrier && (s.outstanding.filter (fun o => o.queue == q)).any (fun o => o.seqno != s.curSeqno q) then none else some l

/-! Tasks (R298, R299). -/

/-- The shape images of a descriptor, by shape number, with `arg` resolved (R54, R298). -/
def descShapes (shmask argmask : BitVec 16) (arg : Word) (bs : List Byte) : List (ShReg × BitVec 512) :=
  (((List.range 16).filter shmask.getLsbD).zipIdx).map (fun (n, i) =>
    let img : BitVec 512 := BitVec.ofNat 512 (natOfBytes ((bs.drop (64 * i)).take 64))
    let base : Word := if argmask.getLsbD n then img.extractLsb' 0 64 + arg else img.extractLsb' 0 64
    (BitVec.ofNat 4 n, ((img >>> 64 <<< 64) ||| base.setWidth 512) &&& shapeMask))

/-- What the descriptor of a TASK record says (R298, R299): the kernel entry, or the status it completes with. -/
def descCheck (l : Launch) (gang : BitVec 3) (hd images : List Byte) : Except Nat KernelEntry :=
  let w (i : Nat) : Word := wordOfBytes ((hd.drop (8 * i)).take 8)
  let ns : BitVec 32 := if l.w0.getLsbD 9 then l.w0.extractLsb' 32 32 else (w 0).extractLsb' 32 32
  if (w 0).extractLsb' 6 10 != 0 || (w 6).extractLsb' 16 48 != 0 || w 7 != 0 || decide (4 < ((w 0).extractLsb' 0 3).toNat) then .error 8
  else if (w 0).extractLsb' 0 3 != gang then .error 1
  else if 311296 < ns.toNat || ns.toNat % 8192 != 0 then .error 2
  else .ok { entry := w 1, viewV := w 3, viewT := w 4, viewAcc := w 5, arg := l.arg, ns := ns.toNat,
             shapes := descShapes ((w 0).extractLsb' 16 16) ((w 6).extractLsb' 0 16) l.arg images }

/-- Does the Steward of a die reach the one that keeps the entry of a handle (R12, R23)? A record that names another waits
(DESIGN CHOICE, log 41). -/
def State.entryReached (s : State) (d : Nat) (h : BitVec 32) : Bool :=
  let e := (h.extractLsb' 30 2).toNat
  s.dieUp e && s.pathUp d e

/-- The runs that hold the shape images of a descriptor, from its first 64 bytes (R298). -/
def imageRun (l : Launch) (hd : List Byte) : Nat × Nat :=
  (l.addr.toNat + 64, 64 * ((List.range 16).filter ((wordOfBytes (hd.take 8)).extractLsb' 16 16).getLsbD).length)

/-- The result of looking at a TASK record: it waits, possibly for a recall; it completes with a status; or it starts. The reads that were
made have reached their pages. -/
inductive TaskLook where
  | wait (s : State)
  | fail (s : State) (status : Nat)
  | start (s : State) (e : KernelEntry)

/-- The checks of a TASK record in their order (R299), by the Steward of a die, whose reads reach the pages they lie in (R321, R325). -/
def State.lookTask (s : State) (part : BitVec 6) (d : Nat) (l : Launch) : TaskLook :=
  let h : BitVec 32 := l.handle.setWidth 32
  if !s.entryReached d h then .wait s
  else match (s.findCtx h).filter (fun c => c.part == part) with
  | none => .fail s 3
  | some c =>
    if !((c.st == .parked || c.st == .swapped) && c.cause == .idle && !c.pendReady) then .wait s
    else
      let failed (t : State) (st : Stop) : TaskLook := match s.stewardWait part st with | some w => .wait w | none => .fail (t.noteAbsent d st) 8
      match s.stewardRead part d l.addr.toNat 64 with
      | .error st => failed s st
      | .ok hd =>
        let s := s.noteSteward part d [(l.addr.toNat, 64)]
        let im := imageRun l hd
        match s.stewardRead part d im.1 im.2 with
        | .error st => failed s st
        | .ok images =>
          let s := s.noteSteward part d [im]
          match descCheck l c.gang hd images with
          | .error k => .fail s k
          | .ok e => .start s e

/-- Start a task on an IDLE context (R294, R299): TASK := TAG, KP cleared, the entry recorded, the context Ready. -/
def State.startTask (s : State) (h : BitVec 32) (t : Task) (e : KernelEntry) : State :=
  (s.updCtx h (fun c => { c with task := some t, entry := some e, kp := false,
                                 members := c.members.map (fun m => { m with img := { m.img with pc := e.entry } }) })).readyEvent h

/-- TASK_START (R299): the TASK record at the head of a queue. -/
def State.taskStart (s : State) (q : Nat) : State :=
  match s.headRecord q with
  | none => s
  | some l =>
    if l.type != 1 then s
    else
      let x := s.queueAt q
      let h : BitVec 32 := l.handle.setWidth 32
      match s.lookTask x.part (queueDie q) l with
      | .wait t => t
      | .fail s k => s.completeCur q l h k
      | .start s e => (s.finishCur q).startTask h (l.task q x.part (s.curSeqno q) none) e

/-- CREATE_RECORD (R299): as CTXNEW with the queue's PART; HERE is the queue's home die. While the chosen die is down, or no
path leads there, the record waits (DESIGN CHOICE, log 41). -/
def State.createRecord (s : State) (q : Nat) : State :=
  match s.headRecord q with
  | none => s
  | some l =>
    if l.type != 3 then s
    else if attrBad l.addr then s.completeCur q l 0 8
    else
      let die : BitVec 2 := if l.addr.getLsbD 8 then BitVec.ofNat 2 (queueDie q) else l.addr.extractLsb' 6 2
      if !s.dieUp die.toNat || !s.pathUp (queueDie q) die.toNat then s
      else
        let (s, h) := s.newCtx (s.queueAt q).part die l.addr l.arg
        s.completeCur q l h 0

/-- FREE_RECORD (R299): as CTXFREE; a state fault gives STATE. While the entry's Steward is not reached (R23), or a slice that must change
is not (R313), the record waits (DESIGN CHOICE, log 41). -/
def State.freeRecord (s : State) (q : Nat) : State :=
  match s.headRecord q with
  | none => s
  | some l =>
    if l.type != 4 then s
    else
      let h : BitVec 32 := l.handle.setWidth 32
      if !s.entryReached (queueDie q) h then s
      else match (s.findCtx h).filter (fun c => c.part == (s.queueAt q).part) with
      | none => s.completeCur q l h 3
      | some c =>
        if c.st == .running || c.st == .frozen then s.completeCur q l h 10
        else if (s.ownedBlock h).isSome then s
        else (s.freeCtx h 4).completeCur q l h 0

/-! Graphs (R301). -/

/-- The nodes of a graph's snapshot, or `none` when it completes with DESC. -/
def graphNodes (hd nodes : List Byte) : Option (List Launch) :=
  let ns := (slices 64 (natOfBytes (hd.take 1)) nodes).map launchOfBytes
  let bad := (hd.drop 1).any (· != 0) || ns.isEmpty || decide (64 < ns.length)
    || ns.zipIdx.any (fun (l, n) => l.type != 1 || decide (2 ^ n ≤ l.pred.toNat))
  if bad then none else some ns

/-- GRAPH_START (R301): the snapshot of the GRAPH record at the head of a queue. -/
def State.graphStart (s : State) (q : Nat) : State :=
  match s.headRecord q with
  | none => s
  | some l =>
    if l.type != 2 then s
    else
      let x := s.queueAt q
      let d := queueDie q
      let failed (t : State) (st : Stop) : State :=
        match s.stewardWait x.part st with | some w => w | none => (t.noteAbsent d st).completeCur q l 0 8
      match s.stewardRead x.part d l.addr.toNat 64 with
      | .error st => failed s st
      | .ok hd =>
        let s := s.noteSteward x.part d [(l.addr.toNat, 64)]
        let rest := (l.addr.toNat + 64, 64 * (natOfBytes (hd.take 1)))
        match s.stewardRead x.part d rest.1 rest.2 with
        | .error st => failed s st
        | .ok nodes =>
          let s := s.noteSteward x.part d [rest]
          match graphNodes hd nodes with
          | none => s.completeCur q l 0 8
          | some ns =>
            { s.finishCur q with graphs := s.graphs ++
                [{ id := s.curSeqno q, start := s.ptc, queue := q, part := x.part, compl := l.compl, irq := l.irq, seqno := s.curSeqno q,
                   nodes := ns.map (fun n => (n, .pending)) }] }

/-- The states of a node's predecessors. -/
def Graph.preds (g : Graph) (l : Launch) : List NodeState := ((g.nodes.zipIdx).filter (fun x => l.pred.getLsbD x.2)).map (·.1.2)

/-- When a pending node became eligible: at its graph's start, or when the last of its predecessors completed with DONE. -/
def Graph.eligibleAt (g : Graph) (l : Launch) : Option Nat :=
  if (g.preds l).all (fun x => match x with | .done 0 _ => true | _ => false) then
    some (((g.preds l).map (fun x => match x with | .done _ t => t.toNat | _ => 0)).foldl max g.start.toNat)
  else none

/-- Is there an eligible node of the same context that comes first: earlier eligible, of an older instance, or of a lower number? -/
def State.nodeYields (s : State) (g : Graph) (n : Nat) (l : Launch) (at_ : Nat) : Bool :=
  s.graphs.any (fun g' => (g'.nodes.zipIdx).any (fun x =>
    x.1.2 == .pending && x.1.1.handle == l.handle &&
    (match g'.eligibleAt x.1.1 with
     | none => false
     | some t => decide (t < at_) || (t == at_ && (decide (g'.id < g.id) || (g'.id == g.id && decide (x.2 < n)))))))

/-- The state of a node. -/
def State.setNode (s : State) (gid n : Nat) (st : NodeState) : State :=
  { s with graphs := s.graphs.map (fun g => if g.id = gid then { g with nodes := g.nodes.mapIdx (fun i x => if i = n then (x.1, st) else x) } else g) }

/-- GRAPH_NODE_START (R301): node `n` of a running graph is skipped, fails or starts; it does so once, though its word may wait. -/
def State.graphNodeStart (s : State) (gid n : Nat) : State :=
  match s.graphs.find? (fun g => g.id == gid) with
  | none => s
  | some g =>
    if !s.dieUp (queueDie g.queue) then s
    else match g.nodes[n]? with
    | some (l, .pending) =>
      let t := l.task g.queue g.part g.seqno (some (gid, n))
      let h : BitVec 32 := l.handle.setWidth 32
      if (g.preds l).any (fun x => match x with | .done (_ + 1) _ => true | _ => false) then (s.setNode gid n .running).complete t h 9
      else match g.eligibleAt l with
        | none => s
        | some at_ =>
          if l.bad true then (s.setNode gid n .running).complete t h 8
          else if s.nodeYields g n l at_ then s
          else match s.lookTask g.part (queueDie g.queue) l with
            | .wait t => t
            | .fail s k => (s.setNode gid n .running).complete t h k
            | .start s e => (s.setNode gid n .running).startTask h t e
    | _ => s

/-! Completion (R300). -/

/-- TASK_COMPLETE (R131, R300): every member has performed END. The context is IDLE before its completion word is written, at once or
later (R347; DESIGN CHOICE, log 84). -/
def State.taskComplete (s : State) (h : BitVec 32) : State :=
  match s.findCtx h with
  | none => s
  | some c =>
    if c.st == .running && (gangCores c.base c.gang).all (fun id => (s.coreAt id).m.ended) then
      (s.park h .idle 0).endTask h 0 (Config.freeBool s.fresh)
    else s

/-- COMPLETION_WORD_WRITE (R300): a completion word that waits is tried again. -/
def State.completionWrite (s : State) (i : Nat) : State :=
  match s.completions[i]? with
  | none => s
  | some c => { s with completions := s.completions.eraseIdx i }.tryCompletion c

/-! The arbiters (R365). -/

/-- A grant of an arbiter among the partitions with a request waiting (R365): the partition of the entry its pointer comes to,
or round robin above RRP. -/
def State.grant (s : State) (a : Arbiter) (waiting : BitVec 6 → Bool) : Option (BitVec 6 × Arbiter) :=
  let i := a.ptr + 1
  let e := s.qos[i.toFin]
  let p : BitVec 6 := e.extractLsb' 0 6
  if e.getLsbD 6 && waiting p then some (p, { a with ptr := i })
  else (((List.range 64).map (fun k => a.rrp + BitVec.ofNat 6 (k + 1))).find? waiting).map (fun p => (p, { ptr := i, rrp := p }))

/-- The number of the arbiter of the Steward of a die. -/
def stewardArb (d : Nat) : Fin 8 := ⟨4 + d % 4, by omega⟩

/-! Images that move (R289, R390, R435). -/

/-- The die that holds the image of a context, or whose HBM4E does (R289). -/
def Ctx.imageHome (c : Ctx) : Nat :=
  match c.loc, c.imgAt with
  | .hbm, some a => homeOfPa a
  | _, _ => c.imgDie.toNat

/-- Does a transfer between the Steward of a die and another die get "endpoint absent" (R12, R390)? -/
def State.imageAbsent (s : State) (own far : Nat) : Bool := !s.dieUp far || !s.pathUp own far

/-- A transfer of a context's image between the Steward of die `own` and a die has failed (R390): by the rules of R368 the context is lost
where its image was in slots or a vault that are gone, and otherwise held until the die returns. The island that answered has counted one
that broke on its way (R391), and counts one that finds its end absent now (R398). -/
def State.failTransfer (s : State) (c : Ctx) (own far : Nat) : State :=
  let s := if !c.broken && s.imageAbsent own far then s.countAbsent own far else s
  if c.loc != .hbm && !s.dieUp c.imgDie.toNat then s.freeCtx c.handle 6
  else
    let s := s.updCtx c.handle (fun c =>
      { c with moving := false, pendReady := false, imgAt := if c.loc == .hbm then c.imgAt else none, paths := [], broken := false })
    (if c.pendReady then s.readyEvent c.handle else s).holdOn c.handle (.die far)

/-- The path that a transfer between two dies commits to (R12). -/
def State.imagePaths (s : State) (own far : Nat) : List (Nat × Nat × Option Nat) :=
  if own = far then [] else [(own, far, (s.route own far).getD none)]

/-- A transfer of the image of a context begins: it keeps to its paths (R12). -/
def State.commitImage (s : State) (h : BitVec 32) (ps : List (Nat × Nat × Option Nat)) : State :=
  s.updCtx h (fun c => { c with paths := ps, broken := false })

/-- Does the image of a context lie in HBM4E whose controller does not serve, so that its load waits (R427, R428)? -/
def State.imageWaits (s : State) (c : Ctx) : Bool :=
  c.loc == .hbm && (match c.imgAt with | some a => !s.stackServes a | none => false)

/-- May the Steward swap the image of a parked context out (R435): after SLICE ticks with no prediction nearer than LEAD, or
when the storage is needed, which the model leaves free (DESIGN CHOICE, log 1)? -/
def State.swapDue (s : State) (c : Ctx) : Bool :=
  (decide ((s.partField c.part 6).toNat ≤ (s.ptc - c.parkedAt).toNat) &&
    (c.wake == BitVec.allOnes 64 || decide (s.ptc.toNat + (s.partField c.part 7).toNat < c.wake.toNat)))
  || Config.freeBool s.fresh

/-- May the swap-out of a context begin (R292, R435)? -/
def State.swapWaits (s : State) (c : Ctx) : Bool := c.st == .parked && !c.moving && !c.pendReady && s.swapDue c

/-! Placement (R302, R303). -/

/-- PREEMPT and SLICE_END: the contexts of the chosen block leave that the Ready one may take the cores of. -/
def State.preemptNext (s : State) (slice : Bool) (d : Nat) : State :=
  match s.nextPreempt slice d with
  | none => s
  | some (c, b) => ((s.runningOn c b).filter (s.mayTake slice c)).foldl (fun t v => t.leave v.handle) s

/-- The Ready contexts of a die in the order of R302, but for those whose image cannot be loaded yet (R428). -/
def State.placeable (s : State) (d : Nat) : List Ctx := (s.readyOrder d).filter (fun c => !s.imageWaits c)

/-- The next placement of a die (R302), and whether an image must be loaded for it. -/
def State.placement (s : State) (d : Nat) : Option (Ctx × BitVec 10 × Bool) :=
  (s.nextPlacement d (s.placeable d) []).map (fun (c, b) => (c, b, !c.fresh && !s.blockHolds c b))

/-- May the standby slot of a core take a context's image: empty, or of a context that comes after it (R303)? -/
def State.standbyOpen (s : State) (c : Ctx) (id : BitVec 10) : Bool :=
  match (s.coreAt id).standby with
  | none => true
  | some x => match s.findCtx x.handle with
    | none => true
    | some o => s.before c o

/-- The standby loads among some contexts, in the order of R302: those that fit no free block and have no standby, each with the block that
may take it. As for a placement, the blocks that the oldest overdue context which does not fit could use take nothing new. -/
def State.standbyWalk (s : State) (d : Nat) : List Ctx → List (BitVec 10) → List (Ctx × BitVec 10)
  | [], _ => []
  | c :: rest, reserved =>
    let free (b : BitVec 10) : Bool := (gangCores b c.gang).all (fun id => !reserved.contains id)
    if !(s.freeBlocks c d reserved).isEmpty then s.standbyWalk d rest reserved
    else
      let reserved' := if s.overdue c && reserved.isEmpty then (s.blocksFor c d).flatMap (fun b => gangCores b c.gang) else reserved
      let mine : Option (BitVec 10) := if s.allCores.any (fun k => (k.standby.map (·.handle)) == some c.handle) then none
        else s.pickBlock c ((s.blocksFor c d).filter (fun b => free b && (gangCores b c.gang).all (s.standbyOpen c)))
      (mine.map (fun b => (c, b))).toList ++ s.standbyWalk d rest reserved'

/-- The standby loads that a die could begin. -/
def State.standbyChoices (s : State) (d : Nat) : List (Ctx × BitVec 10) := s.standbyWalk d (s.placeable d) []

/-- Has a partition an image to move at the Steward of a die: a standby load, a load of a placement, or a swap-out (R365)? -/
def State.imageAsked (s : State) (d : Nat) (p : BitVec 6) : Bool :=
  (s.standbyChoices d).any (fun x => x.1.part == p) || (s.placement d).any (fun x => x.2.2 && x.1.part == p)
    || s.ctxs.any (fun c => c.part == p && c.imgDie.toNat == d && s.swapWaits c)

/-- A grant of the Steward of a die (R365) among the partitions with an image to move there. -/
def State.imageGrant (s : State) (d : Nat) : Option (BitVec 6 × State) :=
  (s.grant s.arbs[stewardArb d] (s.imageAsked d)).map (fun (p, a) => (p, { s with arbs := s.arbs.set (stewardArb d).val a (stewardArb d).isLt }))

/-- PLACE: the Steward of a die places the next context of R302, if one fits and its image can be loaded (R390), which takes a grant of its
arbiter (R365). -/
def State.placeNext (s : State) (d : Nat) : State :=
  if !s.dieUp d then s
  else match s.placement d with
    | none => s
    | some (c, b, false) => s.placeCtx c.handle b
    | some (c, b, true) => match s.imageGrant d with
      | none => s
      | some (p, t) =>
        if p != c.part then s
        else if t.imageAbsent d c.imageHome then t.failTransfer c d c.imageHome else t.placeCtx c.handle b

/-- The next standby load of a die: the first of the partition that the Steward's arbiter grants (R302, R365). -/
def State.nextStandby (s : State) (d : Nat) : Option (Ctx × BitVec 10 × State) :=
  match s.imageGrant d with
  | none => none
  | some (p, t) => ((s.standbyChoices d).find? (fun x => x.1.part == p)).map (fun x => (x.1, x.2, t))

/-- STANDBY_LOAD (R303): the load begins, and the slots hold the image when it is done; it is skipped where they hold it still. -/
def State.standbyLoad (s : State) (d : Nat) : State :=
  if !s.dieUp d then s
  else match s.nextStandby d with
    | none => s
    | some (c, b, s) =>
      let ids := gangCores b c.gang
      let loaded := ids.all (fun id => (s.coreAt id).held[slotFin (!(s.coreAt id).slot)] == some c.handle)
      if !loaded && !c.fresh && s.imageAbsent d c.imageHome then s.failTransfer c d c.imageHome
      else
      let s := if loaded || c.fresh then s else s.commitImage c.handle (s.imagePaths d c.imageHome)
      let s := (ids.filterMap (fun id => (s.coreAt id).standby.map (·.handle))).dedup.foldl State.dropStandby s
      ids.foldl (fun t id =>
        let t := t.clearSlot c.handle id (!(t.coreAt id).slot)
        let k := t.coreAt id
        let i := slotFin (!k.slot)
        t.putCore { k with held := k.held.set i.val (if loaded then some c.handle else none) i.isLt, standby := some { handle := c.handle, loaded := loaded } }) s

/-- The standby slot of a core holds the image of a context that it was loading. -/
def Core.standbyFull (c : Core) (h : BitVec 32) : Core :=
  let i := slotFin (!c.slot)
  if c.standby.map (·.handle) == some h then
    { c with standby := some { handle := h, loaded := true }, held := c.held.set i.val (some h) i.isLt }
  else c

/-- STANDBY_LOAD_DONE (R303, R390): the image is in the standby slots, as it was where it was loaded from. A stack that does not serve makes
the load wait (R427, R428). -/
def State.standbyDone (s : State) (h : BitVec 32) : State :=
  match s.findCtx h, s.allCores.find? (fun k => k.standby == some { handle := h, loaded := false }) with
  | some c, some k =>
    if !c.fresh && (c.broken || s.imageAbsent k.die c.imageHome) then s.failTransfer c k.die c.imageHome
    else if s.imageWaits c then s
    else
      let s := { s with core := s.core.standbyFull h, others := s.others.map (fun (c : Core) => c.standbyFull h) }
      s.updCtx h (fun x => { x with members := s.loadedMembers c, paths := [] })
  | _, _ => s

/-! Swap-out and wake (R292, R293, R435). -/

/-- SWAP_OUT (R435): the image move of a parked context begins, when the Steward's arbiter grants its partition (R365). -/
def State.swapOut (s : State) (h : BitVec 32) : State :=
  match s.findCtx h with
  | none => s
  | some c =>
    if s.swapWaits c then
      match s.imageGrant c.imgDie.toNat, s.imageSpot c with
      | some (p, t), some a => if p == c.part then (t.updCtx h (fun c => { c with moving := true, imgAt := some a })).commitImage h (s.imagePaths c.imgDie.toNat (homeOfPa a)) else s
      | _, _ => s
    else s

/-- SWAP_OUT_DONE (R291, R292): the image is in HBM4E, in the layout of R74; the context is Swapped, or Ready when a ready event came
during the move. A held stack makes the move wait (R427), and an end that is absent makes it fail (R390). -/
def State.swapOutDone (s : State) (h : BitVec 32) : State :=
  match s.findCtx h with
  | none => s
  | some c =>
    match c.imgAt with
    | none => s
    | some a =>
      if !c.moving then s
      else if c.broken || !s.dieUp c.imgDie.toNat || s.imageAbsent c.imgDie.toNat (homeOfPa a) then s.failTransfer c c.imgDie.toNat (homeOfPa a)
      else if !s.stackServes a then s
      else
      let s := ((s.writeImages a c.members).unhold h).updCtx h (fun c => { c with moving := false, loc := .hbm, paths := [] })
      match c.st with
      | .parked =>
        let s := s.updCtx h (fun c => { c with st := .swapped })
        if c.pendReady then (s.updCtx h (fun c => { c with pendReady := false })).readyEvent h else s
      | .frozen => s.updCtx h (fun c => { c with pendReady := false,
                                                 ret := if c.pendReady then .ready else if c.ret == .parked then .swapped else c.ret,
                                                 cause := if c.pendReady then .none else c.cause,
                                                 watch := if c.pendReady then [] else c.watch })
      | _ => s

/-- WAKE_TIME_REACHED (R293, R295): the PTC has reached the WAKE of a context parked by PARK with T, or by WAITM. -/
def State.wakeTime (s : State) (h : BitVec 32) : State :=
  match s.findCtx h with
  | none => s
  | some c =>
    if !s.wakeReached c then s
    else if c.away && c.cause == .waitm then s.readyEvent h
    else if c.mask.getLsbD 1 then s.tryUnpark h false
    else s

/-- The host reaches the package through island 0's port (R25). -/
def State.ifHost (s : State) (t : State) : State := if s.islandUp 0 then t else s

/-- What the Steward of a die does, it does while its die is UP and it is ready (R25, R389, R428). -/
def State.ifUp (s : State) (d : Nat) (t : State) : State := if s.dieUp d && s.ready.getLsbD (16 + d) then t else s

/-! Meanings. -/

/-- QTAIL_WRITE (R296). -/
def execQtailWrite (q : BitVec 10) (v : BitVec 32) (s : State) : Out :=
  .next (s.ifHost (s.writeQtail q.toNat v))

/-- QUEUE_ENABLE (R296). -/
def execQueueEnable (q : BitVec 10) (log2n : BitVec 5) (part : BitVec 6) (s : State) : Out :=
  .next (s.ifHost (s.enableQueue q.toNat log2n part))

/-- QUEUE_DISABLE (R296). -/
def execQueueDisable (q : BitVec 10) (s : State) : Out :=
  .next (s.ifHost (s.putQueue q.toNat { s.queueAt q.toNat with en := false }))

/-- OVR_CLEAR (R296). -/
def execOvrClear (q : BitVec 10) (s : State) : Out :=
  .next (s.ifHost (s.putQueue q.toNat { s.queueAt q.toNat with ovr := false }))

/-- RERR_CLEAR (R296). -/
def execRerrClear (q : BitVec 10) (s : State) : Out :=
  .next (s.ifHost (s.putQueue q.toNat { s.queueAt q.toNat with rerr := false }))

/-- RECORD_ACCEPT (R299). -/
def execRecordAccept (q : BitVec 10) (s : State) : Out :=
  .next (s.ifUp (queueDie q.toNat) (s.acceptRecord q.toNat))

/-- TASK_START (R299). -/
def execTaskStart (q : BitVec 10) (s : State) : Out :=
  .next (s.ifUp (queueDie q.toNat) (s.taskStart q.toNat))

/-- GRAPH_START (R301). -/
def execGraphStart (q : BitVec 10) (s : State) : Out :=
  .next (s.ifUp (queueDie q.toNat) (s.graphStart q.toNat))

/-- CREATE_RECORD (R299). -/
def execCreateRecord (q : BitVec 10) (s : State) : Out :=
  .next (s.ifUp (queueDie q.toNat) (s.createRecord q.toNat))

/-- FREE_RECORD (R299). -/
def execFreeRecord (q : BitVec 10) (s : State) : Out :=
  .next (s.ifUp (queueDie q.toNat) (s.freeRecord q.toNat))

/-- GRAPH_NODE_START (R301). -/
def execGraphNodeStart (graph : Nat) (n : BitVec 6) (s : State) : Out :=
  .next (s.graphNodeStart graph n.toNat)

/-- TASK_COMPLETE (R300). -/
def execTaskComplete (h : BitVec 32) (s : State) : Out :=
  .next (s.ifUp (h.extractLsb' 30 2).toNat (s.taskComplete h))

/-- COMPLETION_WORD_WRITE (R300). -/
def execCompletionWordWrite (i : Nat) (s : State) : Out :=
  .next (s.completionWrite i)

/-- PLACE (R302). -/
def execPlace (d : BitVec 2) (s : State) : Out :=
  .next (s.ifUp d.toNat (s.placeNext d.toNat))

/-- STANDBY_LOAD (R303). -/
def execStandbyLoad (d : BitVec 2) (s : State) : Out :=
  .next (s.ifUp d.toNat (s.standbyLoad d.toNat))

/-- STANDBY_LOAD_DONE (R303). -/
def execStandbyLoadDone (h : BitVec 32) (s : State) : Out :=
  .next (s.ifUp (h.extractLsb' 30 2).toNat (s.standbyDone h))

/-- SLICE_END (R302). -/
def execSliceEnd (d : BitVec 2) (s : State) : Out :=
  .next (s.ifUp d.toNat (s.preemptNext true d.toNat))

/-- PREEMPT (R302). -/
def execPreempt (d : BitVec 2) (s : State) : Out :=
  .next (s.ifUp d.toNat (s.preemptNext false d.toNat))

/-- SWAP_OUT (R435). -/
def execSwapOut (h : BitVec 32) (s : State) : Out :=
  .next (s.ifUp (h.extractLsb' 30 2).toNat (s.swapOut h))

/-- SWAP_OUT_DONE (R292). -/
def execSwapOutDone (h : BitVec 32) (s : State) : Out :=
  .next (s.ifUp (h.extractLsb' 30 2).toNat (s.swapOutDone h))

/-- WAKE_TIME_REACHED (R293). -/
def execWakeTimeReached (h : BitVec 32) (s : State) : Out :=
  .next (s.ifUp (h.extractLsb' 30 2).toNat (s.wakeTime h))

end Sys2Proof.Machine
end

