-- ==== Sys2Proof/Machine/Residency.lean ====
section
/-!
DEFINITION. Residency (chapter 14): the tiers and their free places, moves and the policy that chooses them, and the
instructions of OP 0x37: mapping, pinning, KV regions, batched append, invalidation and the retake journal. Where the manual
leaves a place in a tier to the engine, the model takes the lowest free one (DESIGN CHOICE, log 42).
-/

namespace Sys2Proof.Machine

open Sys2Proof

/-! Places in the tiers (R317, R328). -/

/-- The slabs of a block of a class (R328). -/
def slabsPerBlock (cls : Nat) : Nat :=
  match cls with
  | 0 => 128 | 1 => 64 | 2 => 42 | _ => 32

/-- The bytes that runs, in rising order of address, cover from an address on. -/
def covered : Nat → List (Nat × Nat) → Nat
  | _, [] => 0
  | a, x :: rest => (x.1 + x.2 - max a x.1) + covered (max a (x.1 + x.2)) rest

/-- A partition's free HBM4E frames of 64 KiB (R321). -/
def State.freeHbm (s : State) (part : BitVec 6) : Nat :=
  let (lo, hi) := s.hbmRange part
  let used := (s.hbmUsed.filter (fun x => decide (lo ≤ x.1) && decide (x.1 < hi))).insertionSort (fun x y => x.1 ≤ y.1)
  ((hi - lo) - covered lo used) / 0x10000

/-- A partition's free vault-tier frames on a die (R317). -/
def State.freeVault (s : State) (part : BitVec 6) (d : Nat) : List Nat :=
  (s.frames.filter (fun f => f.2 == part && homeOfPa f.1 == d && s.pages.all (fun p => (p.runs .vault).all (fun x => x.1 != f.1)))).map (·.1)

/-- The slabs of a block that no page holds (R328). -/
def State.freeSlabs (s : State) (b : SlabBlock) : List Nat :=
  let used := s.pages.flatMap (fun p => if p.kv then (p.runs .hbm).map (·.1) else [])
  ((List.range (slabsPerBlock b.cls)).map (fun k => b.pa + slabBytes b.cls * k)).filter (fun a => !used.contains a)

/-- A free slab of a class outside one block (R328, R329). -/
def State.freeSlab (s : State) (part : BitVec 6) (cls : Nat) (but : Option Nat) : Option Nat :=
  (s.blocks.filter (fun b => b.part == part && b.cls == cls && some b.pa != but && s.stackServes b.pa)).findSome? (fun b => (s.freeSlabs b).head?)

/-- The slab that a KV page leaving the vault takes (R328): of its class, otherwise of a new block when HRES stays met,
otherwise of the next larger class that has one. The answer is the slab, its class and the block added, if one is. -/
def State.takeSlab (s : State) (part : BitVec 6) (cls : Nat) : Option (Nat × Nat × List SlabBlock) :=
  match s.freeSlab part cls none with
  | some a => some (a, cls, [])
  | none =>
    let (lo, hi) := s.hbmRange part
    match (if (s.partField part 9).toNat + 32 ≤ s.freeHbm part then lowestFree lo hi 0x200000 (s.hbmUsed ++ s.heldRuns) else none) with
    | some a => some (a, cls, [{ pa := a, part := part, cls := cls }])
    | none => ((List.range 4).filter (fun k => decide (cls < k))).findSome? (fun k => (s.freeSlab part k none).map (fun a => (a, k, [])))

/-- The slab class of the contents of a KV page (R328; DESIGN CHOICE, log 24). -/
def classOf (cells : Memory) : Nat := if cells.isEmpty then 0 else (Config.slabClass cells).val

/-- The active CXL groups of a partition, with their windows (R317, R385). -/
def State.poolGroups (s : State) (part : BitVec 6) : List (Nat × Window) :=
  (List.range 16).filterMap (fun g =>
    let gr := s.groups[g % 16]'(Nat.mod_lt _ (by decide))
    match gr.win with
    | some x => if gr.pers == .cxl && gr.st == .active && x.part == part then some (g, x) else none
    | none => none)

/-- The runs of a group's pool in use: pages there, and pages that a generation in a slot of any target records there, until another takes
its place (R317, R405). -/
def State.poolUsed (s : State) (g : Nat) : List (Nat × Nat) :=
  let runs (ps : List Page) : List (Nat × Nat) := (ps.filter (fun p => p.group == g)).flatMap (·.runs .pool)
  runs s.pages ++ s.slate.slots.flatMap (fun x => runs x.2.pages)

/-- A free place for `n` bytes in the pool of a partition: a group and a place. -/
def State.poolPlace (s : State) (part : BitVec 6) (n : Nat) : Option (Nat × Nat) :=
  (s.poolGroups part).findSome? (fun x => (lowestFree 0 (0x20000000 * x.2.size) n (s.poolUsed x.1)).map (fun a => (x.1, a)))

/-! Moves (R318, R319, R320). -/

/-- Where one move towards a tier takes a page: an ordinary page passes through HBM4E between vault and pool, a DEMAND page
goes straight, and a KV page from the pool goes straight to the vault (R318, R322, R339, R342). -/
def Page.leg (p : Page) (final : Tier) : Tier :=
  if p.demand then final
  else match p.tier, final with
    | .vault, .pool => .hbm
    | .pool, .vault => if p.kv then .vault else .hbm
    | _, t => t

/-- The die at an end of a move: of the group through which the pool is reached, or the home of a run of the other tiers. -/
def Page.endDie (p : Page) (t : Tier) (a : Nat) : Nat := if t == .pool then p.group / 4 else homeOfPa a

/-- Can the engine of a die reach a run of a tier (R319, R390)? A group that is DOWN or FAILED answers "endpoint absent" (R394). -/
def State.endReached (s : State) (d : Nat) (p : Page) (t : Tier) (a : Nat) : Bool :=
  match t with
  | .pool => (p.demand && t == p.tier) || (s.groupSt p.group != .down && s.groupSt p.group != .failed && s.pathUp d (p.group / 4))
  | _ => if p.demand && t == p.tier then true else s.dieUp (homeOfPa a) && s.pathUp d (homeOfPa a)

/-- The place a move takes: its tier, place, group, slab class and a slab block it adds. -/
structure Spot where
  tier : Tier
  at_ : Nat
  group : Nat
  cls : Nat
  block : List SlabBlock
deriving DecidableEq, Repr

/-- The die whose vault tier a page is recalled to: its region's, or its engine's (R326, R332; DESIGN CHOICE, log 42). -/
def State.vaultDie (s : State) (p : Page) (d : BitVec 2) : BitVec 2 :=
  if p.kv then match s.regions.find? (fun r => r.part == p.part && decide (r.base ≤ p.va) && decide (p.va < r.base + 0x10000 * r.count)) with
    | some r => r.die
    | none => d
  else d

/-- May a move use a run of a tier: its stack serves (R427, R428)? -/
def State.stackFree (s : State) (t : Tier) (a : Nat) : Bool := t != .hbm || s.stackServes a

/-- The place that a started move of a page takes, if there is one. -/
def State.spotFor (s : State) (p : Page) (m : Move) : Option Spot :=
  let pool (cls : Nat) : Option Spot :=
    (s.poolPlace p.part (({ p with cls := cls } : Page).span .pool)).map (fun x => { tier := .pool, at_ := x.2, group := x.1, cls := cls, block := [] })
  match p.leg m.dest with
  | .vault => ((s.freeVault p.part (s.vaultDie p m.die).toNat).head?).map (fun a => { tier := .vault, at_ := a, group := p.group, cls := p.cls, block := [] })
  | .hbm =>
    if !p.kv then
      let (lo, hi) := s.hbmRange p.part
      (lowestFree lo hi p.bytes (s.hbmUsed ++ s.heldRuns)).map (fun a => { tier := .hbm, at_ := a, group := p.group, cls := p.cls, block := [] })
    else if p.tier == .vault then
      let cls := classOf (s.pageCells p)
      match s.takeSlab p.part cls with
      | some (a, k, bs) => some { tier := .hbm, at_ := a, group := p.group, cls := k, block := bs }
      | none => pool cls
    else
      let own := (s.blocks.find? (fun b => decide (b.pa ≤ p.frame) && decide (p.frame < b.pa + 0x200000))).map (·.pa)
      (s.freeSlab p.part p.cls own).map (fun a => { tier := .hbm, at_ := a, group := p.group, cls := p.cls, block := [] })
  | .pool => pool p.cls

/-- Is there nothing left to move (R324): the page is gone, EMPTY or pinned, or is where the request takes it? -/
def State.moveIdle (s : State) (m : Move) : Bool :=
  match s.pages.find? (fun p => p.part == m.part && p.va == m.va) with
  | none => true
  | some p => p.st == .empty || decide (0 < p.pin) || (p.st != .moving && m.kind != .compact && p.tier == m.dest && !p.demand)
      || (m.kind == .compact && !(p.st == .out && p.tier == .hbm) && p.st != .moving)

/-- The place of a request in the order of R320: level 3 has demotions in the order that R321 gave them when they were
chosen, then promotions, then compaction. -/
def State.moveKey (s : State) (m : Move) : Nat :=
  m.level * 2 ^ 200 + (match m.level with
    | 2 => match (s.pageAt m.part m.va).bind (fun p => s.findCtx p.owner) with | some c => c.wake.toNat | none => 2 ^ 64
    | 3 => match m.kind with
      | .promote => 2 ^ 190
      | .compact => 2 ^ 191
      | _ => m.key
    | _ => 0)

/-- The residency counter that a move adds to (R343): promotions, demotions, recalls or compaction moves; a PGMOVE counts by
its direction (DESIGN CHOICE, log 42). -/
def moveCounter (m : Move) (tier leg : Tier) : Fin 7 :=
  match m.kind with
  | .promote => 1
  | .compact => 5
  | .demote => 2
  | .recall => 3
  | .move => if leg == .pool || tier == .vault then 2 else 3

/-- The paths that the traffic of a move takes (R12): from its engine's die to the dies of its two ends. -/
def State.movePaths (s : State) (m : Move) (p : Page) (x : Spot) : List (Nat × Nat × Option Nat) :=
  let d := m.die.toNat
  let q := { p with group := x.group }
  ([p.endDie p.tier p.frame, q.endDie x.tier x.at_].filter (· != d)).map (fun e => (d, e, (s.route d e).getD none))

/-- Begin a move (R319, steps 1 and 2): the page is MOVING and its translation is gone once every write through it has
performed. -/
def State.beginMove (s : State) (m : Move) (p : Page) (x : Spot) : State :=
  let s := (if p.st == .resident then s.snoop p.frame p.bytes else s).dropPage p
  let paths := s.movePaths m p x
  let s := s.updPage p.part p.va (fun p => { p with st := .moving, dest := x.tier, toFrame := x.at_, group := x.group, cls := x.cls })
  let s := { s with blocks := x.block ++ s.blocks, moves := s.moves.map (fun y => if y == m then { y with started := true, paths := paths } else y) }
  s.countRes m.die (moveCounter m p.tier x.tier) 1

/-- The requests of the engine of a die that can start, in the order of R320, each with its page and the place it takes. -/
def State.startable (s : State) (d : BitVec 2) : List (Move × Page × Spot) :=
  ((s.moves.filter (fun m => !m.started && m.die == d)).insertionSort (fun x y => s.moveKey x ≤ s.moveKey y)).filterMap (fun m =>
    match s.pages.find? (fun p => p.part == m.part && p.va == m.va) with
    | some p =>
      if p.st == .moving || s.slateStops p.part || (p.st == .resident && s.writeWaits p.frame p.bytes) || !s.slicesUp d.toNat p.size p.va || (!p.demand && !s.stackFree p.tier p.frame) || (p.tier == .pool && !p.demand && !(s.poolGroups p.part).any (fun g => g.1 == p.group)) then none
      else ((s.spotFor p m).filter (fun x => s.stackFree x.tier x.at_)).map (fun x => (m, p, x))
    | none => none)

/-- MOVE_START (R320, R365): the engine of a die starts a request of the lowest level that has one which can start, the first of
the partition that its arbiter grants, unless 16 of its moves are in flight. -/
def State.moveStart (s : State) (d : BitVec 2) : State :=
  let s := s.settleAll
  let s := { s with moves := s.moves.filter (fun m => m.started || !s.moveIdle m) }
  if 16 ≤ (s.moves.filter (fun m => m.started && m.die == d)).length || !s.dieUp d.toNat || !s.ready.getLsbD (20 + d.toNat) then s
  else
    let ms := s.startable d
    let ready := ms.filter (fun x => some x.1.level == ms.head?.map (·.1.level))
    match s.grant (s.arbs[d.toNat]'(by omega)) (fun p => ready.any (fun x => x.1.part == p)) with
    | none => s
    | some (p, a) =>
      match ready.find? (fun x => x.1.part == p) with
      | some (m, pg, x) => { s with arbs := s.arbs.set d.toNat a (by omega) }.beginMove m pg x
      | none => s

/-- What follows when a page stops being in flight: contexts that waited for it go on when it is resident (R293, R318). -/
def State.landed (s : State) (p : Page) : State := if p.st == .resident then (s.wakeFaulted p).settleResides p else s

/-- What an unmap or a KVFREE left to be done (R318, R340, R345). -/
def State.finishGone (s : State) (p : Page) : State :=
  match p.gone with
  | .none => s.landed p
  | .remove => s.removePage p
  | .empty => s.emptyPage p

/-- Put a page back into the directory. -/
def State.putPage (s : State) (p : Page) : State := s.updPage p.part p.va (fun _ => p)

/-- A move ends without finishing, its source standing (R319): the page is again as it was before the move. -/
def State.undoMove (s : State) (m : Move) (p : Page) : State :=
  let p := { p with st := if p.open_ p.tier && !p.demand then .resident else .out, dest := p.tier, toFrame := 0 }
  ({ s.putPage p with moves := s.moves.filter (· != m) }).finishGone p

/-- The copy of a move (R319, steps 3 to 5). -/
def State.endMove (s : State) (m : Move) (p : Page) : State :=
  let cells := s.pageCells p
  let open_ := p.open_ p.dest
  let s := if p.dest == .hbm then { s with slate := s.slate.touch p.toFrame (p.span .hbm) } else s
  let s := if open_ then
      { s.snoop p.toFrame p.bytes with mem := s.mem.place p.toFrame p.bytes cells, bad := healed s.bad p.toFrame p.bytes }
    else s
  let p := { p with st := if open_ then .resident else .out, tier := p.dest, frame := p.toFrame, toFrame := 0,
                    cells := if open_ then [] else cells, demand := false, heat := 0, hot := false }
  let s := ({ s.putPage p with moves := s.moves.filter (· != m) }).finishGone p
  if p.gone == .none && p.tier == .hbm && m.dest != .hbm then s.queueMove p m.level m.dest m.kind else s

/-- MOVE_COMPLETE (R319): a move in flight ends at its destination; one that lost an end or its path goes back, and one of a held
stack, of an engine whose die is not UP, or of an entry whose slice is down waits (R313, R389, R427). -/
def State.moveComplete (s : State) (part : BitVec 6) (va : Nat) : State :=
  match s.pages.find? (fun p => p.part == part && p.va == va), s.moves.find? (fun m => m.part == part && m.va == va && m.started) with
  | some p, some m =>
    if p.st != .moving || (!p.demand && !s.stackFree p.tier p.frame) || !s.stackFree p.dest p.toFrame || !s.dieUp m.die.toNat
        || !s.slicesUp m.die.toNat p.size p.va then s
    else if m.broken then s.undoMove m p
    else if !s.endReached m.die.toNat p p.tier p.frame then (s.countAbsent m.die.toNat (p.endDie p.tier p.frame)).undoMove m p
    else if !s.endReached m.die.toNat p p.dest p.toFrame then (s.countAbsent m.die.toNat (p.endDie p.dest p.toFrame)).undoMove m p
    else s.endMove m p
  | _, _ => s

/-- Is a transfer of the image of a context under way: a swap-out, or a standby load? -/
def State.transferring (s : State) (c : Ctx) : Bool :=
  c.moving || s.allCores.any (fun k => k.standby == some { handle := c.handle, loaded := false })

/-- The moves in flight and the transfers of images whose traffic takes a lost path do not finish (R319, R390): the first island on it that
is up answers (R391, R398). -/
def State.breakPaths (s : State) (lost : Nat × Nat × Option Nat → Bool) : State :=
  let hit := (s.moves.filter (fun m => !m.broken)).filterMap (fun m => m.paths.find? lost)
    ++ (s.ctxs.filter (fun c => !c.broken && s.transferring c)).filterMap (fun c => c.paths.find? lost)
  { hit.foldl (fun t x => t.countIsland (t.firstUp x.1 x.2.1 x.2.2)) s with
      moves := s.moves.map (fun m => if m.paths.any lost then { m with broken := true } else m),
      ctxs := s.ctxs.map (fun c => if c.paths.any lost then { c with broken := true } else c) }

/-- The transfers of images that have an end on a compute die that leaves UP get "endpoint absent" from its island (R390, R391). -/
def State.breakEnds (s : State) (d : Nat) : State :=
  let hit := (s.ctxs.filter (fun c => !c.broken && s.transferring c)).filterMap (fun c => c.paths.find? (fun x => x.2.1 == d))
  { hit.foldl (fun t x => t.countAbsent x.1 d) s with
      ctxs := s.ctxs.map (fun c => if c.paths.any (fun x => x.2.1 == d) then { c with broken := true } else c) }

/-- The moves of the engine of a die that is reset (R319, R368): those in flight go back, and the requests are gone. -/
def State.clearEngine (s : State) (d : Nat) : State :=
  let s := (s.moves.filter (fun m => m.started && m.die.toNat == d)).foldl (fun t m =>
    match t.pages.find? (fun p => p.part == m.part && p.va == m.va) with
    | some p => t.undoMove m p
    | none => t) s
  { s with moves := s.moves.filter (fun m => m.die.toNat != d) }

/-- The vault of a compute die that left UP is lost (R319, R368): moves into it go back, pages whose copy it held are removed,
and its frames leave the vault tier. -/
def State.loseVault (s : State) (d : Nat) : State :=
  let inIt (a : Nat) : Bool := decide (vaultBase d ≤ a) && decide (a < vaultBase d + vaultBytes)
  let s := s.pages.foldl (fun t p =>
    if p.st != .empty && p.tier == .vault && !p.demand && inIt p.frame then t.removePage p
    else if p.st == .moving && p.dest == .vault && inIt p.toFrame then
      match t.moves.find? (fun m => m.part == p.part && m.va == p.va && m.started) with
      | some m => t.undoMove m p
      | none => t
    else t) s
  { s with frames := s.frames.filter (fun f => !inIt f.1) }

/-! The policy (R321, R322, R325, R329). -/

/-- Is a page leaving a tier downwards already? -/
def State.leaving (s : State) (p : Page) : Bool :=
  (p.st == .moving && p.dest != .vault && p.dest != p.tier)
  || s.moves.any (fun m => m.part == p.part && m.va == p.va && !m.started && m.kind == .demote)

/-- Was a wake-driven recall of a page queued for the WAKE its owner still has (R322)? -/
def State.wakeHeld (s : State) (p : Page) : Bool :=
  match s.findCtx p.owner with
  | some c => p.wakeQ == some c.wake && c.wake != BitVec.allOnes 64
  | none => false

/-- The page that R321 demotes next among those of a tier, if any: none in a held stack (R427), and while rank 1 has one, none that was
recalled for the WAKE that its owner still has (R322). -/
def State.candidate (s : State) (ps : List Page) : Option Page :=
  let all := ps.filter (fun p => p.pin == 0 && p.st != .moving && p.st != .empty && !p.demand && !s.leaving p && s.stackFree p.tier p.frame)
  let cs := if all.any (fun p => s.rank p == 1) then all.filter (fun p => !s.wakeHeld p) else all
  cs.foldl (fun b p => match b with
    | some q => if s.demoteKey p < s.demoteKey q then some p else b
    | none => some p) none

/-- DEMOTE (R321): while a reserve of a partition is short, counting what already leaves, the engine of a die queues the next
candidate one tier down. -/
def State.demote (s : State) (d : BitVec 2) (part : BitVec 6) (hbm : Bool) : State :=
  let mine := s.pages.filter (fun p => p.part == part)
  if hbm then
    let here := mine.filter (fun p => p.tier == .hbm && !p.demand)
    let out := ((here.filter s.leaving).map (fun p => p.span .hbm)).sum / 0x10000
    if (s.partField part 9).toNat ≤ s.freeHbm part + out then s
    else match s.candidate (here.filter (fun p => s.engineDie p == d)) with
      | some p => s.queueMove p 3 .pool .demote
      | none => s
  else
    let here := mine.filter (fun p => p.tier == .vault && p.st != .empty && homeOfPa p.frame == d.toNat)
    if (s.partField part 8).toNat ≤ (s.freeVault part d.toNat).length + (here.filter s.leaving).length then s
    else match s.candidate here with
      | some p => s.queueMove p 3 .hbm .demote
      | none => s

/-- The ticks of a page's recall to its target (R346). -/
def Page.recallTicks (p : Page) : Nat :=
  let k := p.bytes / 0x10000
  let far := Config.poolLatency p.group
  if p.demand then (if p.target == .vault then 60 else 80) * k
  else if p.kv then (if p.tier == .pool then 1250 + far else 160)
  else 1100 * k + far + (if p.target == .vault then 140 * k else 0)

/-- WAKE_RECALL_TRIGGER (R322): the recalls of a Parked or Swapped context are queued when the PTC comes near its WAKE. -/
def State.wakeRecall (s : State) (h : BitVec 32) : State :=
  match s.findCtx h with
  | none => s
  | some c =>
    let ps := s.pages.filter (fun p => p.owner == h && p.st == .out)
    let due := s.ptc.toNat + (s.partField c.part 7).toNat + (ps.map Page.recallTicks).sum
    if !(c.st == .parked || c.st == .swapped) || c.wake == BitVec.allOnes 64 || decide (due < c.wake.toNat) then s
    else ps.foldl (fun t p => (t.queueMove p 2 p.target .recall).updPage p.part p.va (fun q => { q with wakeQ := some c.wake })) s

/-- HOT_PAGE_PROMOTE (R325): the count of a page reached 64 in this window. -/
def State.hotPromote (s : State) (part : BitVec 6) (va : Nat) : State :=
  match s.pages.find? (fun p => p.part == part && p.va == va) with
  | none => s
  | some p =>
    match s.findCtx p.owner with
    | none => s
    | some c =>
      if p.size != 0 || p.kv || p.st != .resident || p.tier != .hbm || decide (p.heat < 64) || p.hot || !s.stackFree p.tier p.frame then s
      else if !(s.partField part 15).getLsbD 0 then s
      else if 1000000 ≤ (s.ptc - (s.dies[c.rundie.toFin]).window).toNat then s
      else if 0 < p.pin then (s.updPage part va (fun q => { q with hot := true })).countRes c.rundie 0 1
      else if (s.freeVault part c.rundie.toNat).length ≤ (s.partField part 8).toNat then s
      else (s.updPage part va (fun q => { q with hot := true })).queueMove p 3 .vault .promote

/-- HOT_WINDOW_EXPIRE (R325): a window of 1,000,000 ticks of a die's tracker ends, and its counts are zero again. -/
def State.hotExpire (s : State) (d : BitVec 2) : State :=
  let x := s.dies[d.toFin]
  if (s.ptc - x.window).toNat < 1000000 then s
  else
    let mine (p : Page) : Bool := match s.findCtx p.owner with | some c => c.rundie == d | none => false
    { s with dies := s.dies.set d.toNat { x with window := x.window + 1000000 } d.isLt,
             pages := s.pages.map (fun p => if mine p then { p with heat := 0, hot := false } else p) }

/-- The pages whose slab lies in a block, or is to. -/
def State.inBlock (s : State) (b : SlabBlock) : List Page :=
  s.pages.filter (fun p => p.kv && (p.runs .hbm).any (fun x => decide (b.pa ≤ x.1) && decide (x.1 < b.pa + 0x200000)))

/-- COMPACT (R329): the engine of a block's die moves the pages of a block that is at most a quarter full into other blocks, one at a time,
and returns an empty one to the free frames. -/
def State.compact (s : State) (d : BitVec 2) (pa : Nat) : State :=
  match s.blocks.find? (fun b => b.pa == pa) with
  | none => s
  | some b =>
    let ps := s.inBlock b
    let room := ((s.blocks.filter (fun x => x.part == b.part && x.cls == b.cls && x.pa != pa)).map (fun x => (s.freeSlabs x).length)).sum
    if homeOfPa pa != d.toNat || decide (slabsPerBlock b.cls < 4 * ps.length) || decide (room < ps.length) then s
    else if ps.isEmpty then { s with blocks := s.blocks.filter (fun x => x.pa != pa) }
    else if ps.any (fun p => s.moves.any (fun m => m.part == p.part && m.va == p.va && m.kind == .compact)) then s
    else match ps.find? (fun p => p.st == .out && s.stackFree p.tier p.frame) with
      | some p => { s with moves := s.moves ++
          [{ die := d, part := p.part, va := p.va, level := 3, dest := .hbm, kind := .compact, started := false,
             paths := [], broken := false, key := s.demoteKey p }] }
      | none => s

/-! Mapping and pinning (R339 to R343). -/

/-- What every instruction of R338 does first: the earlier accesses of the issuing context, on every core of its gang, have performed
at package scope. A write that waits for its stack holds the context (R426, R427). -/
def State.quiet (s : State) : Except Stop State :=
  match s.self with
  | some c =>
    if c.gang == 0 then s.settled
    else
      let ids := gangCores c.base c.gang
      match ids.findSome? (fun id => (s.focus id).writesHeld) with
      | some k => .error (.hold (.stack k) false)
      | none => .ok (ids.foldl (fun t id => t.onCore id State.settleWrites) s)
  | none => s.settled

/-- Every write that a core has accepted through some pages performs, before they go (R316, R340, R345); one that waits for its stack holds
the issuer (R426). -/
def State.flushPages (s : State) (ps : List Page) : Except Stop State :=
  let t := s.settleAll
  match (ps.filter (fun p => p.st == .resident)).findSome? (fun p => t.waitsAt p.frame p.bytes) with
  | some k => .error (.hold (.stack k) false)
  | none => .ok t

/-- The page of an address as the directory answers (R313, R315): a slice that cannot answer holds the context. -/
def State.lookup (s : State) (va : Word) : Except Stop (Option Page) :=
  if 2 ^ 57 ≤ va.toNat then .ok none
  else (s.askSlice s.core.part s.core.die va.toNat).map (fun _ => s.pageAt s.core.part va.toNat)

/-- The fields of a page descriptor word (R339). -/
def pdwKind (b : Word) : Nat := (b.extractLsb' 0 3).toNat
def pdwSize (b : Word) : Nat := (b.extractLsb' 14 2).toNat
def pdwPa (b : Word) : Nat := (b.extractLsb' 16 32).toNat * 65536
def pdwFrames (b : Word) : Nat := (b.extractLsb' 16 16).toNat

/-- A descriptor word or address that PGMAP refuses with status 3 (R339). -/
def pdwBad (a b : Word) : Bool :=
  let tgt := b.extractLsb' 6 2
  b.extractLsb' 48 16 != 0 || b.extractLsb' 11 3 != 0 || b.extractLsb' 3 3 != 0 || decide (1 < tgt.toNat)
    || decide (2 < pdwKind b) || (tgt == 1 && pdwSize b != 0) || a.toNat % pageBytes (pdwSize b) != 0
    || (pdwKind b == 1 && pdwPa b != 0)
    || (pdwKind b == 2 && (pdwSize b != 0 || b.extractLsb' 32 16 != 0 || pdwFrames b == 0 || decide (4096 < pdwFrames b)))

/-- Does a run of addresses overlap a page of a partition (R312), or a UALink window that it has or is about to have (R385)? -/
def State.overlaps (s : State) (part : BitVec 6) (va n : Nat) : Bool :=
  s.pages.any (fun p => p.part == part && decide (p.va < va + n) && decide (va < p.va + p.bytes))
  || (s.groups.toList.flatMap Group.windows).any (fun (x : Pers × Window) =>
      x.1 == .ual && x.2.part == part && decide (x.2.lbase < va + n) && decide (va < x.2.lbase + 0x20000000 * x.2.size))

/-- Would pages of 64 KiB, or a larger page, pass the limit of a slice (R314)? -/
def State.sliceFull (s : State) (size : Nat) (vas : List Nat) : Bool :=
  if size = 0 then (List.range 4).any (fun d =>
    let new := (vas.filter (fun a => homeOfVa a == d)).length
    decide (0 < new) && decide (1048576 < (s.pages.filter (fun p => p.size == 0 && homeOfVa p.va == d)).length + new))
  else decide (16384 ≤ (s.pages.filter (fun p => p.size != 0)).length)

/-- A new page of a partition: EMPTY, with no owner and no permission. -/
def Page.blank (part : BitVec 6) (va size : Nat) (now : Word) : Page :=
  { part := part, va := va, size := size, r := false, w := false, x := false, kv := false, owner := 0, tgtVault := false, pin := 0,
    st := .empty, tier := .vault, dest := .vault, frame := 0, toFrame := 0, group := 0, cells := [], demand := false, cls := 0,
    gone := .none, last := now, heat := 0, hot := false, wakeQ := none }

/-- The page that PGMAP maps (R339). -/
def pdwPage (part : BitVec 6) (a b : Word) (owner : BitVec 32) (now : Word) : Page :=
  let p := { Page.blank part a.toNat (pdwSize b) now with r := b.getLsbD 8, w := b.getLsbD 9, x := b.getLsbD 10, owner := owner,
                                                           tgtVault := b.getLsbD 6 }
  if pdwKind b = 0 then { p with st := .resident, tier := .hbm, dest := .hbm, frame := pdwPa b }
  else { p with st := .out, tier := .pool, dest := .pool, demand := true }

/-- The owner that a handle in a scalar names (R288, R339): 0 is none. -/
def State.pageOwner (s : State) (v : Word) : Except Stop (BitVec 32) := if v = 0 then .ok 0 else do
  let c ← s.target v
  pure c.handle

/-- PGMAP GRANT (R339): THREAD tiles of the issuer's die become frames of the vault tier. -/
def grantBody (d : SReg) (a : Word) (n : Nat) (s : State) : Except Stop State := do
  if vaultBytes < a.toNat + 0x10000 * n then .error (trapAt 6 a 0)
  s.requireOwner .vault a.toNat (0x10000 * n) .thread
  let s := (tilesOf a.toNat (0x10000 * n)).foldl (fun t x => t.setOwner .vault x .res) s
  pure ({ s with frames := s.frames ++ (List.range n).map (fun i => (vaultBase s.core.die + a.toNat + 0x10000 * i, s.core.part)) }.writeS d 0)

/-- PGMAP (R339). -/
def pgmapBody (d : SReg) (a b owner : Word) (s : State) : Except Stop State := do
  s.requireS
  let s ← s.quiet
  if pdwBad a b then pure (s.writeS d 3)
  else if pdwKind b = 2 then grantBody d a (pdwFrames b) s
  else do
    let n := pageBytes (pdwSize b)
    s.checkRun .virt none a.toNat n
    let h ← s.pageOwner owner
    let (lo, hi) := s.hbmRange s.core.part
    if pdwKind b = 0 && (decide (pdwPa b < lo) || decide (hi < pdwPa b + n)) then .error (trapAt 6 (BitVec.ofNat 64 (pdwPa b)) 0)
    let _ ← s.lookup a
    s.entryChange (pdwSize b) a.toNat
    if s.overlaps s.core.part a.toNat n then pure (s.writeS d 1)
    else if s.sliceFull (pdwSize b) [a.toNat] then pure (s.writeS d 2)
    else pure ({ s with pages := pdwPage s.core.part a b h s.ptc :: s.pages }.writeS d 0)

/-- PGUNMAP (R340): it waits for the writes through the page that a stack has still to take (R316, R426). -/
def pgunmapBody (d : SReg) (a : Word) (s : State) : Except Stop State := do
  s.requireS
  let s ← s.quiet
  match ← s.lookup a with
  | none => pure (s.writeS d 3)
  | some p =>
    if p.pin != 0 then pure (s.writeS d 1)
    else if p.kv then pure (s.writeS d 2)
    else do
    s.entryChange p.size p.va
    if p.st == .moving then pure ((s.updPage p.part p.va (fun p => { p with gone := .remove })).writeS d 0)
    else
      let s ← s.flushPages [p]
      let s := if p.st == .resident then s.snoop p.frame p.bytes else s
      pure ((s.removePage p).writeS d 0)

/-- The frames of PGUNMAP.grant, or the tile of the first that is not in the issuer's vault tier (R340). -/
def State.grantFrames (s : State) (a n : Nat) : Except Stop (List Nat) :=
  (List.range n).mapM (fun i =>
    let off := a + 0x10000 * i
    let pa := vaultBase s.core.die + off
    if decide (vaultBytes < off + 0x10000) || !s.frames.contains (pa, s.core.part) then
      .error (trapAt 7 (BitVec.ofNat 64 off) (BitVec.ofNat 64 ((s.ownerOf .vault off).code.toNat + 8 * Owner.res.code.toNat)))
    else .ok pa)

/-- PGUNMAP.grant (R340): unpinned pages are demoted at level 0, and when the frames are empty those without a pinned page go
back to THREAD. -/
def pgungrantBody (d : SReg) (a : Word) (n : Nat) (s : State) : Except Stop Fate := do
  s.requireS
  let s ← s.quiet
  let fs ← s.grantFrames a.toNat n
  let holds (f : Nat) (p : Page) : Bool := (p.runs .vault).any (fun x => x.1 == f)
  let free := fs.filter (fun f => !s.pages.any (fun p => holds f p && p.pin != 0))
  let ps := s.pages.filter (fun p => free.any (fun f => holds f p))
  if ps.isEmpty then
    let s := { s with frames := s.frames.filter (fun f => !free.contains f.1) }
    let s := (free.flatMap (fun f => tilesOf (f - vaultBase s.core.die) 0x10000)).foldl (fun t x => t.setOwner .vault x .thread) s
    pure (.done (s.writeS d (BitVec.ofNat 64 free.length)))
  else pure (.stay ((ps.filter (fun p => p.st == .resident)).foldl (fun t p => t.queueMove p 0 .hbm .demote) s))

/-- The page that PGPIN and PGUNPIN act on (R341): faults follow R315 without the permission check, with the INFO of a read (DESIGN CHOICE,
log 105). -/
def State.pinPage (s : State) (a : Word) : Except Stop Page := do
  s.checkRun .virt none a.toNat 1
  match ← s.lookup a with
  | none => .error (trapAt 8 a 1)
  | some p => do
    if p.st == .empty then .error (.trap { code := 8, faddr := a, info := 1, empty := true })
    s.entryChange p.size p.va
    pure p

/-- PGPIN (R341): a page that is away parks the context, its recall at level 0. -/
def pgpinBody (d : SReg) (a : Word) (s : State) : Except Stop State := do
  let s ← s.quiet
  let p ← s.pinPage a
  if p.st != .resident then .error (.park a.toNat)
  else if p.pin = 255 then pure (s.writeS d 2)
  else pure ((s.updPage p.part p.va (fun p => { p with pin := p.pin + 1 })).writeS d 0)

/-- PGUNPIN (R341). -/
def pgunpinBody (d : SReg) (a : Word) (s : State) : Except Stop State := do
  let s ← s.quiet
  let p ← s.pinPage a
  if p.pin = 0 then pure (s.writeS d 1)
  else pure ((s.updPage p.part p.va (fun p => { p with pin := p.pin - 1 })).writeS d 0)

/-- The tier of the field k of PGMOVE (R342). -/
def tierOf (k : Nat) : Tier :=
  match k with
  | 0 => .vault | 1 => .hbm | _ => .pool

def Tier.code : Tier → Nat
  | .vault => 0 | .hbm => 1 | .pool => 2

/-- Where a page is, or a move in flight takes it. -/
def Page.bound (p : Page) : Tier := if p.st == .moving then p.dest else p.tier

/-- PGMOVE (R342): the first status that applies in the order 4, 2, 3, 1. -/
def pgmoveBody (d : SReg) (a : Word) (k : Fin 3) (s : State) : Except Stop State := do
  let s ← s.quiet
  let t := tierOf k.val
  match ← s.lookup a with
  | none => pure (s.writeS d 4)
  | some p =>
    if p.st == .empty || (t == .vault && p.size != 0) || (t == .hbm && p.kv) then pure (s.writeS d 2)
    else if p.bound == t then pure (s.writeS d 3)
    else if p.pin != 0 then pure (s.writeS d 1)
    else pure ((s.queueMove p 1 t .move).writeS d 0)

/-- The query word of PGHINT, k = 4 (R343). -/
def Page.query (p : Page) : Word :=
  let cls := if p.kv && p.st == .out then p.cls else 0
  let st := match p.st with | .empty => 1 | .resident => 2 | .out => 3 | .moving => 4
  BitVec.ofNat 64 (p.owner.toNat * 2 ^ 24 + p.pin % 256 * 2 ^ 16 + homeOfVa p.va * 2 ^ 14 + cls % 4 * 2 ^ 12
    + (p.kv || p.tgtVault).toNat * 2 ^ 10 + p.size % 4 * 2 ^ 8 + p.kv.toNat * 2 ^ 7
    + (if p.st == .moving then p.dest.code else 0) * 2 ^ 5 + (if p.st == .empty then 0 else p.tier.code) * 2 ^ 3 + st)

/-- The counters of PGHINT, k = 5 (R343). -/
def State.resCounter (s : State) (k : Nat) : Word :=
  let d : BitVec 2 := BitVec.ofNat 2 s.core.die
  if h : k < 7 then s.dies[d.toFin].counters[k]
  else if k = 7 then BitVec.ofNat 64 (s.freeVault s.core.part s.core.die).length
  else if k = 8 then BitVec.ofNat 64 (s.blocks.filter (fun b => b.part == s.core.part && homeOfPa b.pa == s.core.die && (s.inBlock b).isEmpty)).length
  else 0

/-- The status of PGHINT, k = 0 to 3, on a page, and its effect (R343). -/
def State.hintPage (s : State) (p : Page) (k : Nat) : State × Word :=
  match k with
  | 0 => if p.kv then (s, 2) else (s.updPage p.part p.va (fun p => { p with tgtVault := false }), 0)
  | 1 => if p.size != 0 then (s, 2) else (s.updPage p.part p.va (fun p => { p with tgtVault := true }), 0)
  | 2 =>
    if p.st == .empty then (s, 2) else if p.bound == p.target then (s, 3) else if p.pin != 0 then (s, 1)
    else (s.recallPage p 1, 0)
  | _ =>
    if p.st == .empty then (s, 2) else if p.bound == .pool then (s, 3) else if p.pin != 0 then (s, 1)
    else if p.st == .moving then (s, 0)
    else (s.queueMove p 3 (if p.bound == .vault then .hbm else .pool) .demote, 0)

/-- PGHINT (R343). -/
def pghintBody (d : SReg) (a : Word) (k : Fin 6) (s : State) : Except Stop State := do
  let s ← s.quiet
  if k = 5 then pure (s.writeS d (s.resCounter (a.extractLsb' 0 4).toNat))
  else match ← s.lookup a with
    | none => pure (s.writeS d (if k = 4 then 3 else 4))
    | some p =>
      if k = 4 then pure (s.writeS d p.query)
      else do
        if k.val < 2 then s.entryChange p.size p.va
        let (s, v) := s.hintPage p k.val
        pure (s.writeS d v)

/-! KV regions (R326, R344, R345). -/

/-- The KV-descriptor fault (R354): code 22. -/
def kvFault (a : Word) : Stop := trapAt 22 a 0

/-- The pages of a new region (R326): EMPTY, with R and W. -/
def regionPages (part : BitVec 6) (owner : BitVec 32) (base n : Nat) (now : Word) : List Page :=
  (List.range n).map (fun i => { Page.blank part (base + 0x10000 * i) 0 now with r := true, w := true, kv := true, owner := owner, tgtVault := true })

/-- KVALLOC (R344). -/
def kvallocBody (d : SReg) (a b : Word) (s : State) : Except Stop State := do
  let s ← s.quiet
  let n := b.toNat
  if a.toNat % 0x10000 != 0 then .error (trapAt 4 a 0)
  if n = 0 || decide (65536 < n) then .error (trapAt 6 b 0)
  s.checkRun .virt none a.toNat (0x10000 * n)
  let ps := regionPages s.core.part (s.core.handle.getD 0) a.toNat n s.ptc
  let _ ← ps.mapM (fun p => s.lookup (BitVec.ofNat 64 p.va))
  if s.overlaps s.core.part a.toNat (0x10000 * n) then pure (s.writeS d 1)
  else if s.sliceFull 0 (ps.map (·.va)) then pure (s.writeS d 2)
  else
    let die := match s.self with | some c => c.rundie | none => 0
    pure ({ s with pages := ps ++ s.pages,
                   regions := { part := s.core.part, base := a.toNat, count := n, owner := s.core.handle.getD 0, die := die } :: s.regions }.writeS d 0)

/-- The region of the issuer's partition whose pages hold an address. -/
def State.regionAt (s : State) (a : Nat) : Option Region :=
  s.regions.find? (fun r => r.part == s.core.part && decide (r.base ≤ a) && decide (a < r.base + 0x10000 * r.count))

/-- Free one page of KVFREE (R345): EMPTY, or removed when the whole region goes; a page in flight when its move completes. -/
def State.freeKv (s : State) (whole : Bool) (p : Page) : State :=
  if p.st == .moving then s.updPage p.part p.va (fun p => { p with gone := if whole then .remove else .empty })
  else
    let s := if p.st == .resident then s.snoop p.frame p.bytes else s
    if whole then s.removePage p else if p.st == .empty then s else s.emptyPage p

/-- KVFREE (R345). -/
def kvfreeBody (unmap : Bool) (d : SReg) (a b : Word) (s : State) : Except Stop State := do
  let s ← s.quiet
  let open_ := match s.self with | some c => c.journal.isSome | none => false
  if open_ then .error (.trap { code := 23 })
  let _ ← s.lookup a
  match s.regionAt a.toNat with
  | none => .error (kvFault a)
  | some r => do
    s.entryChange 0 r.base
    let first := a.toNat / 0x10000 * 0x10000
    if some r.owner != s.core.handle || decide (r.base + 0x10000 * r.count < first + 0x10000 * b.toNat)
        || (unmap && (a.toNat != r.base || b.toNat != r.count)) then .error (kvFault a)
    else do
      let _ ← (List.range b.toNat).mapM (fun i => s.entryChange 0 (first + 0x10000 * i))
      let ps := s.pages.filter (fun p => p.part == s.core.part && decide (first ≤ p.va) && decide (p.va < first + 0x10000 * b.toNat))
      let s ← s.flushPages (ps.filter (fun p => p.pin == 0))
      let todo := ps.filter (fun p => p.pin == 0)
      let whole := unmap && todo.length == ps.length
      let n := (todo.filter (fun p => p.st != .empty && p.gone == .none)).length
      let s := todo.foldl (fun t p => t.freeKv whole p) s
      let s := if whole then { s with regions := s.regions.filter (fun x => !(x.part == r.part && x.base == r.base)) } else s
      pure (s.writeS d (BitVec.ofNat 64 n))

/-! Sequences (R330 to R333). -/

/-- The device reads a virtual run for the issuer, each part checked by R315. -/
def State.deviceRead (s : State) (va n : Nat) : Except Stop (List Byte) := do
  s.checkRun .virt none va n
  let parts ← s.resolve .read va n
  pure (parts.flatMap (fun (l, k) => s.bytesAt l k))

/-- The device's reads of some runs reach their homes (R321, R325). -/
def State.noteReads (s : State) (xs : List (Nat × Nat)) : State := xs.foldl (fun t (va, n) => t.noteRun .virt va n) s

/-- The bytes that a run of the device's writes replaces: the run is checked as a write alone. -/
def State.deviceOld (s : State) (va n : Nat) : Except Stop (List Byte) := do
  s.checkRun .virt none va n
  let parts ← s.resolve .write va n
  pure (parts.flatMap (fun (l, k) => s.bytesAt l k))

/-- A virtual run that the device will write is checked by R315. -/
def State.devicePlace (s : State) (va n : Nat) : Except Stop Unit := do
  s.checkRun .virt none va n
  let _ ← s.resolve .write va n

/-- The device writes a virtual run for the issuer. -/
def State.deviceWrite (s : State) (va : Nat) (bs : List Byte) : Except Stop State := do
  let parts ← s.resolve .write va bs.length
  let s := parts.foldl (fun t (l, k) => match l with | .mem pa => t.snoop pa k | _ => t) s
  pure ((s.storeParts parts bs).noteParts parts)

/-- A sequence descriptor (R330) at an address. -/
structure SeqDesc where
  addr : Nat
  len : Nat
  base : Nat
  maxp : Nat
  tlog : Nat
  plist : Nat
  vmap : Nat
deriving DecidableEq, Repr

/-- Tokens per page. -/
def SeqDesc.tpp (q : SeqDesc) : Nat := 2 ^ (16 - q.tlog)

/-- Pages that `n` tokens fill. -/
def SeqDesc.pagesFor (q : SeqDesc) (n : Nat) : Nat := (n + q.tpp - 1) / q.tpp

/-- Read and check a descriptor (R330, R332 pass 1). -/
def State.seqDesc (s : State) (a : Word) : Except Stop SeqDesc := do
  if a.toNat % 64 != 0 then .error (kvFault a)
  let bs ← s.deviceRead a.toNat 64
  let x (i : Nat) : Word := wordOfBytes ((bs.drop (8 * i)).take 8)
  let tlog := ((x 2).extractLsb' 0 16).toNat
  let maxp := ((x 2).extractLsb' 16 16).toNat
  let mine := s.regions.any (fun r => r.part == s.core.part && r.base == (x 1).toNat && some r.owner == s.core.handle)
  if (x 0).extractLsb' 32 32 != 0 || (x 2).extractLsb' 32 32 != 0 || x 5 != 0 || x 6 != 0 || x 7 != 0
      || decide (tlog < 4) || decide (16 < tlog) || maxp == 0 || (x 3).toNat % 4 != 0 || (x 4).toNat % 8 != 0 || !mine then .error (kvFault a)
  else pure { addr := a.toNat, len := ((x 0).extractLsb' 0 32).toNat, base := (x 1).toNat, maxp := maxp, tlog := tlog,
              plist := (x 3).toNat, vmap := (x 4).toNat }

/-- The dwords that hold the validity bits of positions `lo` to `hi - 1`. -/
def SeqDesc.vmapDwords (q : SeqDesc) (lo hi : Nat) : List Nat :=
  if hi ≤ lo then [] else (List.range ((hi - 1) / 64 - lo / 64 + 1)).map (fun i => q.vmap + 8 * (lo / 64 + i))

/-- The places that pass 2 may write for an entry that finds LEN = `len` (R332), and the journal bytes it may need (R335). -/
def State.appendCheck (s : State) (a : Word) (q : SeqDesc) (len add : Nat) : Except Stop Nat := do
  let (i, j) := (q.pagesFor len, q.pagesFor (len + add))
  if 2 ^ 32 ≤ len + add || decide (q.maxp < j) then .error (kvFault a)
  s.devicePlace q.addr 8
  if i < j then s.devicePlace (q.plist + 4 * i) (4 * (j - i))
  if q.vmap != 0 && add != 0 then s.devicePlace (q.vmap + len / 8) ((len + add - 1) / 8 + 1 - len / 8)
  pure ((if add = 0 then 0 else 32) + 48 * (j - i) + (if q.vmap = 0 then 0 else 32 * (q.vmapDwords len (len + add)).length))

/-- Pass 1 over the entries of a batch (R332): the descriptors with their ADD, and the journal bytes needed. `seen` holds the
descriptors read and the LEN that earlier entries leave. -/
def State.appendPass1 (s : State) : List (Word × Word) → List (SeqDesc × Nat) → Except Stop (List (SeqDesc × Nat) × Nat)
  | [], _ => .ok ([], 0)
  | (a, w) :: rest, seen => do
    let add := w.toNat
    let (q, len) ← match seen.find? (fun x => x.1.addr == a.toNat) with
      | some x => pure x
      | none => do
        let q ← s.seqDesc a
        pure (q, q.len)
    let n ← s.appendCheck a q len add
    let (out, m) ← s.appendPass1 rest ((q, len + add) :: seen)
    pure ((q, add) :: out, n + m)

/-- Room in the open journal for `n` more bytes of records, in pages that are there (R335, R336). -/
def State.journalRoom (s : State) (n : Nat) : Except Stop Unit :=
  match s.self.bind (·.journal) with
  | none => .ok ()
  | some j =>
    if n = 0 then .ok ()
    else if j.size < j.taken + n then .error (trapAt 24 (BitVec.ofNat 64 j.buf) 0)
    else do
      let _ ← s.place .write (j.buf + j.used) (n + 144 * j.reserved.length)

/-- Append a record of the issuer's open journal: type 2 a dword with its old value, type 3 a page (R335). -/
def State.journalRec (s : State) (type a : Nat) : Except Stop State :=
  match s.self with
  | none => .ok s
  | some c =>
    match c.journal with
    | none => .ok s
    | some j => do
      let old ← if type = 2 then s.deviceOld a 8 else pure []
      let (s, _) ← s.journalAppend c.handle j a type old
      pure s

/-- Record the dwords that a run of bytes lies in, then write it (R335). -/
def State.recordedWrite (s : State) (va : Nat) (bs : List Byte) : Except Stop State := do
  let n := (va + bs.length - 1) / 8 - va / 8 + 1
  let s ← (List.range n).foldlM (fun t i => t.journalRec 2 (8 * (va / 8 + i))) s
  s.deviceWrite va bs

/-- Take the lowest EMPTY page of a region and write its list entry (R332). A vault whose die is not UP, or that no path leads to, is an
absent endpoint (R12, R390; DEDUCED, log 94). -/
def State.takePage (s : State) (r : Region) (entry : Nat) : Except Stop State :=
  let empties := (List.range r.count).filterMap (fun i =>
    (s.pages.find? (fun p => p.part == r.part && p.va == r.base + 0x10000 * i && p.st == .empty)).map (fun p => (i, p)))
  match empties.head?, (s.freeVault r.part r.die.toNat).head? with
  | some (i, p), some f => do
    s.entryChange 0 p.va
    if !s.dieUp r.die.toNat || !s.pathUp s.core.die r.die.toNat then .error (trapAt 25 (BitVec.ofNat 64 p.va) (BitVec.ofNat 64 r.die.toNat))
    let s ← s.journalRec 3 p.va
    let s := { s.snoop f 0x10000 with mem := s.mem.clear f 0x10000, bad := healed s.bad f 0x10000 }
    let s := s.putPage { p with st := .resident, tier := .vault, dest := .vault, frame := f, last := s.ptc, heat := 0, hot := false, wakeQ := none }
    s.recordedWrite entry (bytesOfNat 4 (i + 1))
  | _, _ => .ok s

/-- Set validity bits `lo` to `hi - 1` (R332), dword by dword. -/
def State.setValid (s : State) (q : SeqDesc) (lo hi : Nat) : Except Stop State :=
  (q.vmapDwords lo hi).foldlM (fun t a => do
    let bits := (List.range 64).filter (fun i => decide (lo ≤ 8 * (a - q.vmap) + i) && decide (8 * (a - q.vmap) + i < hi))
    let (b0, b1) := (bits.headD 0 / 8, bits.getLastD 0 / 8)
    let old ← t.deviceOld (a + b0) (b1 - b0 + 1)
    let mask := (bits.map (fun i => 2 ^ (i - 8 * b0))).sum
    t.recordedWrite (a + b0) (bytesOfNat (b1 - b0 + 1) (natOfBytes old ||| mask))) s

/-- Pass 2 of KVAPPEND (R332): the entries served in order, with the reason it stopped. `lens` gives the LEN of descriptors
that earlier entries changed. -/
def State.appendPass2 : State → List (SeqDesc × Nat) → List (Nat × Nat) → Nat → Except Stop (State × Nat × Nat)
  | s, [], _, served => .ok (s, 0, served)
  | s, (q, add) :: rest, lens, served =>
    let len := (lens.lookup q.addr).getD q.len
    let (i, j) := (q.pagesFor len, q.pagesFor (len + add))
    match s.regions.find? (fun r => r.part == s.core.part && r.base == q.base) with
    | none => .ok (s, 2, served)
    | some r =>
      let empties := (s.pages.filter (fun p => p.part == r.part && p.st == .empty && decide (r.base ≤ p.va) && decide (p.va < r.base + 0x10000 * r.count))).length
      if (s.freeVault r.part r.die.toNat).length < j - i then .ok (s, 1, served)
      else if empties < j - i then .ok (s, 2, served)
      else do
        let s ← (List.range (j - i)).foldlM (fun t m => t.takePage r (q.plist + 4 * (i + m))) s
        let s ← if q.vmap = 0 then pure s else s.setValid q len (len + add)
        let s ← if add = 0 then pure s else s.recordedWrite q.addr (bytesOfNat 8 (len + add))
        s.appendPass2 rest ((q.addr, len + add) :: lens) (served + 1)

/-- KVAPPEND (R331, R332). -/
def kvappendBody (d : SReg) (a : Word) (s : State) : Except Stop State := do
  let s ← s.quiet
  if a.toNat % 64 != 0 then .error (kvFault a)
  let hd ← s.deviceRead a.toNat 16
  let h := wordOfBytes (hd.take 8)
  let n := (h.extractLsb' 0 16).toNat
  if h.extractLsb' 16 48 != 0 || wordOfBytes (hd.drop 8) != 0 || n == 0 || decide (256 < n) then .error (kvFault a)
  let bs ← s.deviceRead (a.toNat + 16) (16 * n)
  let es := (List.range n).map (fun k => (wordOfBytes ((bs.drop (16 * k)).take 8), wordOfBytes ((bs.drop (16 * k + 8)).take 8)))
  if es.any (fun x => x.2.extractLsb' 32 32 != 0) then .error (kvFault a)
  let (work, need) ← s.appendPass1 es []
  s.journalRoom need
  let s := s.noteReads ((a.toNat, 16) :: (a.toNat + 16, 16 * n) :: es.map (fun x => (x.1.toNat, 64)))
  let (s, why, served) ← s.appendPass2 work [] 0
  let s := if why = 0 then s else s.countRes (BitVec.ofNat 2 s.core.die) 6 1
  pure (s.writeS d (BitVec.ofNat 64 (why * 2 ^ 32 + served)))

/-- The address of a position of a sequence, by its list entry (R330). -/
def SeqDesc.posAddr (q : SeqDesc) (entry p : Nat) : Nat := q.base + 0x10000 * (entry - 1) + p % q.tpp * 2 ^ q.tlog

/-- The list entry of a position. -/
def State.listEntry (s : State) (q : SeqDesc) (p : Nat) : Except Stop Nat := do
  let bs ← s.deviceRead (q.plist + 4 * (p / q.tpp)) 4
  pure (natOfBytes bs)

/-- How many lines of KV pages that some runs lie in the journal has still to record (R335). -/
def State.newLines (s : State) (runs : List (Nat × Nat)) : Nat :=
  match s.self.bind (·.journal) with
  | none => 0
  | some j => (((runs.flatMap (fun x => (linesOf x.1 x.2).map (128 * ·))).dedup).filter (fun a => (s.kvLine j false a).isSome)).length

/-- KVINVAL (R333): the places, the records' room (code 24), then the page-list entries are checked, and nothing changes before. -/
def kvinvalBody (z : Bool) (d : SReg) (a b : Word) (s : State) : Except Stop State := do
  let s ← s.quiet
  let q ← s.seqDesc a
  if decide (q.maxp < q.pagesFor q.len) || q.vmap == 0 || b.toNat % 8 != 0 then .error (kvFault a)
  let nb := (q.len + 7) / 8
  let sel := natOfBytes (← s.deviceRead b.toNat nb)
  let v := natOfBytes (← s.deviceRead q.vmap nb)
  s.devicePlace q.vmap nb
  let ps := (List.range q.len).filter (fun p => sel.testBit p)
  let es ← if z then ps.mapM (fun p => s.listEntry q p) else pure []
  let at_ := ps.zip es
  let _ ← (at_.filter (fun x => x.2 != 0)).mapM (fun x => s.devicePlace (q.posAddr x.2 x.1) (2 ^ q.tlog))
  let hit := ps.filter (fun p => v.testBit p)
  s.journalRoom (32 * ((hit.map (· / 64)).dedup).length
    + 144 * s.newLines ((at_.filter (fun x => x.2 != 0 && hit.contains x.1)).map (fun x => (q.posAddr x.2 x.1, 2 ^ q.tlog))))
  if es.contains 0 then .error (kvFault a)
  let s := s.noteReads ((a.toNat, 64) :: (b.toNat, nb) :: (q.vmap, nb) :: (if z then ps.map (fun p => (q.plist + 4 * (p / q.tpp), 4)) else []))
  let s ← (q.vmapDwords 0 q.len).foldlM (fun t x => do
    let lo := 8 * (x - q.vmap)
    let mine := hit.filter (fun p => decide (lo ≤ p) && decide (p < lo + 64))
    if mine.isEmpty then pure t
    else do
      let t ← t.journalRec 2 x
      let k := min 8 (nb - lo / 8)
      let old := natOfBytes (← t.deviceRead x k)
      let t ← t.deviceWrite x (bytesOfNat k (old - (mine.map (fun p => 2 ^ (p - lo))).sum))
      (at_.filter (fun y => mine.contains y.1)).foldlM (fun t y => do
        let t ← t.journalRun (q.posAddr y.2 y.1) (2 ^ q.tlog)
        t.deviceWrite (q.posAddr y.2 y.1) (List.replicate (2 ^ q.tlog) 0)) t) s
  pure (s.writeS d (BitVec.ofNat 64 hit.length))

/-! The retake journal (R334 to R337). -/

/-- The journal-state fault (R354): code 23. -/
def journalFault : Stop := .trap { code := 23 }

/-- Set the journal of the issuing context. -/
def State.setJournal (s : State) (j : Option Journal) : State :=
  match s.core.handle with
  | none => s
  | some h => s.updCtx h (fun c => { c with journal := j })

/-- JBEGIN (R334). -/
def jbeginBody (a b : Word) (s : State) : Except Stop State := do
  let s ← s.quiet
  if a.toNat % 64 != 0 then .error (trapAt 4 a 0)
  if b.toNat % 64 != 0 || decide (b.toNat < 1024) || decide (2 ^ 32 < b.toNat) then .error (trapAt 6 b 0)
  s.checkRun .virt none a.toNat b.toNat
  if (s.self.bind (·.journal)).isSome then .error journalFault
  let ps ← (cut a.toNat b.toNat).mapM (fun x => s.lookup (BitVec.ofNat 64 x.1))
  if ps.any (fun x => match x with | some p => p.kv | none => true) then .error (kvFault a)
  else pure (s.setJournal (some { buf := a.toNat, size := b.toNat, used := 0, recs := [], lines := [], reserved := [] }))

/-- JCOMMIT (R337). -/
def jcommitBody (d : SReg) (s : State) : Except Stop State := do
  let s ← s.quiet
  match s.self.bind (·.journal) with
  | none => .error journalFault
  | some j => .ok ((s.setJournal none).writeS d (BitVec.ofNat 64 j.used))

/-- The address that a record of the buffer holds (R336). -/
def State.recordAddr (s : State) (buf : Nat) (r : Nat × Nat) : Except Stop Nat := do
  pure (natOfBytes (← s.deviceRead (buf + r.1) 8))

/-- Replay one record (R337): its bytes are read from the buffer. A page becomes EMPTY as by KVFREE. -/
def State.replay (s : State) (buf : Nat) (r : Nat × Nat) : Except Stop State := do
  let a ← s.recordAddr buf r
  let s := s.noteReads [(buf + r.1, 16 + (if r.2 = 1 then 128 else if r.2 = 2 then 16 else 0))]
  match r.2 with
  | 1 => s.deviceWrite a (← s.deviceRead (buf + r.1 + 16) 128)
  | 2 => s.deviceWrite a (← s.deviceRead (buf + r.1 + 16) 8)
  | _ => match ← s.lookup (BitVec.ofNat 64 a) with
    | some p => pure ((← s.flushPages [p]).freeKv false p)
    | none => pure s

/-- Is a page that a record names in flight (R318)? -/
def State.recordMoving (s : State) (buf : Nat) (r : Nat × Nat) : Except Stop Bool := do
  if r.2 != 3 then pure false
  else
    let a ← s.recordAddr buf r
    pure (match s.pageAt s.core.part a with | some p => p.st == .moving | none => false)

/-- JREWIND (R337): the records from the last to the first, then the journal closes. It waits for outstanding SCLDs, as END
does, and while a page that it will make EMPTY is in flight (R318). -/
def jrewindBody (d : SReg) (s : State) : Except Stop Fate := do
  let s ← s.quiet
  match s.self.bind (·.journal) with
  | none => .error journalFault
  | some j =>
    let moving ← j.recs.mapM (s.recordMoving j.buf)
    if moving.any id || !s.img.late.isEmpty then pure (.stay s)
    else
      let s ← j.recs.foldlM (fun t r => t.replay j.buf r) s
      pure (.done ((s.setJournal none).writeS d (BitVec.ofNat 64 j.recs.length)))

/-! Meanings. -/

/-- PGMAP (R339). -/
def execPgmap (g : Guard) (d a b c : SReg) (s : State) : Out :=
  perform unitSQ g 8 (fun s => pgmapBody d (s.readS a) (s.readS b) (s.readS c) s) s

/-- PGMAP, literal form. -/
def execPgmapLit (g : Guard) (d a : SReg) (lit : BitVec 32) (c : SReg) (s : State) : Out :=
  perform unitSQ g 12 (fun s => pgmapBody d (s.readS a) (zextLit lit) (s.readS c) s) s

/-- PGUNMAP (R340). -/
def execPgunmap (g : Guard) (d a : SReg) (s : State) : Out :=
  perform unitSQ g 8 (fun s => pgunmapBody d (s.readS a) s) s

/-- PGUNMAP.grant (R340). -/
def execPgunmapGrant (g : Guard) (d a b : SReg) (s : State) : Out :=
  runFate unitSQ g 8 (fun s => pgungrantBody d (s.readS a) (s.readS b).toNat s) s

/-- PGUNMAP.grant, literal form. -/
def execPgunmapGrantLit (g : Guard) (d a : SReg) (lit : BitVec 32) (s : State) : Out :=
  runFate unitSQ g 12 (fun s => pgungrantBody d (s.readS a) lit.toNat s) s

/-- PGPIN (R341). -/
def execPgpin (g : Guard) (d a : SReg) (s : State) : Out :=
  perform unitSQ g 8 (fun s => pgpinBody d (s.readS a) s) s

/-- PGUNPIN (R341). -/
def execPgunpin (g : Guard) (d a : SReg) (s : State) : Out :=
  perform unitSQ g 8 (fun s => pgunpinBody d (s.readS a) s) s

/-- PGMOVE (R342). -/
def execPgmove (g : Guard) (d a : SReg) (c : Fin 3) (s : State) : Out :=
  perform unitSQ g 8 (fun s => pgmoveBody d (s.readS a) c s) s

/-- PGHINT (R343). -/
def execPghint (g : Guard) (d a : SReg) (c : Fin 6) (s : State) : Out :=
  perform unitSQ g 8 (fun s => pghintBody d (s.readS a) c s) s

/-- KVALLOC (R344). -/
def execKvalloc (g : Guard) (d a b : SReg) (s : State) : Out :=
  perform unitSQ g 8 (fun s => kvallocBody d (s.readS a) (s.readS b) s) s

/-- KVALLOC, literal form. -/
def execKvallocLit (g : Guard) (d a : SReg) (lit : BitVec 32) (s : State) : Out :=
  perform unitSQ g 12 (fun s => kvallocBody d (s.readS a) (zextLit lit) s) s

/-- KVFREE (R345). -/
def execKvfree (g : Guard) (unmap : Bool) (d a b : SReg) (s : State) : Out :=
  perform unitSQ g 8 (fun s => kvfreeBody unmap d (s.readS a) (s.readS b) s) s

/-- KVFREE, literal form. -/
def execKvfreeLit (g : Guard) (unmap : Bool) (d a : SReg) (lit : BitVec 32) (s : State) : Out :=
  perform unitSQ g 12 (fun s => kvfreeBody unmap d (s.readS a) (zextLit lit) s) s

/-- KVAPPEND (R332). -/
def execKvappend (g : Guard) (_cl : BitVec 4) (d a : SReg) (s : State) : Out :=
  perform unitSQ g 8 (fun s => kvappendBody d (s.readS a) s) s

/-- KVINVAL (R333). -/
def execKvinval (g : Guard) (_cl : BitVec 4) (z : Bool) (d a b : SReg) (s : State) : Out :=
  perform unitSQ g 8 (fun s => kvinvalBody z d (s.readS a) (s.readS b) s) s

/-- KVINVAL, literal form. -/
def execKvinvalLit (g : Guard) (_cl : BitVec 4) (z : Bool) (d a : SReg) (lit : BitVec 32) (s : State) : Out :=
  perform unitSQ g 12 (fun s => kvinvalBody z d (s.readS a) (zextLit lit) s) s

/-- JBEGIN (R334). -/
def execJbegin (g : Guard) (a b : SReg) (s : State) : Out :=
  perform unitSQ g 8 (fun s => jbeginBody (s.readS a) (s.readS b) s) s

/-- JBEGIN, literal form. -/
def execJbeginLit (g : Guard) (a : SReg) (lit : BitVec 32) (s : State) : Out :=
  perform unitSQ g 12 (fun s => jbeginBody (s.readS a) (zextLit lit) s) s

/-- JCOMMIT (R337). -/
def execJcommit (g : Guard) (d : SReg) (s : State) : Out :=
  perform unitSQ g 8 (fun s => jcommitBody d s) s

/-- JREWIND (R337). -/
def execJrewind (g : Guard) (d : SReg) (s : State) : Out :=
  runFate unitSQ g 8 (fun s => jrewindBody d s) s

/-- MOVE_START (R320). -/
def execMoveStart (d : BitVec 2) (s : State) : Out :=
  .next (s.moveStart d)

/-- MOVE_COMPLETE (R319). -/
def execMoveComplete (part : BitVec 6) (va : Nat) (s : State) : Out :=
  .next (s.moveComplete part va)

/-- DEMOTE (R321). -/
def execDemote (d : BitVec 2) (part : BitVec 6) (hbm : Bool) (s : State) : Out :=
  .next (s.demote d part hbm)

/-- WAKE_RECALL_TRIGGER (R322). -/
def execWakeRecallTrigger (h : BitVec 32) (s : State) : Out :=
  .next (s.wakeRecall h)

/-- HOT_PAGE_PROMOTE (R325). -/
def execHotPagePromote (part : BitVec 6) (va : Nat) (s : State) : Out :=
  .next (s.hotPromote part va)

/-- HOT_WINDOW_EXPIRE (R325). -/
def execHotWindowExpire (d : BitVec 2) (s : State) : Out :=
  .next (s.hotExpire d)

/-- COMPACT (R329). -/
def execCompact (d : BitVec 2) (pa : Nat) (s : State) : Out :=
  .next (s.compact d pa)

end Sys2Proof.Machine
end

