-- ==== Sys2Proof/Machine/MemStack.lean ====
section
/-!
DEFINITION. Memory stacks (chapter 19): the address map, refresh of the pseudo-channels, thermal hold, and MEMHINT and
MEMSTAT. Which accesses are at a bank when a refresh comes due, and how long one takes, is timing, and the refresh events carry what
they find there (DESIGN CHOICE, log 44); a read or atomic that comes to a bank which a refresh occupies waits there (Mem.lean).
-/

namespace Sys2Proof.Machine

open Sys2Proof

/-! Stacks, pseudo-channels and bank groups (R416). -/

/-- The bank group of a bank. -/
def bankGroup (bank : Nat) : Nat := bank / 4

/-- A stack. -/
def State.stackAt (s : State) (k : Nat) : Stack := s.hbmStacks[k % 8]'(Nat.mod_lt _ (by decide))

/-- Change a stack. -/
def State.putStack (s : State) (k : Nat) (x : Stack) : State := { s with hbmStacks := s.hbmStacks.set (k % 8) x (Nat.mod_lt _ (by decide)) }

/-- A pseudo-channel; one that is not listed is as its controller's ready bit left it (R425). -/
def State.pcAt (s : State) (k pc : Nat) : PseudoChannel :=
  (s.pcs.find? (fun x => x.stack == k && x.pc == pc)).getD
    { stack := k, pc := pc, next := (s.stackAt k).resume, owed := [], allbank := false, allbankOn := false, abSince := 0, abHeld := [],
      running := [], performed := 0, postponed := 0, forced := 0 }

/-- Replace a pseudo-channel. -/
def State.putPc (s : State) (x : PseudoChannel) : State :=
  { s with pcs := x :: s.pcs.filter (fun y => !(y.stack == x.stack && y.pc == x.pc)) }

/-- The latency-critical groups of a pseudo-channel (R424). -/
def State.criticalGroups (s : State) (k pc : Nat) : List Nat :=
  ((s.marks.filter (fun m => m.stack == k && m.pc == pc)).map (·.group)).dedup

/-! Refresh (R419 to R421). -/

/-- Start a refresh of a bank in a cycle: reads that wait there already wait for it from its first cycle. -/
def PseudoChannel.start (x : PseudoChannel) (now bank : Nat) (payback : Bool) (queued : Nat) (held : List (BitVec 32 × Nat)) : PseudoChannel :=
  { x with running := { bank := bank, payback := payback, queued := queued, waiting := false, since := now, held := held.map (fun y => (y.1, 0)) }
             :: x.running.filter (·.bank != bank),
           performed := x.performed + 1 }

/-- Does a refresh occupy a bank, or wait for the access in progress there? -/
def PseudoChannel.occupied (x : PseudoChannel) (bank : Nat) : Bool := x.running.any (·.bank == bank)

/-- What a due refresh of a bank does (R420, R421): `progress` says that an access is in progress at the bank, and `busy` that
one is in progress or queued there. -/
def PseudoChannel.due (x : PseudoChannel) (now : Nat) (critical progress busy : Bool) : PseudoChannel :=
  let b := x.next % 32
  let x := { x with next := x.next + 1 }
  if x.allbank then x
  else if x.occupied b then { x with running := x.running.map (fun r => if r.bank = b then { r with queued := r.queued + 1 } else r) }
  else if critical && (busy || progress) then
    if x.owed.length < 8 then { x with owed := x.owed ++ [b], postponed := x.postponed + 1 }
    else { x with allbank := true, forced := x.forced + 1 }
  else if progress then { x with running := { bank := b, payback := false, queued := 0, waiting := true, since := 0, held := [] } :: x.running }
  else x.start now b false 0 []

/-- Core cycles since a controller became ready (R419). -/
def State.cycles (s : State) (k : Nat) : Nat := s.cycle - (s.stackAt k).readyAt

/-- REFRESH_DUE (R419, R420): per-bank refresh n comes due at cycle 152n; in self-refresh it is not scheduled (R421). -/
def State.refreshDue (s : State) (k pc : Nat) (progress busy : Bool) : State :=
  let x := s.pcAt k pc
  if !s.controllerReady k || decide (s.cycles k < 152 * x.next) || decide (96 ≤ pc) then s
  else if (s.stackAt k).sr != .normal then s.putPc { x with next := x.next + 1 }
  else s.putPc (x.due s.cycle ((s.criticalGroups k pc).contains (bankGroup (x.next % 32))) progress busy)

/-- PER_BANK_REFRESH_START (R420): the access in progress at the bank has ended. -/
def State.refreshStart (s : State) (k pc bank : Nat) : State :=
  let x := s.pcAt k pc
  match x.running.find? (fun r => r.bank == bank && r.waiting) with
  | some r => s.putPc (x.start s.cycle bank false r.queued r.held)
  | none => s

/-- REFRESH_END (R419, R420): a refresh ends after 188 cycles; one queued behind it starts at once. -/
def State.refreshEnd (s : State) (k pc bank : Nat) : State :=
  let x := s.pcAt k pc
  match x.running.find? (fun r => r.bank == bank && !r.waiting) with
  | some r =>
    if s.cycle < r.since + 188 then s
    else if 0 < r.queued then s.putPc (x.start s.cycle bank false (r.queued - 1) r.held)
    else s.putPc { x with running := x.running.filter (·.bank != bank) }
  | none => s

/-- PAYBACK_START (R420): the lowest owed bank whose group has no request; `idle` marks the groups that have none. -/
def State.paybackStart (s : State) (k pc : Nat) (idle : BitVec 8) : State :=
  let x := s.pcAt k pc
  if x.allbank || (s.stackAt k).sr != .normal || x.running.any (·.payback) then s
  else match (x.owed.filter (fun b => idle.getLsbD (bankGroup b) && !x.occupied b)).min? with
    | some b => s.putPc ({ x with owed := x.owed.erase b }.start s.cycle b true 0 [])
    | none => s

/-- ALLBANK_START (R419): a forced all-bank refresh starts once the accesses at its banks and every other refresh have ended; one that
waits for its access starts and ends first (R420). Reads that came since it fell due wait for it (R431). A hold that has just begun lets
it run (R421). -/
def State.allbankStart (s : State) (k pc : Nat) : State :=
  let x := s.pcAt k pc
  if x.allbank && !x.allbankOn && x.running.isEmpty then s.putPc { x with allbankOn := true, abSince := s.cycle } else s

/-- ALLBANK_END (R419, R421): it ends after 438 cycles. -/
def State.allbankEnd (s : State) (k pc : Nat) : State :=
  let x := s.pcAt k pc
  if x.allbankOn && decide (x.abSince + 438 ≤ s.cycle) then s.putPc { x with allbank := false, allbankOn := false, abHeld := [], owed := [] }
  else s

/-! Thermal hold (R426, R427). -/

/-- The contexts whose image lies in a stack (R427, R435; DESIGN CHOICE, log 43). -/
def State.imagesIn (s : State) (k : Nat) : List (BitVec 32) :=
  (s.ctxs.filter (·.imageIn k)).map Ctx.handle

/-- Change the pseudo-channels of a stack. -/
def State.mapPcs (s : State) (k : Nat) (f : PseudoChannel → PseudoChannel) : State :=
  { s with pcs := s.pcs.map (fun y => if y.stack = k then f y else y) }

/-- The controller stops issuing (R421, R426): refreshes that have not begun are not scheduled. -/
def PseudoChannel.stop (x : PseudoChannel) : PseudoChannel :=
  { x with running := (x.running.filter (fun r => !r.waiting)).map (fun r => { r with queued := 0 }) }

/-- CRITICAL_TEMP_ASSERT (R426): the controller goes towards self-refresh, and contexts whose image lies there are held. -/
def State.criticalAssert (s : State) (k : Nat) : State :=
  let x := s.stackAt k
  let s := s.putStack k { x with critical := true, sr := match x.sr with | .normal => .entering | .leaving => .held | r => r }
  if x.sr == .normal then (s.imagesIn k).foldl (fun t h => t.holdOn h (.stack k)) (s.mapPcs k PseudoChannel.stop) else s

/-- SELFREF_ENTER (R426): the accesses and the refreshes that run have completed, a forced all-bank refresh among them (R421). -/
def State.selfrefEnter (s : State) (k : Nat) : State :=
  let x := s.stackAt k
  if x.sr == .entering && (s.pcs.filter (fun y => y.stack == k)).all (fun y => y.running.isEmpty && !y.allbank) then
    s.putStack k { x with sr := .held }
  else s

/-- CRITICAL_TEMP_DEASSERT (R426). -/
def State.criticalDeassert (s : State) (k : Nat) : State :=
  let x := s.stackAt k
  if x.critical then s.putStack k { x with critical := false, deassertedAt := s.ptc } else s

/-- SELFREF_EXIT_START (R426): the signal has stayed deasserted for 10,000,000 ticks. -/
def State.selfrefExit (s : State) (k : Nat) : State :=
  let x := s.stackAt k
  if x.sr == .held && !x.critical && decide (10000000 ≤ (s.ptc - x.deassertedAt).toNat) then
    s.putStack k { x with sr := .leaving, leftAt := s.cycle } else s

/-- A stack serves again: everything held for it goes on (R426, R427). -/
def State.releaseStack (s : State) (k : Nat) : State := (s.releaseHolds (.stack k)).releaseReqs (· == .stack k)

/-- EXIT_COMPLETE (R421, R426, R427): 4,000 cycles after it began; the debt is gone, the rotation resumes at the next bank due, and
everything held for the stack goes on. -/
def State.exitComplete (s : State) (k : Nat) : State :=
  let x := s.stackAt k
  if x.sr != .leaving || decide (s.cycle < x.leftAt + 4000) then s
  else
    let n := (s.cycles k + 151) / 152
    let s := (s.putStack k { x with sr := .normal, resume := n }).mapPcs k (fun y => { y with next := max y.next n, owed := [] })
    s.releaseStack k

/-- The ready bit of a stack's controller sets (R419, R425, R428): its counts start again from zero, and what waited for it goes on. -/
def State.controllerUp (s : State) (k : Nat) : State :=
  let x := s.stackAt k
  let s := { s.putStack k { x with readyAt := s.cycle, resume := 0, mscHits := 0, mscLines := 0, mscHeld := 0 } with
               pcs := s.pcs.filter (fun y => y.stack != k), ready := s.ready ||| (1#64 <<< (8 + k)) }
  if x.sr == .normal then s.releaseStack k else s

/-! MEMHINT and MEMSTAT (R423 to R425). -/

/-- The HBM4E address that MEMHINT and MEMSTAT act on: R315 without the permission check, and none for a page that is not
RESIDENT in HBM4E (R423). A controller that is not ready answers nothing: the context is held (R428). -/
def State.hbmTarget (s : State) (a : Word) : Except Stop (Option Nat) := do
  s.checkRun .virt none a.toNat 1
  if (s.windowAt s.core.part a.toNat).isSome then pure none
  else match ← s.lookup a with
    | none => .error (trapAt 8 a 1)
    | some p =>
      if p.st == .empty then .error (.trap { code := 8, faddr := a, info := 1, empty := true })
      else if p.st != .resident || p.tier != .hbm then pure none
      else
        let pa := p.frame + (a.toNat - p.va)
        let h := homeOfPa pa
        if !(s.dieUp h && s.pathUp s.core.die h) then .error (trapAt 25 a (BitVec.ofNat 64 h))
        else if !s.controllerReady (pa / 2 ^ 36 % 8) then .error (.hold (.stack (pa / 2 ^ 36 % 8)) false)
        else pure (some pa)

/-- MEMHINT (R424). -/
def memhintBody (crit : Bool) (d : SReg) (a : Word) (s : State) : Except Stop State := do
  match ← s.hbmTarget a with
  | none => pure (s.writeS d 1)
  | some pa =>
    let (k, pc, g) := (stackOf pa, channelOf pa, bankGroup (bankOf pa))
    let m : Mark := { part := s.core.part, stack := k, pc := pc, group := g }
    let now := s.criticalGroups k pc
    if !crit then pure ({ s with marks := s.marks.filter (· != m) }.writeS d 0)
    else if !now.contains g && decide (2 ≤ now.length) then pure (s.writeS d 2)
    else pure ({ s with marks := if s.marks.contains m then s.marks else m :: s.marks }.writeS d 0)

/-- What the MSC of a stack did since it was last read (R418; DESIGN CHOICE, log 6): L2 evicted lines to it, and hits removed some of
the lines it held. -/
def Stack.mscGoOn (x : Stack) (lines hits : Nat) : Stack :=
  let h := min hits (x.mscHeld + lines)
  { x with mscLines := x.mscLines + BitVec.ofNat 64 lines, mscHits := x.mscHits + BitVec.ofNat 64 h, mscHeld := x.mscHeld + lines - h }

/-- The values of MEMSTAT (R425). The temperature is the stack's own (DESIGN CHOICE, log 1). A pseudo-channel stays in ALLBANK until the
forced refresh ends (R421). -/
def State.memstat (s : State) (pa k : Nat) : State × Word :=
  let st := stackOf pa
  let x := s.stackAt st
  let y := s.pcAt st (channelOf pa)
  let msc := x.mscGoOn (Config.freeCount s.fresh).toNat (Config.freeWord s.fresh).toNat
  match k with
  | 0 => (s, BitVec.ofNat 64 ((x.sr != .normal && !y.allbank).toNat * 2 ^ 13 + y.allbank.toNat * 2 ^ 12 + y.owed.length % 16 * 2 ^ 8
      + ((s.criticalGroups st y.pc).map (fun g => 2 ^ g)).sum % 256))
  | 1 => (s, y.performed)
  | 2 => (s, y.postponed)
  | 3 => (s, y.forced)
  | 4 => (s.putStack st msc, msc.mscHits)
  | 5 => (s.putStack st msc, msc.mscLines)
  | _ =>
    let r := match x.sr with | .normal => 0 | .leaving => 2 | _ => 1
    (s, BitVec.ofNat 64 ((Config.freeByte s.fresh st).toNat * 256 + r))

/-- MEMSTAT (R425). -/
def memstatBody (d : SReg) (a : Word) (k : Fin 7) (s : State) : Except Stop State := do
  match ← s.hbmTarget a with
  | none => pure (s.writeS d (BitVec.allOnes 64))
  | some pa =>
    let (s, v) := s.memstat pa k.val
    pure (s.writeS d v)

/-! Meanings. -/

/-- MEMHINT (R424). -/
def execMemhint (g : Guard) (crit : Bool) (d a : SReg) (s : State) : Out :=
  perform unitSQ g 8 (fun s => memhintBody crit d (s.readS a) s) s

/-- MEMSTAT (R425). -/
def execMemstat (g : Guard) (d a : SReg) (c : Fin 7) (s : State) : Out :=
  perform unitSQ g 8 (fun s => memstatBody d (s.readS a) c s) s

/-- REFRESH_DUE (R420). -/
def execRefreshDue (st : BitVec 3) (pc : Nat) (progress : Bool) (busy : Bool) (s : State) : Out :=
  .next (s.refreshDue st.toNat pc progress busy)

/-- REFRESH_END (R419). -/
def execRefreshEnd (st : BitVec 3) (pc : Nat) (bank : BitVec 5) (s : State) : Out :=
  .next (s.refreshEnd st.toNat pc bank.toNat)

/-- PER_BANK_REFRESH_START (R420). -/
def execPerBankRefreshStart (st : BitVec 3) (pc : Nat) (bank : BitVec 5) (s : State) : Out :=
  .next (s.refreshStart st.toNat pc bank.toNat)

/-- PAYBACK_START (R420). -/
def execPaybackStart (st : BitVec 3) (pc : Nat) (idle : BitVec 8) (s : State) : Out :=
  .next (s.paybackStart st.toNat pc idle)

/-- ALLBANK_START (R419). -/
def execAllbankStart (st : BitVec 3) (pc : Nat) (s : State) : Out :=
  .next (s.allbankStart st.toNat pc)

/-- ALLBANK_END (R421). -/
def execAllbankEnd (st : BitVec 3) (pc : Nat) (s : State) : Out :=
  .next (s.allbankEnd st.toNat pc)

/-- CRITICAL_TEMP_ASSERT (R426). -/
def execCriticalTempAssert (st : BitVec 3) (s : State) : Out :=
  .next (s.criticalAssert st.toNat)

/-- SELFREF_ENTER (R426). -/
def execSelfrefEnter (st : BitVec 3) (s : State) : Out :=
  .next (s.selfrefEnter st.toNat)

/-- CRITICAL_TEMP_DEASSERT (R426). -/
def execCriticalTempDeassert (st : BitVec 3) (s : State) : Out :=
  .next (s.criticalDeassert st.toNat)

/-- SELFREF_EXIT_START (R426). -/
def execSelfrefExitStart (st : BitVec 3) (s : State) : Out :=
  .next (s.selfrefExit st.toNat)

/-- EXIT_COMPLETE (R426). -/
def execExitComplete (st : BitVec 3) (s : State) : Out :=
  .next (s.exitComplete st.toNat)

end Sys2Proof.Machine
end

