-- ==== Sys2Proof/Machine/Slate.lean ====
section
/-!
DEFINITION. The Slate engine (chapter 18): generations and their commit records, the cut, restore, the error watch, and the
instructions of OP 0x3A. The slots and records that cuts have written are data beside the package, each at its address in a pool or a pod
(R404, R405); a record that none has written holds zeros (PRESUMED, log 45).
-/

namespace Sys2Proof.Machine

open Sys2Proof

/-! Commit records (R407). -/

/-- One bit of the CRC-32 of R407, over the register reflected (PRESUMED, log 45). -/
def crcBit (c : Nat) : Nat := if c % 2 = 1 then (c / 2) ^^^ 0xEDB88320 else c / 2

/-- One byte of the CRC-32. -/
def crcByte (c : Nat) (b : Byte) : Nat := (List.range 8).foldl (fun x _ => crcBit x) (c ^^^ b.toNat)

/-- The CRC-32 of R407. -/
def crc32 (bs : List Byte) : Nat := bs.foldl crcByte 0xFFFFFFFF ^^^ 0xFFFFFFFF

/-- The bytes of a commit record (R407). -/
def commitBytes (gen ptc z enroll pkg : Word) : List Byte :=
  let body := [gen, ptc, z, enroll, pkg].flatMap (fun x => bytesOfNat 8 x.toNat) ++ List.replicate 20 0
  body ++ bytesOfNat 4 (crc32 body)

/-- Dword `i` of a record. -/
def recWord (r : List Byte) (i : Nat) : Word := wordOfBytes ((r.drop (8 * i)).take 8)

/-- Is a record valid (R407)? -/
def recValid (r : List Byte) : Bool := r.length == 64 && recWord r 0 != 0 && natOfBytes (r.drop 60) == crc32 (r.take 60)

/-- The slot size of the configuration (R405). -/
def State.slateZ (s : State) : Word := BitVec.ofNat 64 (s.slateSlotSize s.slate.cfg[4])

/-- GEN of the newest valid record of the target that TARGET names, reached or not, or 0 (R413, R414). -/
def State.newestGen (s : State) : Word :=
  match s.descTarget with
  | .error _ => 0
  | .ok t => ((List.finRange 2).map (s.slate.recordAt t s.slateZ)).foldl
      (fun g r => if recValid r && decide (g.toNat < (recWord r 0).toNat) then recWord r 0 else g) 0

/-! The cut (R408 to R410). -/

/-- What a reset of a die or island does to the engine (R410): a cut fails with cause 4, and a restore ends. -/
def State.slateReset (s : State) : State := (s.failCut 4).endRestore 2

/-- A target that is no longer reached through an ACTIVE group (R410, R411): a cut fails with cause 3, in DRAINED at the record write; a
restore ends. -/
def State.targetUpdate (s : State) : State :=
  match s.slate.tgt with
  | none => s
  | some t => if s.targetUp t then s else if s.slate.st == .restoring then s.endRestore 2 else s.failCut 3

/-- STOP_TIMEOUT (R408): a context that has reached no boundary for 1,000,000 ticks is stopped as for pre-emption. -/
def State.stopTimeout (s : State) (h : BitVec 32) : State :=
  match s.findCtx h with
  | none => s
  | some c =>
    if s.slate.st == .stopping && s.slateStops c.part && c.st == .running && decide (1000000 ≤ (s.ptc - s.slate.cutAt).toNat) then
      s.leave h else s

/-- The areas of a slot that hold bytes (R405): where each lies in the package, its length and its slot offset. -/
def State.slateAreas (s : State) (e : Word) : List (Nat × Nat × Nat) :=
  ((enrolled e).foldl (fun (x : Nat × List (Nat × Nat × Nat)) p =>
    let (lo, hi) := s.hbmRange p
    (x.1 + (hi - lo), x.2 ++ [(lo, hi - lo, x.1)])) (0, [])).2 ++ [(vaultBase 0, gib, s.enrolledBytes e)]

/-- Does a physical address lie in what a generation holds: an enrolled HBM4E range, or a vault (R405)? -/
def State.inGeneration (s : State) (e : Word) (pa : Nat) : Bool :=
  (s.slateAreas e).any (fun a => decide (a.1 ≤ pa) && decide (pa < a.1 + a.2.1))

/-- Where the context area of a slot begins (R405). -/
def State.contextArea (s : State) (e : Word) : Nat := s.enrolledBytes e + gib

/-- The content of a generation at the cut point (R405, R409): the bytes of its areas, with a record for each context. -/
def State.snapshot (s : State) : Snapshot :=
  let e := s.slate.cfg[4]
  let on (p : BitVec 6) : Bool := e.getLsbD p.toNat
  let cs := (s.ctxs.filter (fun c => c.st != .free && on c.part)).map (fun c => { c with members := s.loadedMembers c })
  let bytes := (s.slateAreas e).flatMap (fun a => (s.mem.window a.1 a.2.1).map (fun c => (a.2.2 + c.1, c.2)))
  { enroll := e, mem := cs.foldl (fun (m : Memory) (c : Ctx) => m.place (s.contextArea e + c.recordAt) recordLen c.recordCells) bytes,
    vaultOwner := s.vaultOwner, ctxs := cs, pages := s.pages.filter (fun p => on p.part),
    regions := s.regions.filter (fun r => on r.part), blocks := s.blocks.filter (fun b => on b.part),
    frames := s.frames.filter (fun f => on f.2) }

/-- The 2 MiB units of the enrolled ranges that a cut copies to a slot (R406): the dirty ones; `none` is all of them, as where the slot
holds no generation (R409). -/
def State.dirtyUnits (s : State) (e : Word) (k : Fin 2) : Option (List Nat) :=
  if s.slate.allDirty.getLsbD k.val || (s.slate.tgt.bind (fun t => s.slate.slotAt t s.slate.z k)).isNone then none
  else some ((s.slate.dirty.filter (fun d => d.2.getLsbD k.val && decide (0x200000 * d.1 < hbmTop) && s.inGeneration e (0x200000 * d.1))).map (·.1))

/-- Does an uncorrectable error stand in what a cut copies (R410): a dirty unit, a vault, an image in a slot? -/
def State.sourceBad (s : State) (e : Word) (units : Option (List Nat)) : Bool :=
  s.bad.any (fun u =>
    if u.1 = 0 then
      let i := u.2 / (regBytes / 32)
      let k := s.coreAt (BitVec.ofNat 10 (i / 2))
      (match k.held[i % 2]'(Nat.mod_lt _ (by decide)) with
        | some h => (match s.findCtx h with | some c => e.getLsbD c.part.toNat | none => false)
        | none => false)
    else s.inGeneration e (32 * u.2) && (decide (hbmTop ≤ 32 * u.2) || (match units with | none => true | some us => us.contains (32 * u.2 / 0x200000))))

/-- Do the stacks let the engines' copies go on (R427)? The Slate region lies in all eight. -/
def State.slateCopies (s : State) : Bool := (List.range 8).all (fun k => s.stackServes (2 ^ 36 * k))

/-- Does a write that was accepted before the stop wait for its stack (R408, R426)? -/
def State.postedLeft (s : State) (e : Word) : Bool :=
  s.heldReqs.any (fun r => match r.2 with | .posted _ _ pa _ _ => s.inGeneration e pa | _ => false)

/-- STOP_DONE (R408, R410): no enrolled context runs, no move of an enrolled page is in flight and every write has performed, so this is
the cut point. -/
def State.stopDone (s : State) : State :=
  let e := s.slate.cfg[4]
  if s.slate.st != .stopping || s.ctxs.any (fun c => c.st == .running && e.getLsbD c.part.toNat)
      || s.moves.any (fun m => m.started && e.getLsbD m.part.toNat) || s.postedLeft e then s
  else
    let s := s.settleAll
    let k := slotOf s.slate.gen
    let units := s.dirtyUnits e k
    let t := s.updSlate (fun x => { x with
      st := .copying, cutPtc := s.ptc, staging := some s.snapshot, copied := units,
      allDirty := x.allDirty &&& ~~~(1#2 <<< k.val),
      dirty := (x.dirty.map (fun d => (d.1, d.2 &&& ~~~(1#2 <<< k.val)))).filter (fun d => d.2 != 0) })
    if s.sourceBad e units then t.failCut 2 else t

/-- COPY_DONE (R410): once the stacks have let the copy end (R427), work resumes and the drain begins; SLSTAT has the cut's bytes and ticks
(R413). -/
def State.copyDone (s : State) : State :=
  if s.slate.st != .copying || !s.slateCopies then s
  else (s.updSlate (fun x => { x.mark x.gen (fun y => (true, y.2)) with
    st := .draining, ticks := s.ptc - x.startedAt, bytes := BitVec.ofNat 64 s.stagingBytes })).resumeWork

/-- Commit the generation (R407, R410): the record is written last. A target that does not take it makes the cut fail with cause 3. -/
def State.commitCut (s : State) : State :=
  let x := s.slate
  let k := slotOf x.gen
  match x.tgt.filter s.targetUp with
  | none => (s.dropCut 3).cutStart
  | some t =>
    let e := match x.slotAt t x.z k with | some y => y.enroll | none => x.cfg[4]
    let pkg : Word := if s.podv then s.podid &&& 0x3FF else 0xFFFF
    let r := commitBytes x.gen x.cutPtc x.z e pkg
    (s.updSlate (fun x => { (x.putRecord t x.z k r).mark x.gen (fun y => (y.1, true)) with
      st := .idle, gen := 0, failed := false, staging := none, copied := none, tgt := none })).cutStart

/-- A slot once the staging copy has been written to it (R405, R406): the HBM4E units that were not copied stay as the slot held them. -/
def State.drainInto (s : State) (old : Option Snapshot) (new : Snapshot) (units : Option (List Nat)) : Snapshot :=
  match units, old with
  | none, _ => new
  | some us, old =>
    let fresh (off : Nat) : Bool := (s.slateAreas new.enroll).all (fun a =>
      !(decide (a.2.2 ≤ off) && decide (off < a.2.2 + a.2.1)) || decide (hbmTop ≤ a.1) || us.contains ((a.1 + (off - a.2.2)) / 0x200000))
    { new with mem := (new.mem.filter (fun (c : Host.Cell) => fresh c.1)).foldl (fun (m : Memory) (c : Host.Cell) => m.write c.1 c.2)
                        (match old with | some y => y.mem.filter (fun (c : Host.Cell) => !fresh c.1) | none => []) }

/-- DRAIN_DONE (R410, R427): the slot is whole; the record follows now or at SLCOMMIT. -/
def State.drainDone (s : State) : State :=
  if s.slate.st != .draining || !s.slateCopies then s
  else
    let k := slotOf s.slate.gen
    let s := s.updSlate (fun x => match x.tgt, x.staging with
      | some t, some y => x.putSlot t x.z k (s.drainInto (x.slotAt t x.z k) y x.copied)
      | _, _ => x)
    if s.slate.man then s.updSlate (fun x => { x with st := .drained }) else s.commitCut

/-! Restore (R411, R414). -/

/-- May a generation be restored from a target (R411, step 1)? -/
def State.restoreOk (s : State) (t : CutTarget) (g : Word) : Bool :=
  let e := s.slate.cfg[4]
  let r := s.slate.recordAt t s.slateZ (slotOf g)
  s.slateReady && g != 0 && recValid r && recWord r 0 == g && recWord r 3 == e && recWord r 2 == s.slateZ
    && s.ctxs.all (fun c => c.st == .free || !e.getLsbD c.part.toNat)

/-- The context area of a slot, from its beginning. -/
def State.slotContexts (s : State) (y : Snapshot) : Memory := y.mem.window (s.contextArea y.enroll) (9 * gib)

/-- A context as restore recreates it (R411): Frozen, to return to its state at the cut. -/
def Ctx.thawing (c : Ctx) : Ctx :=
  { c with st := .frozen, ret := if c.st == .frozen then c.ret else c.st, holds := [.restore], loc := .vault, imgDie := c.rundie, moving := false }

/-- The memory once a slot's areas are written back (R411). -/
def State.writeAreas (s : State) (y : Snapshot) : Memory :=
  (s.slateAreas y.enroll).foldl (fun (m : Memory) a =>
    m.place a.1 a.2.1 ((y.mem.filter (fun (c : Host.Cell) => decide (a.2.2 ≤ c.1))).map (fun c => (c.1 - a.2.2, c.2)))) s.mem

/-- A core keeps no line and, of an enrolled partition, no translation of what restore writes. -/
def Core.forgetRestored (c : Core) (inGen : Nat → Bool) (on : BitVec 6 → Bool) : Core :=
  let c := { c with l1 := c.l1.filter (fun x => !inGen (128 * x.line)) }
  if on c.part then { c with tlb := [], cpt := Vector.replicate 8 none, npt := Vector.replicate 8 none } else c

/-- RESTORE_DONE (R411, R427): once the stacks serve, the areas are written back, the contexts recreated from their records and their hold taken
off; the slots of the target that it read, and of no other, hold what the dirty bits say (R409); the queues of enrolled partitions stay disabled.
-/
def State.restoreDone (s : State) : State :=
  if s.slate.st != .restoring || !s.slateCopies then s
  else
    let k := slotOf s.slate.restoring
    let slot : Option Snapshot := s.slate.tgt.bind (fun t => s.slate.slotAt t s.slate.z k)
    match slot with
    | none => s.endRestore 2
    | some y =>
      let on (p : BitVec 6) : Bool := y.enroll.getLsbD p.toNat
      let inGen (pa : Nat) : Bool := s.inGeneration y.enroll pa
      let new := y.ctxs.map (fun c => (c.ofRecord (s.slotContexts y)).thawing)
      let s := { s with
        mem := s.writeAreas y, bad := s.bad.filter (fun u => u.1 == 0 || !inGen (32 * u.2)),
        core := s.core.forgetRestored inGen on, others := s.others.map (fun (c : Core) => c.forgetRestored inGen on),
        vaultOwner := y.vaultOwner,
        ctxs := new ++ s.ctxs.filter (fun (c : Ctx) => (c.st == CtxState.free || !on c.part) && !new.any (fun d => d.edie == c.edie && d.index == c.index)),
        pages := y.pages ++ s.pages.filter (fun (p : Page) => !on p.part),
        regions := y.regions ++ s.regions.filter (fun (r : Region) => !on r.part),
        blocks := y.blocks ++ s.blocks.filter (fun (b : SlabBlock) => !on b.part),
        frames := y.frames ++ s.frames.filter (fun (f : Nat × BitVec 6) => !on f.2),
        moves := s.moves.filter (fun (m : Move) => !on m.part),
        queues := s.queues.map (fun (q : Nat × HostQueue) => if on q.2.part then (q.1, { q.2 with en := false }) else q) }
      let s := s.updSlate (fun x => { x with allDirty := 1#2 <<< (1 - k.val), dirty := [], tgt := none,
                                             home := x.tgt.map (fun t => (t.pod, t.base, x.z)) })
      let s := y.ctxs.foldl (fun t c => match c.faultVa with | some va => t.recall c.part va 0 | none => t) s
      (s.releaseHolds .restore).endRestore 0

/-! The error watch (R403). -/

/-- An uncorrectable error appears in a 32-byte unit of a store (R417): an instruction that consumes it will fault (R354). -/
def State.spoil (s : State) (u : Nat × Nat) : State := { s with bad := u :: s.bad }

/-- WATCH_WINDOW_EXPIRE (R403). -/
def State.watchExpire (s : State) : State :=
  let win := if s.slate.cfg[3] = 0 then 1000000000 else s.slate.cfg[3].toNat
  if (s.ptc - s.slate.winAt).toNat < win then s
  else s.updSlate (fun x => { x with counters := Vector.replicate 3 0, winAt := x.winAt + BitVec.ofNat 64 win })

/-! The instructions (R412 to R414). -/

/-- Level S in partition 0 (R412). -/
def State.requireS0 (s : State) : Except Stop Unit := if s.levelS && s.core.part == 0 then .ok () else .error privilege

/-- SLCUT (R413): an enrolled issuer is stopped behind it. -/
def slcutBody (m : Bool) (d : SReg) (s : State) : Except Stop Fate := do
  s.requireS0
  if s.slate.st == .restoring then pure (.done (s.writeS d 3))
  else if s.slate.cutting then pure (.done (s.writeS d 1))
  else if !s.cutReady then pure (.done (s.writeS d 2))
  else
    let t := ((((← s.settled).writeS d 0).retire 8).startCut m s.ptc)
    match t.core.handle with
    | some h => if t.slateStops t.core.part then pure (.left (t.leave h)) else pure (.left t)
    | none => pure (.left t)

/-- What SLWAIT writes for a cut (R413): its generation when it left COPYING, or was committed. -/
def Slate.waitResult (x : Slate) (ended : Bool) (g : Word) : Word :=
  match x.outcomes.find? (fun y => y.1 == g) with
  | some y => if (if ended then y.2.2 else y.2.1) then g else 0
  | none => 0

/-- SLWAIT (R413). -/
def slwaitBody (d : SReg) (k : Fin 2) (s : State) : Except Stop Fate := do
  s.requireS0
  let x := s.slate
  let busy (g : Word) : Bool := x.cutting && x.gen == g && (k == 1 || x.st == .stopping || x.st == .copying)
  match s.core.m.wait with
  | some (.slate g) => if busy g then pure (.stay s) else pure (.done (s.writeS d (x.waitResult (k == 1) g)))
  | _ =>
    if !x.cutting then pure (.done (s.writeS d (if x.failed then 0 else x.lastGen)))
    else if busy x.gen then pure (.stay (s.setWait (some (.slate x.gen))))
    else pure (.done (s.writeS d (x.waitResult (k == 1) x.gen)))

/-- SLCOMMIT (R413). A record that the target does not take makes the cut fail; sD is 0 then too (DEDUCED, log 85). -/
def slcommitBody (d : SReg) (b : Word) (s : State) : Except Stop State := do
  s.requireS0
  if s.slate.st == .drained && s.slate.gen == b then pure (s.commitCut.writeS d 0) else pure (s.writeS d 2)

/-- SLRESTORE (R414): it waits until the restore ends. -/
def slrestoreBody (d : SReg) (b : Word) (s : State) : Except Stop Fate := do
  s.requireS0
  match s.core.m.wait with
  | some .restore =>
    if s.slate.st == .restoring then pure (.stay s) else pure (.done (s.writeS d (BitVec.ofNat 64 (s.slate.restored.getD 2))))
  | _ =>
    if s.slate.st != .idle then pure (.done (s.writeS d 1))
    else
      let g := if b = 0 then s.newestGen else b
      match s.readTarget with
      | .error _ => pure (.done (s.writeS d 2))
      | .ok t =>
        if !s.restoreOk t g then pure (.done (s.writeS d 2))
        else pure (.stay ((s.updSlate (fun x =>
          { x with st := .restoring, restoring := g, restored := none, tgt := some t, z := s.slateZ })).setWait (some .restore)))

/-- The state codes of SLSTAT (R413). -/
def SlateState.code : SlateState → Nat
  | .idle => 0 | .stopping => 1 | .copying => 2 | .draining => 3 | .drained => 4 | .restoring => 5

/-- The values of SLSTAT (R413). -/
def State.slstat (s : State) (k : BitVec 3) : Word :=
  let x := s.slate
  match k.toNat with
  | 0 => BitVec.ofNat 64 (x.cause.toNat * 256 + x.pend.toNat * 16 + x.failed.toNat * 8 + x.st.code)
  | 1 => s.newestGen
  | 2 => x.gen
  | 3 => if x.st == .copying then s.copiedSoFar else x.bytes
  | 4 => x.ticks
  | 5 => x.counters[0]
  | 6 => x.counters[1]
  | _ => x.counters[2]

/-- The bits of a configuration field that may be set (R402). -/
def cfgMask (k : Fin 7) : Word :=
  match k.val with
  | 0 | 1 | 2 => 0xFFFFFFFF
  | 5 => ~~~0x3F#64
  | 6 => 3
  | _ => BitVec.allOnes 64

/-- ERRWATCH (R413); a change of ENROLL makes every unit dirty, so that no slot is taken to hold a range it does not (PRESUMED, log 45). -/
def errwatchBody (d : SReg) (b : Word) (k : Fin 7) (s : State) : Except Stop State := do
  s.requireS0
  if b &&& ~~~cfgMask k != 0 then .error (trapAt 6 b 0)
  if s.slate.st != .idle && (k == 4 || k == 5) then .error (trapAt 6 b 0)
  let old := s.slate.cfg[k]
  let s := s.updSlate (fun x => { x with cfg := x.cfg.set k.val b k.isLt, allDirty := if k = 4 && old != b then 3 else x.allDirty })
  pure (s.writeS d old)

/-! Meanings. -/

/-- SLCUT (R413). -/
def execSlcut (g : Guard) (m : Bool) (d : SReg) (s : State) : Out :=
  runFate unitSQ g 8 (fun s => slcutBody m d s) s

/-- SLWAIT (R413). -/
def execSlwait (g : Guard) (d : SReg) (c : Fin 2) (s : State) : Out :=
  runFate unitSQ g 8 (fun s => slwaitBody d c s) s

/-- SLCOMMIT (R413). -/
def execSlcommit (g : Guard) (d b : SReg) (s : State) : Out :=
  perform unitSQ g 8 (fun s => slcommitBody d (s.readS b) s) s

/-- SLCOMMIT, literal form. -/
def execSlcommitLit (g : Guard) (d : SReg) (lit : BitVec 32) (s : State) : Out :=
  perform unitSQ g 12 (fun s => slcommitBody d (zextLit lit) s) s

/-- SLRESTORE (R414). -/
def execSlrestore (g : Guard) (d b : SReg) (s : State) : Out :=
  runFate unitSQ g 8 (fun s => slrestoreBody d (s.readS b) s) s

/-- SLRESTORE, literal form. -/
def execSlrestoreLit (g : Guard) (d : SReg) (lit : BitVec 32) (s : State) : Out :=
  runFate unitSQ g 12 (fun s => slrestoreBody d (zextLit lit) s) s

/-- SLSTAT (R413). -/
def execSlstat (g : Guard) (d : SReg) (c : BitVec 3) (s : State) : Out :=
  performPure g 8 (fun s => s.writeS d (s.slstat c)) s

/-- ERRWATCH (R413). -/
def execErrwatch (g : Guard) (d b : SReg) (c : Fin 7) (s : State) : Out :=
  perform unitSQ g 8 (fun s => errwatchBody d (s.readS b) c s) s

/-- ERRWATCH, literal form. -/
def execErrwatchLit (g : Guard) (d : SReg) (lit : BitVec 32) (c : Fin 7) (s : State) : Out :=
  perform unitSQ g 12 (fun s => errwatchBody d (zextLit lit) c s) s

/-- ERROR_CORRECTED (R403), or with a unit the error that no code corrects (R417). -/
def execErrorCorrected (k : Fin 3) (grp : BitVec 4) (u : Option (Nat × Nat)) (s : State) : Out :=
  .next (match u with | some u => s.spoil u | none => s.errorCorrected k grp)

/-- WATCH_WINDOW_EXPIRE (R403). -/
def execWatchWindowExpire (s : State) : Out :=
  .next (s.watchExpire)

/-- CUT_START (R403, R408): the cut that PEND asks for starts, if it has not started with the end of the one before. -/
def execCutStart (s : State) : Out :=
  .next (s.cutStart)

/-- STOP_TIMEOUT (R408). -/
def execStopTimeout (h : BitVec 32) (s : State) : Out :=
  .next (s.stopTimeout h)

/-- STOP_DONE (R410). -/
def execStopDone (s : State) : Out :=
  .next (s.stopDone)

/-- COPY_DONE (R410). -/
def execCopyDone (s : State) : Out :=
  .next (s.copyDone)

/-- DRAIN_DONE (R410). -/
def execDrainDone (s : State) : Out :=
  .next (s.drainDone)

/-- CUT_FAILURE (R410): a data error in a source, the target unreachable, or a data error in staging. -/
def execCutFailure (cause : Fin 3) (s : State) : Out :=
  .next (s.failCut (match cause.val with | 0 => 2 | 1 => 3 | _ => 5))

/-- RESTORE_DONE (R411). -/
def execRestoreDone (s : State) : Out :=
  .next (s.restoreDone)

/-- RESTORE_FAILURE (R414). -/
def execRestoreFailure (s : State) : Out :=
  .next (s.endRestore 2)

end Sys2Proof.Machine
end

