-- ==== Sys2Proof/Machine/Link.lean ====
section
/-!
DEFINITION. Links, personality groups and pods (chapter 17): the instructions of OP 0x39, the sequence of a recast group,
and the package number and time of a pod. What another package holds or answers is
free (DESIGN CHOICE, log 20).
-/

namespace Sys2Proof.Machine

open Sys2Proof

/-! Groups (R394). -/

/-- Change every member of every context, on a core or off it. -/
def State.mapMembers (s : State) (f : Member → Member) : State :=
  let on (c : Core) : Core := { c with m := f c.m }
  { s with core := on s.core, others := s.others.map on, ctxs := s.ctxs.map (fun c => { c with members := c.members.map f }) }

/-- The recast of a group has ended: a RECAST that waits for it has its result (R397). -/
def Member.endRecast (g out : Nat) (m : Member) : Member :=
  match m.wait with
  | some (.recast g' none) => if g' = g then { m with wait := some (.recast g (some out)) } else m
  | _ => m

/-- The same of every member. -/
def State.endRecast (s : State) (g out : Nat) : State := s.mapMembers (Member.endRecast g out)

/-- Is some UALink group ACTIVE (R387)? -/
def State.ualActive (s : State) : Bool := s.groups.toList.any (fun g => g.pers == .ual && g.st == .active)

/-- PODV after a group changed (R387): clear when no UALink group is ACTIVE, set by the master when one is. -/
def State.podUpdate (s : State) : State :=
  if !s.ualActive then { s with podv := false, podSlow := false }
  else if s.podid.getLsbD 17 && s.podid.getLsbD 16 then { s with podv := true }
  else s

/-- Change a group, and what follows from its state elsewhere. -/
def State.setGroup (s : State) (g : Nat) (x : Group) : State := (s.putGroup g x).podUpdate.targetUpdate

/-- Change the standing of the requests that wait for a group: each by its partition, address and standing. -/
def State.mapLinks (s : State) (g : Nat) (f : BitVec 6 → Nat → LinkReq → LinkReq) : State :=
  let on (c : Core) : Core := match c.link with
    | some (g', va, q) => if g' = g then { c with link := some (g', va, f c.part va q) } else c
    | none => c
  { s with core := on s.core, others := s.others.map on }

/-- The requests of cores that wait for a group. -/
def State.linksOf (s : State) (g : Nat) : List LinkReq :=
  (s.core :: s.others).filterMap (fun c => match c.link with
    | some (g', _, q) => if g' = g then some q else none
    | none => none)

/-- A held request, or at a reset also one in flight, gets "endpoint absent" (R394). -/
def LinkReq.lose (all : Bool) (q : LinkReq) : LinkReq :=
  match q with
  | .held _ => .absent none
  | .flight r v => if all then .absent none else .flight r v
  | q => q

/-- The path of a request that is on its way or held at the island: its intermediate island, where it has one (R12). -/
def LinkReq.path (q : LinkReq) : Option (Option Nat) :=
  match q with
  | .flight _ v | .held v => some v
  | _ => none

/-- Is a request to a group still in flight: of a core, or a residency move through its pool (R395)? -/
def State.inFlight (s : State) (g : Nat) : Bool :=
  (s.linksOf g).any (fun q => match q with | .flight _ _ => true | _ => false)
  || s.moves.any (fun (m : Move) => m.started && (match s.pageAt m.part m.va with
      | some p => p.group == g && (p.tier == .pool || m.dest == .pool)
      | none => false))

/-- The requests from outside that waited for a group go on (R394): they are checked again. -/
def State.releaseGroup (s : State) (g : Nat) : State := s.releaseReqs (· == .group g)

/-- GROUP_DRAIN_DONE (R394). -/
def State.drained (s : State) (g : Nat) : State :=
  let x := s.group g
  if x.st == .drain && !s.inFlight g then s.setGroup g { x with st := .retarget } else s

/-- GROUP_DRAIN_TIMEOUT (R394): the reads in flight end with the link-abort fault, and are counted. -/
def State.drainTimeout (s : State) (g : Nat) : State :=
  let x := s.group g
  if x.st == .drain && decide (x.tmo.toNat ≤ (s.ptc - x.since).toNat) then
    let read (q : LinkReq) : Bool := match q with | .flight r _ => r | _ => false
    let n := ((s.linksOf g).filter read).length
    (s.putGroup g { x with counters := x.counters.set 0 (x.counters[0] + BitVec.ofNat 64 n) }).mapLinks g
      (fun _ _ q => if read q then .aborted else q)
  else s

/-- GROUP_RETARGETED (R394): the window has changed; Off goes DOWN. -/
def State.retargeted (s : State) (g : Nat) : State :=
  let x := s.group g
  if x.st != .retarget then s
  else
    let y := { x with pers := x.next, win := x.nextWin, ue := x.nextUe, act := x.next != Pers.off }
    if x.next == .off then (((s.setGroup g { y with st := .down }).endRecast g 0).mapLinks g (fun _ _ q => q.lose false)).releaseGroup g
    else s.setGroup g { y with st := .train }

/-- GROUP_TRAINED (R394): ACTIVE, its counters zero (R398); held requests are checked against the new window. -/
def State.trained (s : State) (g : Nat) : State :=
  let x := s.group g
  if x.st != .train then s
  else
    let s := (s.setGroup g { x with st := .active, counters := Vector.replicate 5 0 }).endRecast g 0
    (s.mapLinks g (fun part va q => if s.windowAt part va == x.win.map (fun y => (g, y)) && x.pers == .ual then q else q.lose false)).releaseGroup g

/-- GROUP_TRAIN_FAILED (R394). -/
def State.trainFailed (s : State) (g : Nat) : State :=
  let x := s.group g
  if x.st != .train then s
  else (((s.setGroup g { x with st := .failed, act := false }).endRecast g 3).mapLinks g (fun _ _ q => q.lose false)).releaseGroup g

/-- GROUP_REQUEST (R394, R390): a request from outside the cores. One that is served or held changes nothing here; a group that
is DOWN or FAILED answers "endpoint absent", and a posted write is counted as poisoned. -/
def State.groupRequest (s : State) (g : Nat) (write : Bool) : State :=
  match s.groupSt g with
  | .down | .failed => if write then s.countPoison (dieOfGroup g) g else s.countAbsent (dieOfGroup g) (dieOfGroup g)
  | _ => s

/-- The moves in flight through the pool of a group do not finish (R319, R390); "endpoint absent" is counted for each (R398). -/
def State.breakGroup (s : State) (g : Nat) : State :=
  let hit (m : Move) : Bool := match s.pageAt m.part m.va with
    | some p => m.started && !m.broken && p.group == g && ((p.tier == .pool && !p.demand) || p.dest == .pool)
    | none => false
  { (s.moves.filter hit).foldl (fun (t : State) m => t.countAbsent m.die.toNat (dieOfGroup g)) s with
      moves := s.moves.map (fun (m : Move) => if hit m then { m with broken := true } else m) }

/-- A group as a reset of its island leaves it (R394): DOWN, with no active window. -/
def Group.lost (x : Group) : Group := { x with st := .down, act := false }

/-- A reset of a group's island (R394, R392): the group goes DOWN and its requests get "endpoint absent"; a RECAST that was going on has the
result 5 (R397). -/
def State.groupReset (s : State) (g : Nat) : State :=
  let s := if (s.group g).busy then s.endRecast g 5 else s
  (((s.setGroup g (s.group g).lost).mapLinks g (fun _ _ q => q.lose true)).breakGroup g).releaseGroup g

/-- The request of a core whose path is lost, by the path (R12, R391): the die it leaves, the die it reaches and its intermediate island. -/
def Core.lostPath (c : Core) (lost : Nat × Nat × Option Nat → Bool) : Option (Nat × Nat × Option Nat) :=
  match c.link with
  | some (g, _, q) => (q.path.map (fun v => (c.die, dieOfGroup g, v))).filter lost
  | none => none

/-- The requests in flight or held whose path is lost get "endpoint absent" from the first island on it that is up, which counts it (R12,
R391, R398). -/
def State.losePaths (s : State) (lost : Nat × Nat × Option Nat → Bool) : State :=
  let at_ (x : Nat × Nat × Option Nat) : Nat := s.firstUp x.1 x.2.1 x.2.2
  let on (c : Core) : Core := match c.link, c.lostPath lost with
    | some (g, va, _), some x => { c with link := some (g, va, .absent (some (at_ x))) }
    | _, _ => c
  let t := (s.allCores.filterMap (fun (c : Core) => c.lostPath lost)).foldl (fun (t : State) x => t.countIsland (at_ x)) s
  { t with core := on s.core, others := s.others.map on }.breakPaths lost

/-- A request of the core to an island that no path reaches gets "endpoint absent" from its own die's interface (R390, R392). -/
def State.requirePath (s : State) (d : Nat) : Except Stop Unit :=
  if s.pathUp s.core.die d then .ok () else .error (trapAt 25 0 (BitVec.ofNat 64 d))

/-! RECAST (R393, R397). -/

/-- A window descriptor's four dwords. -/
structure WinDesc where
  lbase : Word
  attr : Word
  rbase : Word
  tmo : Word

/-- The window that a descriptor asks for. -/
def WinDesc.window (x : WinDesc) : Window :=
  { lbase := x.lbase.toNat, part := x.attr.extractLsb' 32 6, size := (x.attr.extractLsb' 3 29).toNat, r := x.attr.getLsbD 0,
    w := x.attr.getLsbD 1, rbase := x.rbase.toNat }

/-- The bytes of a window (R393). -/
def Window.bytes (x : Window) : Nat := 0x20000000 * x.size

/-- Do two ranges overlap? -/
def rangesMeet (a n b m : Nat) : Bool := decide (a < b + m) && decide (b < a + n)

/-- Is a descriptor valid for a personality (R393)? The manual names no status for an RBASE with bits above the 58 of a pod address: it
is accepted, and its low 58 bits are used (DESIGN CHOICE, log 46). -/
def WinDesc.valid (x : WinDesc) (p : Pers) : Bool :=
  let unit (v : Word) : Bool := v.toNat % 0x20000000 == 0
  x.attr.extractLsb' 38 26 == 0 && !x.attr.getLsbD 2 && x.tmo.extractLsb' 32 32 == 0 &&
  (match p with
   | .ual => unit x.lbase && unit x.rbase && x.window.size != 0
   | .cxl => x.lbase == 0 && x.window.size != 0
   | _ => x.lbase == 0 && x.window.size == 0 && x.rbase.extractLsb' 32 32 == 0)

/-- The overlap of R385: a UALink window with another of its partition or with a page of it; a CXL window with another of its
partition, by device address (DEDUCED, log 46). -/
def State.windowMeets (s : State) (g : Nat) (p : Pers) (x : Window) : Bool :=
  let others_ := ((List.range 16).filter (· != g)).flatMap (fun i => (s.group i).windows)
  let place (q : Pers) (y : Window) : Nat := if q == .ual then y.lbase else y.rbase
  others_.any (fun (y : Pers × Window) => y.1 == p && y.2.part == x.part && rangesMeet (place p x) x.bytes (place p y.2) y.2.bytes)
  || (p == .ual && s.pages.any (fun (y : Page) => y.part == x.part && rangesMeet x.lbase x.bytes y.va y.bytes))

/-- Does the pool through a CXL group hold a page (R395)? -/
def State.poolBusy (s : State) (g : Nat) : Bool :=
  (s.group g).pers == .cxl && s.pages.any (fun (p : Page) => !p.demand && p.group == g &&
    ((p.st == .out && p.tier == .pool) || (p.st == .moving && (p.tier == .pool || p.dest == .pool))))

/-- An accepted RECAST (R394). -/
def State.acceptRecast (s : State) (g : Nat) (p : Pers) (win : Option Window) (ue : Option (BitVec 6 × BitVec 32)) (tmo : Word) : State :=
  let x := s.group g
  s.setGroup g { x with st := if x.st == .active then .drain else .retarget, next := p, nextWin := win,
                        nextUe := ue, tmo := if tmo = 0 then 1000000 else tmo, since := s.ptc }

/-- How RECAST.wait goes on (R397): with its result, or it waits. A context that a restore brought back finds the group as it stands. -/
def State.recastGoOn (s : State) (d : SReg) (g : Nat) (out : Option Nat) : Fate :=
  match out with
  | some v => .done (s.writeS d (BitVec.ofNat 64 v))
  | none =>
    let x := s.group g
    if x.busy then .stay s else .done (s.writeS d (match x.st with | .failed => 3 | _ => 0))

/-- RECAST at the descriptor's address (R397); one at or beyond 2^57 is not mapped: the translation fault (DESIGN CHOICE, log 46).
The manual gives no status for a group whose island is down: sD is free, and nothing changes (DEDUCED, log 46). -/
def recastBody (p : Pers) (wt : Bool) (d : SReg) (a b : Word) (s : State) : Except Stop Fate := do
  s.requireS0
  if 15 < a.toNat then .error (trapAt 6 a 0)
  let g := a.toNat
  match s.core.m.wait with
  | some (.recast g' out) => pure (s.recastGoOn d g' out)
  | _ =>
    s.requirePath (dieOfGroup g)
    let refuse (s : State) (st : Word) : Fate := .done (s.writeS d st)
    let accept (s : State) (win : Option Window) (ue : Option (BitVec 6 × BitVec 32)) (tmo : Word) : Fate :=
      if (s.group g).busy then refuse s 1
      else if s.poolBusy g then refuse s 2
      else if !s.islandUp (dieOfGroup g) then refuse s (Config.freeWord s.fresh)
      else
        let t := s.acceptRecast g p win ue tmo
        if wt then .stay (t.setWait (some (.recast g none))) else .done (t.writeS d 0)
    if p == .off then pure (if b = 0 then accept s none none 0 else refuse s 4)
    else if b.toNat % 32 != 0 then pure (refuse s 4)
    else
      let bs ← s.loadVirt .read b.toNat 32
      let w (i : Nat) : Word := wordOfBytes ((bs.drop (8 * i)).take 8)
      let x : WinDesc := { lbase := w 0, attr := w 1, rbase := w 2, tmo := w 3 }
      let s := s.touchRead .virt b.toNat 32
      if (s.group g).busy then pure (refuse s 1)
      else if !x.valid p || (p != .uet && s.windowMeets g p x.window) then pure (refuse s 4)
      else if p == .uet then pure (accept s none (some (x.window.part, x.rbase.extractLsb' 0 32)) x.tmo)
      else pure (accept s (some x.window) none x.tmo)

/-! LNKSTAT and RISTAT (R398). -/

/-- The state codes of LNKSTAT. -/
def GroupState.code : GroupState → Nat
  | .down => 0 | .active => 1 | .drain => 2 | .retarget => 3 | .train => 4 | .failed => 5

/-- LNKSTAT: the traffic counters advance by what passed since (DESIGN CHOICE, log 6). -/
def lnkstatBody (d : SReg) (a : Word) (k : Fin 6) (s : State) : Except Stop State := do
  if 15 < a.toNat then .error (trapAt 6 a 0)
  else
    s.requirePath (dieOfGroup a.toNat)
    let x := s.group a.toNat
    match k.val with
    | 0 => .ok (s.writeS d (BitVec.ofNat 64 (x.pers.code.toNat * 16 + (x.win.isSome && x.st == .active).toNat * 8 + x.st.code)))
    | 4 | 5 =>
      let i : Fin 5 := ⟨k.val - 1, by omega⟩
      let v : Word := x.counters[i] + Config.freeCount s.fresh
      .ok ((s.putGroup a.toNat { x with counters := x.counters.set i.val v i.isLt }).writeS d v)
    | n => .ok (s.writeS d (x.counters[(n - 1) % 5]'(Nat.mod_lt _ (by decide))))

/-- The state codes of RISTAT. -/
def DieState.code : DieState → Nat
  | .up => 0 | .hung => 1 | .resetting => 2 | .off => 3

/-- RISTAT: transit and directory traffic advance by what passed since (DESIGN CHOICE, log 6). -/
def ristatBody (d : SReg) (a : Word) (k : Fin 4) (s : State) : Except Stop State :=
  if h : a.toNat < 4 then do
    s.requirePath a.toNat
    let x := s.islands[a.toNat]
    let die := s.dies[a.toNat]
    match k.val with
    | 0 => .ok (s.writeS d (BitVec.ofNat 64 (die.st.code * 4 + (die.st == .up).toNat * 2 + x.up.toNat)))
    | 1 => .ok (s.writeS d x.absent)
    | 2 =>
      let v := x.transit + Config.freeCount s.fresh
      .ok ({ s with islands := s.islands.set a.toNat { x with transit := v } }.writeS d v)
    | _ =>
      let v := x.dirReqs + Config.freeCount s.fresh
      .ok ({ s with islands := s.islands.set a.toNat { x with dirReqs := v } }.writeS d v)
  else .error (trapAt 6 a 0)

/-! NSEND, NFETCH and RINGSTEP (R399, R400). -/

/-- Which status a remote operation ends with (R399): 0, 2 or 3, as the other side answers (DESIGN CHOICE, log 20). -/
def rmaStatus (n : Nat) : Word :=
  match (Config.freeWord n).toNat % 3 with
  | 0 => 0
  | 1 => 2
  | _ => 3

/-- NSEND and NFETCH (R399). A descriptor address at or beyond 2^57 is not mapped: the translation fault (DESIGN CHOICE, log 46). -/
def rmaBody (fetch : Bool) (d : SReg) (a : Word) (s : State) : Except Stop State := do
  if a.toNat % 64 != 0 then .error (trapAt 4 a 0)
  let bs ← s.loadVirt .read a.toNat 64
  let w (i : Nat) : Word := wordOfBytes ((bs.drop (8 * i)).take 8)
  let n := (w 3).toNat
  if (w 0).extractLsb' 5 59 != 0 || n == 0 || decide (1048576 < n) || (w 4).extractLsb' 32 32 != 0 || w 6 != 0 || w 7 != 0 then
    .error (trapAt 6 a 0)
  let s ← (s.touchRead .virt a.toNat 64).settled
  let g := (w 0).toNat % 16
  s.requirePath (dieOfGroup g)
  let x := s.group g
  if !(x.pers == .uet && x.st == .active) then pure (s.writeS d 1)
  else
    let va := (w 2).toNat
    s.placeRun .virt va n
    let parts ← s.locateRun (if fetch then .write else .read) .virt va n
    s.soundParts (if fetch then .write else .read) va parts
    let st := rmaStatus s.fresh
    if !fetch then pure ((s.engineRead parts).writeS d st)
    else if st = 0 then
      let t ← s.journalRuns .virt [(va, n)]
      pure ((t.engineStoreParts parts ((List.range n).map (Config.freeByte s.fresh))).writeS d 0)
    else pure (s.writeS d st)

/-- How RINGSTEP goes on at its flag (R400). -/
def State.ringGoOn (s : State) (d : SReg) (since tmo : Word) (flag : Nat) (epoch step : BitVec 32) (timedOut : Bool) : Except Stop Fate := do
  let bs ← s.loadVirt .read flag 8
  let v := wordOfBytes bs
  let s := s.touchNewest .virt flag 8
  if v.extractLsb' 32 32 == epoch && decide (step.toNat + 1 ≤ (v.extractLsb' 0 32).toNat) then pure (.done (s.writeS d (step ++ 0#32)))
  else if timedOut then pure (.done (s.writeS d (step ++ 1#32)))
  else pure (.stay (s.setWait (some (.ring since tmo flag epoch step timedOut))))

/-- Is some UALink group that is ACTIVE reached from the core's die (R12, R400)? -/
def State.ringUp (s : State) : Bool :=
  (List.range 16).any (fun g => (s.group g).pers == .ual && (s.group g).st == .active && s.pathUp s.core.die (dieOfGroup g))

/-- RINGSTEP (R400). A descriptor address at or beyond 2^57 is not mapped: the translation fault (DESIGN CHOICE, log 46). What it writes
lies in another package; whether that package answers is free (DESIGN CHOICE, log 20). Where no group takes the data and the flag, the
issuer's island answers for the two (R398; DESIGN CHOICE, log 20). -/
def ringBody (d : SReg) (a b : Word) (s : State) : Except Stop Fate := do
  match s.core.m.wait with
  | some (.ring since tmo flag epoch step timedOut) => s.ringGoOn d since tmo flag epoch step timedOut
  | _ =>
    if a.toNat % 64 != 0 then .error (trapAt 4 a 0)
    let bs ← s.loadVirt .read a.toNat 64
    let w (i : Nat) : Word := wordOfBytes ((bs.drop (8 * i)).take 8)
    let src := (w 3).toNat
    let chunk := ((w 4).extractLsb' 0 32).toNat
    let epoch := (w 4).extractLsb' 32 32
    if 2 ^ 58 ≤ (w 0).toNat || decide (2 ^ 58 ≤ (w 1).toNat) || decide ((w 5).toNat ≤ b.toNat) || decide (2 ^ 17 ≤ src) || src % 512 != 0 || chunk % 512 != 0 || decide (65536 < chunk)
        || (w 5).extractLsb' 32 32 != 0 || w 7 != 0 || decide (131072 < src + chunk) then .error (trapAt 6 a 0)
    if (w 2).toNat % 8 != 0 then .error (trapAt 4 (w 2) 0)
    s.soundReg src chunk
    let s ← (s.touchRead .virt a.toNat 64).settled
    let step := b.setWidth 32
    if s.ringUp then
      if Config.freeBool s.fresh then pure (.done (s.writeS d (step ++ 1#32)))
      else s.ringGoOn d s.ptc (if w 6 = 0 then 1000000 else w 6) (w 2).toNat epoch step false
    else if s.groups.toList.any (fun g => g.busy && (g.pers == .ual || g.next == .ual)) then pure (.stay s)
    else pure (.done (((s.countIsland s.core.die).countIsland s.core.die).writeS d (step ++ 1#32)))

/-- RINGSTEP_TIMEOUT (R400): TMO ticks have passed on a core. -/
def State.ringTimeout (s : State) (id : BitVec 10) : State :=
  let c := s.coreAt id
  match c.m.wait with
  | some (.ring since tmo flag epoch step _) =>
    if tmo.toNat ≤ (s.ptc - since).toNat then s.putCore { c with m := { c.m with wait := some (.ring since tmo flag epoch step true) } } else s
  | _ => s

/-! The pod (R387). -/

/-- The bits of PODID. -/
def podidMask : Word := 0x303FF

/-- PODID_WRITE (R387): ignored while a UALink group is ACTIVE. -/
def State.writePodid (s : State) (v : Word) : State := if s.ualActive then s else { s with podid := v &&& podidMask }

/-- TIME_MESSAGE (R387): the master's time as a peer relays it. -/
def State.timeMessage (s : State) (t : Word) : State :=
  if !s.podid.getLsbD 17 || s.podid.getLsbD 16 || !s.ualActive then s
  else
    let near := decide (t.toNat ≤ s.ptc.toNat + 25) && decide (s.ptc.toNat ≤ t.toNat + 25)
    if s.ptc.toNat ≤ t.toNat then { s with ptc := t, podSlow := false, podv := true }
    else { s with podSlow := true, podv := s.podv || near }

/-! Meanings. -/

/-- RECAST (R397). -/
def execRecast (g : Guard) (pers : Pers) (wt : Bool) (d a b : SReg) (s : State) : Out :=
  runFate unitSQ g 8 (fun s => recastBody pers wt d (s.readS a) (s.readS b) s) s

/-- RECAST, literal form (R397). -/
def execRecastLit (g : Guard) (pers : Pers) (wt : Bool) (d a : SReg) (lit : BitVec 32) (s : State) : Out :=
  runFate unitSQ g 12 (fun s => recastBody pers wt d (s.readS a) (zextLit lit) s) s

/-- LNKSTAT (R398). -/
def execLnkstat (g : Guard) (d a : SReg) (c : Fin 6) (s : State) : Out :=
  perform unitSQ g 8 (fun s => lnkstatBody d (s.readS a) c s) s

/-- RISTAT (R398). -/
def execRistat (g : Guard) (d a : SReg) (c : Fin 4) (s : State) : Out :=
  perform unitSQ g 8 (fun s => ristatBody d (s.readS a) c s) s

/-- NSEND (R399). -/
def execNsend (g : Guard) (_cl : BitVec 4) (d a : SReg) (s : State) : Out :=
  perform unitSQ g 8 (fun s => rmaBody false d (s.readS a) s) s

/-- NFETCH (R399). -/
def execNfetch (g : Guard) (_cl : BitVec 4) (d a : SReg) (s : State) : Out :=
  perform unitSQ g 8 (fun s => rmaBody true d (s.readS a) s) s

/-- RINGSTEP (R400). -/
def execRingstep (g : Guard) (d a b : SReg) (s : State) : Out :=
  runFate unitSQ g 8 (fun s => ringBody d (s.readS a) (s.readS b) s) s

/-- RINGSTEP, literal form (R400). -/
def execRingstepLit (g : Guard) (d a : SReg) (lit : BitVec 32) (s : State) : Out :=
  runFate unitSQ g 12 (fun s => ringBody d (s.readS a) (zextLit lit) s) s

/-- GROUP_REQUEST (R394). -/
def execGroupRequest (grp : BitVec 4) (wr : Bool) (s : State) : Out :=
  .next (s.groupRequest grp.toNat wr)

/-- GROUP_DRAIN_DONE (R394). -/
def execGroupDrainDone (grp : BitVec 4) (s : State) : Out :=
  .next (s.drained grp.toNat)

/-- GROUP_DRAIN_TIMEOUT (R394). -/
def execGroupDrainTimeout (grp : BitVec 4) (s : State) : Out :=
  .next (s.drainTimeout grp.toNat)

/-- GROUP_RETARGETED (R394). -/
def execGroupRetargeted (grp : BitVec 4) (s : State) : Out :=
  .next (s.retargeted grp.toNat)

/-- GROUP_TRAINED (R394). -/
def execGroupTrained (grp : BitVec 4) (s : State) : Out :=
  .next (s.trained grp.toNat)

/-- GROUP_TRAIN_FAILED (R394). -/
def execGroupTrainFailed (grp : BitVec 4) (s : State) : Out :=
  .next (s.trainFailed grp.toNat)

/-- UALINK_REQUEST_IN (R386). -/
def execUalinkRequestIn (grp : BitVec 4) (pa : Nat) (n : Nat) (data : Option (List Byte)) (s : State) : Out :=
  .next (s.ualinkIn grp.toNat pa n data)

/-- REMOTE_RMA_IN (R399). -/
def execRemoteRmaIn (grp : BitVec 4) (key : BitVec 32) (off : Nat) (n : Nat) (data : Option (List Byte)) (s : State) : Out :=
  .next (s.rmaIn grp.toNat key off n data)

/-- HOST_MEM_ACCESS (R384). -/
def execHostMemAccess (pa : Nat) (n : Nat) (data : Option (List Byte)) (s : State) : Out :=
  .next (s.hostAccess pa n data)

/-- PODID_WRITE (R387): through the host port (R25). -/
def execPodidWrite (v : Word) (s : State) : Out :=
  .next (s.ifHost (s.writePodid v))

/-- TIME_MESSAGE (R387). -/
def execTimeMessage (t : Word) (s : State) : Out :=
  .next (s.timeMessage t)

/-- RINGSTEP_TIMEOUT (R400). -/
def execRingstepTimeout (id : BitVec 10) (s : State) : Out :=
  .next (s.ringTimeout id)

end Sys2Proof.Machine
end

