-- ==== Sys2Proof/Machine/System.lean ====
section
/-!
DEFINITION. Partitions, the QoS table, reset domains and scrubbing, and the instructions of OP 0x38 (chapter 16), with what
the router islands track of their dies (chapter 17) and bring-up (chapter 19).
-/

namespace Sys2Proof.Machine

open Sys2Proof

/-! Scrubbing (R369). -/

/-- The core of a number below 1,024. -/
def coreOf (n : Nat) : BitVec 10 := BitVec.ofNat 10 n

/-- The four cores of a quad (R13). -/
def quadCores (q : Nat) : List (BitVec 10) := (List.range 4).map (fun i => coreOf (4 * q + i))

/-- The register spaces of both slots of `n` cores from one on are zeroed: their errors are gone. -/
def healedSlots (bad : List (Nat × Nat)) (id n : Nat) : List (Nat × Nat) :=
  let first := 2 * id * (regBytes / 32)
  bad.filter (fun u => !(u.1 == 0 && decide (first ≤ u.2) && decide (u.2 < first + 2 * n * (regBytes / 32))))

/-- Scrub a core on which nothing runs: its dirty lines are written to L2 and both slots, NS and its translations emptied, giving it a
partition (R369). An image that still stands in one of its slots moves to vault storage (R435); frames of the residency engine keep
their tiles' bytes. -/
def State.scrubCore (s : State) (id : BitVec 10) (part : BitVec 6) : State :=
  let k := s.coreAt id
  let s := k.held.toList.foldl (fun (t : State) x => match x with
    | some h => (t.unhold h).updCtx h (fun (c : Ctx) => if c.st != .running && c.loc == .slots then { c with loc := .vault } else c)
    | none => t) s
  let own := vaultBase k.die + 0x100000 * (id.toNat % 256)
  let s := s.writeBack (k.l1.filter (fun x => x.below.isSome))
  { s.putCore { Core.blank id with part := part, slot := k.slot } with
      mem := s.mem.clear (nsBase id.toNat) 0x100000,
      bad := healedSlots (healed s.bad (nsBase id.toNat) 0x100000) id.toNat 1,
      vaultOwner := s.vaultOwner.filter (fun x => decide (4096 * x.1 < own) || decide (own + 0x100000 ≤ 4096 * x.1)) }

/-! Partitions (R362 to R364). -/

/-- Does a partition own the quad of a core? -/
def State.ownsCore (s : State) (p : BitVec 6) (id : BitVec 10) : Bool :=
  (s.partField p ⟨id.toNat / 256, by omega⟩).getLsbD (id.toNat / 4 % 64)

/-- The bits of a field that may be set (R362). -/
def fieldMask (k : Fin 19) : Word :=
  match k.val with
  | 4 => 0x1FFFF
  | 8 => 0xFFFF
  | 9 => 0xFFFFFFFF
  | 10 | 11 => 0xFFFFC0000000
  | 12 => 0x1FFFFFFFFFFFFFC
  | 13 => 0x1FFFFFFFFF80000
  | 14 => 0xFFFFFFFFFFFF
  | 15 => 1
  | _ => BitVec.allOnes 64

/-- Does a range of HBM4E meet the Slate region (R405)? -/
def meetsSlate (lo hi : Nat) : Bool :=
  (List.range 8).any (fun s => decide (lo < (64 * s + 64) * gib) && decide ((64 * s + 56) * gib < hi) && decide (lo < hi))

/-- What PARTCFG reads of a field: STATE's LIVE is computed (R362). -/
def State.readField (s : State) (p : BitVec 6) (k : Fin 19) : Word :=
  if k = 16 then s.partField p 16 ||| bitAt ((List.finRange 4).any (fun d => s.partField p ⟨d.val, by omega⟩ != 0)) 1 else s.partField p k

/-- The contexts bound on some cores. -/
def State.boundOn (s : State) (ids : List (BitVec 10)) : List (BitVec 32) := (ids.filterMap (fun id => (s.coreAt id).handle)).dedup

/-- Switch out the contexts bound on some cores. -/
def State.switchOut (s : State) (ids : List (BitVec 10)) : State := (s.boundOn ids).foldl State.leave s

/-- One quad of a die moves to a partition, or leaves one (R363): a quad that no partition owns keeps its PART (DEDUCED, log 47). -/
def State.moveQuad (s : State) (p : BitVec 6) (d : Fin 4) (gain : Bool) (n : Nat) : State :=
  let ids := quadCores (64 * d.val + n)
  let k : Fin 19 := ⟨d.val, by omega⟩
  let s := s.switchOut ids
  let s := if gain then (List.range 64).foldl (fun t i =>
      let q := BitVec.ofNat 6 i
      if (t.partField q k).getLsbD n then t.setPartField q k (t.partField q k &&& ~~~(1#64 <<< n)) else t) s else s
  ids.foldl (fun t id => t.scrubCore id (if gain then p else (t.coreAt id).part)) s

/-- A write to QUADS (R363). -/
def State.writeQuads (s : State) (p : BitVec 6) (d : Fin 4) (v : Word) : State :=
  let old := s.partField p ⟨d.val, by omega⟩
  let s := ((List.range 64).filter (fun n => v.getLsbD n != old.getLsbD n)).foldl (fun t n => t.moveQuad p d (v.getLsbD n) n) s
  s.setPartField p ⟨d.val, by omega⟩ v

/-- Write a field of a partition (R362, R373): `none` where the write is a range fault, which the host's write ignores. A new HBM4E range
moves the places of slots, so no slot is taken to hold its units (R409; PRESUMED, log 45). -/
def State.writeField (s : State) (p : BitVec 6) (k : Fin 19) (v : Word) : Option State :=
  let v := v &&& fieldMask k
  if h : k.val < 4 then some (s.writeQuads p ⟨k.val, h⟩ v)
  else match k.val with
    | 5 | 6 => if v = 0 then none else some (s.setPartField p k v)
    | 10 => if meetsSlate v.toNat (s.partField p 11).toNat then none else some ((s.setPartField p k v).updSlate (fun x => { x with allDirty := 3 }))
    | 11 => if meetsSlate (s.partField p 10).toNat v.toNat then none else some ((s.setPartField p k v).updSlate (fun x => { x with allDirty := 3 }))
    | 14 =>
      if (List.range 64).any (fun q => q != p.toNat && s.partField (BitVec.ofNat 6 q) 14 &&& v != 0) then none
      else some (s.setPartField p k v)
    | 16 | 17 | 18 => some s
    | _ => some (s.setPartField p k v)

/-- Is it a field that only partition 0 and the host may write (R362)? -/
def platformField (k : Fin 19) : Bool := decide (k.val < 5) || k == 10 || k == 11 || k == 14

/-! Reset domains (R368). -/

/-- Abort the open rounds of some arrivals (R277). -/
def State.abortRecs (s : State) (rs : List BarRec) : State :=
  rs.foldl (fun t r =>
    let c := t.channelAt r.sc r.domain r.k
    if r.waitsAt c then t.endRound c 1 else t) s

/-- The arrivals of the members that run on some cores. -/
def State.recsOn (s : State) (on : Core → Bool) : List BarRec := (s.allCores.filter on).filterMap (fun c => c.m.bar)

/-- The arrivals of contexts that are off their cores. -/
def recsAway (cs : List Ctx) : List BarRec := cs.flatMap (fun c => c.members.filterMap (·.bar))

/-- The arrivals of the gangs that have a member on some cores (R284). -/
def State.recsOfGangs (s : State) (ids : List (BitVec 10)) : List BarRec :=
  let hs := s.boundOn ids
  s.recsOn (fun c => match c.handle with | some h => hs.contains h | none => false)

/-- The arrivals at some channels, wherever their members are (R277). -/
def State.recsAt (s : State) (at_ : BarRec → Bool) : List BarRec := (s.recsOn (fun _ => true) ++ recsAway s.ctxs).filter at_

/-- Reset cores (R368): their contexts are switched out, and they are scrubbed. -/
def State.resetCores (s : State) (ids : List (BitVec 10)) : State :=
  let s := (s.abortRecs (s.recsOfGangs ids)).switchOut ids
  ids.foldl (fun t id => t.scrubCore id (t.coreAt id).part) s

/-- Does a channel of a scope and domain lie in a quad? -/
def inQuad (q : Nat) (sc : Scope) (domain : Nat) : Bool :=
  match sc with
  | .co => domain / 4 == q
  | .qd => domain == q
  | _ => false

/-- Does one lie in a die? -/
def inDie (d : Nat) (sc : Scope) (domain : Nat) : Bool :=
  match sc with
  | .co => domain / 256 == d
  | .qd => domain / 64 == d
  | .di => domain == d
  | _ => false

/-- The channels of a reset domain are cleared (R368). -/
def State.clearChannels (s : State) (inIt : Scope → Nat → Bool) : State :=
  { s with channels := s.channels.filter (fun (c : Channel) => !inIt c.sc c.domain) }

/-- Reset a quad: its barrier channels are cleared too, and each round at them is aborted. -/
def State.resetQuad (s : State) (q : Nat) : State :=
  ((s.abortRecs (s.recsAt (fun r => inQuad q r.sc r.domain))).resetCores (quadCores q)).clearChannels (inQuad q)

/-- The records of a queue that have not started stay in its ring, and the queue is disabled (R368). -/
def State.stopQueue (s : State) (q : Nat) : State :=
  let x := s.queueAt q
  let n := s.curSeqno q
  { s.putQueue q { x with en := false, head := if x.cur.isSome then x.head - 1 else x.head, cur := none } with
      outstanding := if x.cur.isSome then s.outstanding.filter (fun o => !(o.queue == q && o.seqno == n)) else s.outstanding }

/-- The fields that a partition reset restores (R362). -/
def State.resetFields (s : State) (p : BitVec 6) : State :=
  ([5, 6, 7, 8, 9, 12, 13, 15, 17, 18] : List (Fin 19)).foldl (fun t k => t.setPartField p k Partition.reset.f[k]) s

/-- Reset a partition (R368): RST is set while its contexts are lost and its interrupts dropped. -/
def State.resetPartition (s : State) (p : BitVec 6) : State :=
  let s := (s.resetFields p).setPartField p 16 1
  let mine := s.ctxs.filter (fun c => c.part == p && c.st != .free)
  let s := s.abortRecs (s.recsOn (fun c => c.part == p && c.handle.isSome) ++ recsAway mine)
  let s := (s.queues.filter (fun q => q.2.part == p)).foldl (fun t q => t.stopQueue q.1) s
  let s := mine.foldl (fun t c => t.freeCtx c.handle 7) s
  let s := ((s.allCores.map (·.id)).filter (s.ownsCore p)).foldl (fun t id => t.scrubCore id (t.coreAt id).part) s
  let s := { s with qos := s.qos.map (fun (e : Byte) => if e.getLsbD 6 && e.extractLsb' 0 6 == p then e &&& 0xBF else e),
                    marks := s.marks.filter (fun (m : Mark) => m.part != p) }
  (s.setPartField p 16 0).postError p

/-- The moves with an endpoint on a compute die that leaves UP end (R319), and so do transfers of images (R390); its island answers for them
(R391, R398). -/
def State.dropMoves (s : State) (d : Nat) : State :=
  let s := s.breakEnds d
  (s.moves.filter (·.started)).foldl (fun t m =>
    match t.pages.find? (fun p => p.part == m.part && p.va == m.va) with
    | none => t
    | some p =>
      let on (r : Tier) (a : Nat) : Bool := r != .pool && !(p.demand && r == p.tier) && homeOfPa a == d
      if p.tier == .vault && on p.tier p.frame then t.removePage p
      else if on p.tier p.frame || on p.dest p.toFrame then (t.countAbsent m.die.toNat d).undoMove m p else t) s

/-- Set the state of a compute die. -/
def State.setDie (s : State) (d : Nat) (st : DieState) : State :=
  let i : Fin 4 := ⟨d % 4, Nat.mod_lt _ (by decide)⟩
  { s with dies := s.dies.set i.val { s.dies[i] with st := st } i.isLt }

/-- Clear or set a bit of READY (R428). -/
def State.setReady (s : State) (i : Nat) (v : Bool) : State :=
  { s with ready := if v then s.ready ||| (1#64 <<< i) else s.ready &&& ~~~(1#64 <<< i) }

/-- The writes that a die's cores hold in dirty lines of L1 are lost (R391): memory has again what L2 held, so its units of HBM4E change
(R406). -/
def State.loseDirty (s : State) (d : Nat) : State :=
  (s.allCores.filter (fun c => c.die == d)).foldl (fun t c =>
    c.l1.foldl (fun u x => match x.below with
      | some old => { u.wroteBack [x] with mem := u.mem.splice (128 * x.line) old }
      | none => u) t) s

/-- The requests that waited for the controllers of a die that leaves UP get "endpoint absent" (R391). -/
def State.loseHeld (s : State) (d : Nat) : State := s.releaseReqs (fun w => match w with | .stack k => k / 2 == d | _ => false)

/-- Does a compute-die reset lose a context: its image is in the die's slots or vault (R368), wherever it is to run next? -/
def Ctx.lostWith (c : Ctx) (d : Nat) : Bool := c.st != .free && c.imgDie.toNat == d && !c.fresh && c.loc != .hbm

/-- Does it hold one until the die returns: its image is in HBM4E, or nowhere yet (R368)? -/
def Ctx.heldWith (c : Ctx) (d : Nat) : Bool := c.st != .free && c.rundie.toNat == d && (c.fresh || c.loc == .hbm)

/-- The streams of the cores of a die are settled, before the die leaves UP (R155, R353). -/
def State.settleDie (s : State) (d : Nat) : State :=
  ((s.allCores.filter (fun c => c.die == d && c.handle.isSome)).map (·.id)).foldl (fun t id => t.onCore id State.settleStreams) s

/-- Begin a reset of a compute die (R368, R389, R392): RESETTING first, so that what a lost context leaves for the die's queues waits until
it returns (R25, R291). -/
def State.resetDie (s : State) (d : Nat) : State :=
  let lost := s.ctxs.filter (·.lostWith d)
  let held := s.ctxs.filter (·.heldWith d)
  let s := s.abortRecs (s.recsAt (fun r => inDie d r.sc r.domain) ++ s.recsOn (fun c => c.die == d) ++ recsAway lost)
  let s := ((s.loseDirty d).settleDie d).setDie d .resetting
  let s := lost.foldl (fun t c => t.freeCtx c.handle 6) s
  let s := held.foldl (fun t c => t.holdOn c.handle (.die d)) s
  let s := ((((s.dropMoves d).clearEngine d).loseHeld d).loseVault d).clearChannels (inDie d)
  let blank (c : Core) : Core := if c.die == d then { Core.blank c.id with part := c.part } else c
  let i : Fin 4 := ⟨d % 4, Nat.mod_lt _ (by decide)⟩
  let s := { s with core := blank s.core, others := s.others.map blank, dies := s.dies.set i.val Die.reset i.isLt,
                    mem := (s.mem.clear (vaultBase d) vaultBytes).clear (nsBase (256 * d)) (256 * 0x100000),
                    bad := healedSlots (healed (healed s.bad (vaultBase d) vaultBytes) (nsBase (256 * d)) (256 * 0x100000)) (256 * d) 256,
                    vaultOwner := s.vaultOwner.filter (fun x => decide (4096 * x.1 < vaultBase d) || decide (vaultBase d + vaultBytes ≤ 4096 * x.1)) }
  let s := [4 + d, 8 + 2 * d, 9 + 2 * d, 16 + d, 20 + d, 24 + d].foldl (fun t j => t.setReady j false) s
  s.slateReset

/-- Set the state of an island and its two boundaries. -/
def State.setIsland (s : State) (d : Nat) (x : Island) (bup : BitVec 4) : State :=
  { s with islands := s.islands.set (d % 4) x (Nat.mod_lt _ (by decide)), bup := bup }

/-- The bits of an island's two boundaries. -/
def islandBounds (d : Nat) : BitVec 4 := (1#4 <<< (d % 4)) ||| (1#4 <<< ((d + 3) % 4))

/-- Does the group through which a cut or a restore reaches its target lie on an island (R404, R415)? -/
def State.targetOn (s : State) (d : Nat) (t : CutTarget) : Bool :=
  if t.pod then (List.range 16).all (fun g => !((s.group g).pers == .ual && s.groupSt g == .active) || dieOfGroup g == d)
  else s.poolOf t |>.any (fun g => dieOfGroup g == d)

/-- Reset a router island (R368, R392, R398): its traffic in flight is lost (R391). A cut whose target's group is among the island's fails
for that, with cause 3 (R415), and any other with cause 4 (R410). Of barrier rounds, those of members on cores of the island's die are
aborted, not arrivals of contexts that were switched out there (R277; DESIGN CHOICE, log 100). -/
def State.resetIsland (s : State) (d : Nat) : State :=
  let s := s.abortRecs (s.recsOn (fun c => c.die == d))
  let cause := if s.slate.tgt.any (s.targetOn d) then 3 else 4
  let s := (s.setIsland d Island.reset (s.bup &&& ~~~islandBounds d)).setReady d false
  let s := (s.failCut cause).endRestore 2
  let s := (List.range 4).foldl (fun t i => t.groupReset (4 * d + i)) s
  s.losePaths (fun x => x.1 == d || x.2.1 == d || x.2.2 == some d)

/-- Package reset (R368): the target of Slate's generations lies beside the package. -/
def State.packageReset (s : State) : State :=
  { State.reset with turns := s.turns, events := s.events, fresh := s.fresh,
                     slate := { Slate.reset with slots := s.slate.slots, records := s.slate.records, home := s.slate.home } }

/-! Dies, islands and functions (R389, R392, R428). -/

/-- HEARTBEAT_TIMEOUT (R389). -/
def State.heartbeat (s : State) (d : Nat) : State := if s.dieUp d then ((s.setDie d .hung).loseHeld d).dropMoves d else s

/-- DIE_POWER_OFF (R389). -/
def State.powerOff (s : State) (d : Nat) : State := ((s.setDie d .off).loseHeld d).dropMoves d

/-- May a compute die become ready: its island is up, and after a package reset the four islands were first (R428)? The package has been up
once a die has (DEDUCED, log 99). -/
def State.dieMayRise (s : State) (d : Nat) : Bool := s.islandUp d && (s.ready.extractLsb' 0 4 == 0xF || s.ready.extractLsb' 4 4 != 0)

/-- COMPUTE_DIE_READY (R389): the die is UP and what was held for it goes on. -/
def State.dieReady (s : State) (d : Nat) : State :=
  if (s.dies[d % 4]'(Nat.mod_lt _ (by decide))).st == .resetting && s.dieMayRise d then ((s.setDie d .up).setReady (4 + d % 4) true).releaseHolds (.die d)
  else s

/-- BOUNDARY_DOWN (R12): what has committed to it is lost, and never moved to another path (R391). -/
def State.boundaryDown (s : State) (b : Nat) : State :=
  ({ s with bup := s.bup &&& ~~~(1#4 <<< (b % 4)) }.losePaths (fun x => crosses x.1 x.2.1 x.2.2 b)).targetUpdate

/-- A path may have come back: holds on transfers to dies that are UP end (R390), and the entries that it leads to change (R313). -/
def State.pathBack (s : State) : State :=
  (((List.range 4).filter s.dieUp).foldl (fun t d => t.releaseHolds (.die d)) s).releaseLate

/-- The boundary is up when both islands are (R12). -/
def State.raiseBoundary (s : State) (b : Nat) : State :=
  if s.islandUp b && s.islandUp (b + 1) then { s with bup := s.bup ||| (1#4 <<< (b % 4)) } else s

/-- BOUNDARY_UP (R12): both islands are up. -/
def State.boundaryBack (s : State) (b : Nat) : State := (s.raiseBoundary b).pathBack

/-- ISLAND_RETURN (R392): the slice is served again and its holds are released; its boundaries come up with the island beyond. -/
def State.islandReturn (s : State) (d : Nat) : State :=
  if s.islandUp d then s
  else
    let x : Island := s.islands[d % 4]'(Nat.mod_lt _ (by decide))
    let s := (s.setIsland d { x with up := true } s.bup).setReady (d % 4) true
    (((s.raiseBoundary d).raiseBoundary (d + 3)).releaseHolds (.island d)).pathBack

/-- The die that a function of READY belongs to (R428). -/
def functionDie (i : Nat) : Nat := if i < 16 then (i - 8) / 2 else i % 4

/-- FUNCTION_READY (R428): bit `i` of READY sets: the islands first, then the dies, and each die's functions after it. -/
def State.functionReady (s : State) (i : Nat) : State :=
  if s.ready.getLsbD i || decide (28 ≤ i) then s
  else if i < 4 then s.islandReturn i
  else if i < 8 then s.dieReady (i - 4)
  else if !s.ready.getLsbD (4 + functionDie i) then s
  else if i < 16 then s.controllerUp (i - 8)
  else s.setReady i true

/-! What the host writes (R296, R364, R365, R399, R429). -/

/-- HOST_PARTITION_WRITE (R364): a write that PARTCFG would refuse changes nothing. -/
def State.hostField (s : State) (p : BitVec 6) (k : Nat) (v : Word) : State :=
  if h : k < 19 then (s.writeField p ⟨k, h⟩ v).getD s else s

/-- HOST_REGISTER_WRITE: a queue register, a QoS entry or a dword of an export entry, by its offset in BAR0. -/
def State.hostRegister (s : State) (off : Nat) (v : Word) : State :=
  if off % 8 != 0 then s
  else if 0x100000 ≤ off && off < 0x108000 then
    let q := (off - 0x100000) / 32
    match off / 8 % 4 with
    | 0 => s.putQueue q { s.queueAt q with base := v }
    | 1 => s.writeQctl q v
    | 2 => s.writeQtail q (v.setWidth 32)
    | _ => s
  else if h : 0x120000 ≤ off ∧ off < 0x120800 then
    { s with qos := s.qos.set ((off - 0x120000) / 8) (v.setWidth 8 &&& 0x7F) (by omega) }
  else if 0x130000 ≤ off && off < 0x132000 then
    let e := (off - 0x130000) / 32
    let x := (s.exports.lookup e).getD (0, 0, 0, 0)
    let y := match (off - 0x130000) / 8 % 4 with
      | 0 => (v, x.2)
      | 1 => (x.1, v, x.2.2)
      | 2 => (x.1, x.2.1, v, x.2.2.2)
      | _ => (x.1, x.2.1, x.2.2.1, v)
    { s with exports := (e, y) :: s.exports.filter (fun z => z.1 != e) }
  else s

/-- The revision ID in the PCI configuration header of host-port function 0 (R1): stepping B1. -/
def revisionId : Byte := 0x11

/-- What the host reads of the configuration header of function 0 (R1): the dword that holds the revision ID, whose other bytes the manual
leaves to the PCI standard (DESIGN CHOICE, log 98: zero). -/
def State.hostConfig (s : State) (off : Nat) : Option (BitVec 32) :=
  if !s.islandUp 0 then none else if off = 8 then some (revisionId.setWidth 32) else none

/-- What the host reads of a register in BAR0 of function 0, through an island that is up (R296, R364, R365, R387, R399, R428, R429). -/
def State.hostRead (s : State) (off : Nat) : Option Word :=
  if !s.islandUp 0 || off % 8 != 0 then none
  else if 0x100000 ≤ off && off < 0x108000 then
    let x := s.queueAt ((off - 0x100000) / 32)
    some (match off / 8 % 4 with
      | 0 => x.base
      | 1 => BitVec.ofNat 64 (x.part.toNat * 2 ^ 16 + x.rerr.toNat * 128 + x.ovr.toNat * 64 + x.log2n.toNat * 2 + x.en.toNat)
      | 2 => x.tail.setWidth 64
      | _ => x.cerr ++ x.head)
  else if 0x110000 ≤ off && off < 0x114000 then
    let i := (off - 0x110000) / 8
    if h : i % 32 < 19 then some (s.readField (BitVec.ofNat 6 (i / 32)) ⟨i % 32, h⟩) else some 0
  else if h : 0x120000 ≤ off ∧ off < 0x120800 then some ((s.qos[(off - 0x120000) / 8]'(by omega)).setWidth 64)
  else if 0x130000 ≤ off && off < 0x132000 then
    let e := (s.exports.lookup ((off - 0x130000) / 32)).getD (0, 0, 0, 0)
    some (match off / 8 % 4 with | 0 => e.1 | 1 => e.2.1 | 2 => e.2.2.1 | _ => e.2.2.2)
  else if off = 0x140000 then some s.pcap
  else if off = 0x140008 then some s.ready
  else if off = 0x140010 then some s.podid
  else none

/-! The instructions (R372 to R380). -/

/-- TRAP (R372): the handler returns to the next instruction. -/
def trapBody (len : Nat) (b : Word) (s : State) : Except Stop Fate :=
  .ok (.left (s.takeTrap { code := 26, info := b } (s.img.pc + BitVec.ofNat 64 len)))

/-- ERET (R360): it waits for outstanding SCLDs, as END does. -/
def eretBody (s : State) : Except Stop Fate := do
  s.requireS
  pure (if s.img.late.isEmpty then .left s.returnFromTrap else .stay s)

/-- SCRUB (R376). -/
def scrubBody (d : SReg) (a : Word) (s : State) : Except Stop State := do
  s.requireS
  let id := coreOf a.toNat
  if decide (1024 ≤ a.toNat) || !s.ownsCore s.core.part id then pure (s.writeS d 2)
  else if (s.coreAt id).handle.isSome || (s.coreAt id).standby.isSome then pure (s.writeS d 1)
  else pure ((s.scrubCore id s.core.part).writeS d 0)

/-- The field number of PARTCFG. -/
def fieldOf (k : BitVec 5) : Fin 19 := ⟨k.toNat % 19, Nat.mod_lt _ (by decide)⟩

/-- PARTCFG (R373). -/
def partcfgBody (len : Nat) (k : BitVec 5) (rd : Bool) (d : SReg) (a b : Word) (s : State) : Except Stop Fate := do
  s.requireS
  if 63 < a.toNat then .error (trapAt 6 a 0)
  let p := a.setWidth 6
  let f := fieldOf k
  if p != s.core.part && s.core.part != 0 then .error privilege
  if rd then pure (.done (s.writeS d (s.readField p f)))
  else
    if platformField f && s.core.part != 0 then .error privilege
    match ((s.writeS d (s.readField p f)).retire len).writeField p f b with
    | none => .error (trapAt 6 b 0)
    | some t => pure (.left t)

/-- QOSCFG (R373). -/
def qoscfgBody (rd : Bool) (d : SReg) (a b : Word) (s : State) : Except Stop State := do
  s.requireS
  if s.core.part != 0 then .error privilege
  if h : a.toNat < 256 then
    let old := s.qos[a.toNat]
    let s := if rd then s else { s with qos := s.qos.set a.toNat (b.setWidth 8 &&& 0x7F) }
    pure (s.writeS d (old.setWidth 64))
  else .error (trapAt 6 a 0)

/-- INTPOST (R374): a release at package scope comes first. -/
def intpostBody (b : Word) (s : State) : Except Stop State := do
  s.requireS
  if 14 < b.toNat then .error (trapAt 6 b 0)
  let s ← s.settled
  pure (s.postIrq (32 * s.core.part.toNat + 16 + b.toNat))

/-- RESETDOM on cores (R375): 2 where it is not permitted, 1 where the contexts could not be stopped. The issuer's own context leaves
its core where a member of its gang is among them, with sD written. -/
def State.resetdomCores (s : State) (d : SReg) (ids : List (BitVec 10)) (go : State → State) : Fate :=
  if !ids.all (s.ownsCore s.core.part) || ids.contains s.core.id then .done (s.writeS d 2)
  else if !(s.boundOn ids).isEmpty && Config.freeBool s.fresh then .done (s.writeS d 1)
  else .left (go ((s.writeS d 0).retire 8))

/-- What keeps a partition reset from changing the page entries of the contexts that it loses (R313, R327). -/
def State.lossBlock (s : State) (p : BitVec 6) : Option Stop :=
  (s.ctxs.filter (fun c => c.part == p && c.st != .free)).findSome? (fun c => s.ownedBlock c.handle)

/-- RESETDOM (R375). The right to reset a foreign partition is partition 0's (R354, code 2). -/
def resetdomBody (d : SReg) (k : Fin 6) (a : Word) (s : State) : Except Stop Fate := do
  s.requireS
  let no : Fate := .done (s.writeS d 2)
  let n := a.toNat
  let begun := (s.writeS d 0).retire 8
  match k.val with
  | 0 => pure (if n < 1024 then s.resetdomCores d [coreOf n] (fun t => t.resetCores [coreOf n]) else no)
  | 1 => pure (if n < 256 then s.resetdomCores d (quadCores n) (fun t => t.resetQuad n) else no)
  | 2 =>
    if n ≤ 63 && n != s.core.part.toNat && s.core.part != 0 then .error privilege
    match if n ≤ 63 then s.lossBlock (a.setWidth 6) else none with
    | some st => .error st
    | none => pure (if n ≤ 63 then .left (begun.resetPartition (a.setWidth 6)) else no)
  | 3 => pure (if s.core.part == 0 && n ≤ 3 then .left (begun.resetDie n) else no)
  | 4 => pure (if s.core.part == 0 && n ≤ 3 then .left (begun.resetIsland n) else no)
  | _ => pure (if s.core.part == 0 then .left begun.packageReset else no)

/-- A core of a partition drops every translation it holds. -/
def Core.dropAll (c : Core) (part : BitVec 6) : Core :=
  if c.part == part then { c with tlb := [], cpt := Vector.replicate 8 none, npt := Vector.replicate 8 none } else c

/-- Every core of a partition drops its translations of a range, or with no length all of them (R154, R377). -/
def State.dropRange (s : State) (part : BitVec 6) (a n : Nat) : State :=
  if n = 0 then { s with core := s.core.dropAll part, others := s.others.map (·.dropAll part) }
  else (s.pages.filter (fun p => p.part == part && decide (p.va < a + n) && decide (a < p.va + p.bytes))).foldl State.dropPage s

/-- TLBINV (R377). -/
def tlbinvBody (a b : Word) (s : State) : Except Stop State := do
  s.requireS
  if a.extractLsb' 57 7 != 0 then .error (trapAt 5 a 0)
  pure (s.dropRange s.core.part a.toNat b.toNat)

/-- RDLAT (R378). -/
def rdlatBody (clr : Bool) (d : SReg) (s : State) : State :=
  let t := s.writeS d s.core.m.lat
  if clr then { t with core := { t.core with m := { t.core.m with lat := 0 } } } else t

/-- Every earlier instruction has completed (R378): with an SCLD outstanding the instruction waits (R160). -/
def State.afterEarlier (s : State) (f : State → State) : Fate := if s.img.late.isEmpty then .done (f s) else .stay s

/-- WFE's result (R379): bit 0 the deadline, bit 1 a kick pending. -/
def State.wfeWord (s : State) (b : Word) : Word :=
  let kp := match s.self with | some c => c.kp | none => false
  bitAt (decide (b.toNat ≤ s.ptc.toNat)) 0 ||| bitAt kp 1

/-- WFE (R379). -/
def wfeBody (len : Nat) (d : SReg) (b : Word) (s : State) : Fate :=
  let v := s.wfeWord b
  if v = 0 then .stay (s.setWait (some (.wfe d b len))) else .done (s.writeS d v)

/-- HALTC (R380). -/
def haltcBody (s : State) : Except Stop Fate := do
  s.requireS
  match s.core.handle with
  | none => pure (.stay s)
  | some h => pure (.left ((s.retire 8).haltTask h 5))

/-! Meanings. -/

/-- TRAP (R372). -/
def execTrap (g : Guard) (b : SReg) (s : State) : Out :=
  runFate unitSQ g 8 (fun s => trapBody 8 (s.readS b) s) s

/-- TRAP, literal form (R372). -/
def execTrapLit (g : Guard) (lit : BitVec 32) (s : State) : Out :=
  runFate unitSQ g 12 (fun s => trapBody 12 (zextLit lit) s) s

/-- ERET (R360). -/
def execEret (g : Guard) (s : State) : Out :=
  runFate unitSQ g 8 (fun s => eretBody s) s

/-- SCRUB (R376). -/
def execScrub (g : Guard) (d a : SReg) (s : State) : Out :=
  perform unitSQ g 8 (fun s => scrubBody d (s.readS a) s) s

/-- PARTCFG (R373). -/
def execPartcfg (g : Guard) (k : BitVec 5) (rd : Bool) (d a b : SReg) (s : State) : Out :=
  runFate unitSQ g 8 (fun s => partcfgBody 8 k rd d (s.readS a) (s.readS b) s) s

/-- PARTCFG, literal form (R373). -/
def execPartcfgLit (g : Guard) (k : BitVec 5) (rd : Bool) (d a : SReg) (lit : BitVec 32) (s : State) : Out :=
  runFate unitSQ g 12 (fun s => partcfgBody 12 k rd d (s.readS a) (zextLit lit) s) s

/-- QOSCFG (R373). -/
def execQoscfg (g : Guard) (rd : Bool) (d a b : SReg) (s : State) : Out :=
  perform unitSQ g 8 (fun s => qoscfgBody rd d (s.readS a) (s.readS b) s) s

/-- QOSCFG, literal form (R373). -/
def execQoscfgLit (g : Guard) (rd : Bool) (d a : SReg) (lit : BitVec 32) (s : State) : Out :=
  perform unitSQ g 12 (fun s => qoscfgBody rd d (s.readS a) (zextLit lit) s) s

/-- INTPOST (R374). -/
def execIntpost (g : Guard) (b : SReg) (s : State) : Out :=
  perform unitSQ g 8 (fun s => intpostBody (s.readS b) s) s

/-- INTPOST, literal form (R374). -/
def execIntpostLit (g : Guard) (lit : BitVec 32) (s : State) : Out :=
  perform unitSQ g 12 (fun s => intpostBody (zextLit lit) s) s

/-- RESETDOM (R375). -/
def execResetdom (g : Guard) (d a : SReg) (c : Fin 6) (s : State) : Out :=
  runFate unitSQ g 8 (fun s => resetdomBody d c (s.readS a) s) s

/-- TLBINV (R377). -/
def execTlbinv (g : Guard) (a b : SReg) (s : State) : Out :=
  perform unitSQ g 8 (fun s => tlbinvBody (s.readS a) (s.readS b) s) s

/-- TLBINV, literal form (R377). -/
def execTlbinvLit (g : Guard) (a : SReg) (lit : BitVec 32) (s : State) : Out :=
  perform unitSQ g 12 (fun s => tlbinvBody (s.readS a) (zextLit lit) s) s

/-- RDTIME (R378). -/
def execRdtime (g : Guard) (wt : Bool) (d : SReg) (s : State) : Out :=
  runFate unitSQ g 8 (fun s => .ok (if wt then s.afterEarlier (fun s => s.writeS d s.ptc) else .done (s.writeS d s.ptc))) s

/-- RDLAT (R378). -/
def execRdlat (g : Guard) (clr : Bool) (d : SReg) (s : State) : Out :=
  runFate unitSQ g 8 (fun s => .ok (s.afterEarlier (rdlatBody clr d))) s

/-- WFE (R379). -/
def execWfe (g : Guard) (d b : SReg) (s : State) : Out :=
  runFate unitSQ g 8 (fun s => .ok (wfeBody 8 d (s.readS b) s)) s

/-- WFE, literal form (R379). -/
def execWfeLit (g : Guard) (d : SReg) (lit : BitVec 32) (s : State) : Out :=
  runFate unitSQ g 12 (fun s => .ok (wfeBody 12 d (zextLit lit) s)) s

/-- HALTC (R380). -/
def execHaltc (g : Guard) (s : State) : Out :=
  runFate unitSQ g 8 (fun s => haltcBody s) s

/-- HOST_PARTITION_WRITE (R364). -/
def execHostPartitionWrite (p : BitVec 6) (k : Nat) (v : Word) (s : State) : Out :=
  .next (s.ifHost (s.hostField p k v))

/-- HOST_REGISTER_WRITE (R296, R365, R399). -/
def execHostRegisterWrite (off : Nat) (v : Word) (s : State) : Out :=
  .next (s.ifHost (s.hostRegister off v))

/-- PCAP_WRITE (R429). -/
def execPcapWrite (v : Word) (s : State) : Out :=
  .next (s.ifHost ({ s with pcap := v &&& 0xFFFF }))

/-- PACKAGE_RESET (R368, R428). -/
def execPackageReset (s : State) : Out :=
  .next (s.packageReset)

/-- FUNCTION_READY (R428). -/
def execFunctionReady (i : BitVec 5) (s : State) : Out :=
  .next (s.functionReady i.toNat)

/-- COMPUTE_DIE_READY (R389). -/
def execComputeDieReady (d : BitVec 2) (s : State) : Out :=
  .next (s.dieReady d.toNat)

/-- HEARTBEAT_TIMEOUT (R389). -/
def execHeartbeatTimeout (d : BitVec 2) (s : State) : Out :=
  .next (s.heartbeat d.toNat)

/-- DIE_POWER_OFF (R389). -/
def execDiePowerOff (d : BitVec 2) (s : State) : Out :=
  .next (s.powerOff d.toNat)

/-- BOUNDARY_DOWN (R12). -/
def execBoundaryDown (d : BitVec 2) (s : State) : Out :=
  .next (s.boundaryDown d.toNat)

/-- BOUNDARY_UP (R12). -/
def execBoundaryUp (d : BitVec 2) (s : State) : Out :=
  .next (s.boundaryBack d.toNat)

/-- ISLAND_RETURN (R392). -/
def execIslandReturn (d : BitVec 2) (s : State) : Out :=
  .next (s.islandReturn d.toNat)

end Sys2Proof.Machine
end

