-- ==== Sys2Proof/Machine/Events.lean ====
section
/-!
DEFINITION. The events of a core that no other family holds: streams ahead of their use (chapter 06), waits that end (chapters 11
and 16), arrivals from other packages, and units that cannot be fetched or decoded (chapters 02 and 05).
-/

namespace Sys2Proof.Machine

open Sys2Proof

/-- The wait of 1,024 cycles of a `.park` WAITM, in ticks (R279, R6). -/
def parkTicks : Nat := 820

/-- WAITM_RECHECK (R279): the waiting WAITM reads its word again. -/
def State.recheck (s : State) : State :=
  match s.core.m.wait with
  | some (.waitm _ _ q) =>
    if !s.coreRuns then s
    else match waitmBody q s with
      | .ok f => f.close q.len
      | .error st => s.deliver unitSQ st
  | _ => s

/-- WAITM_PARK_TIMEOUT (R279): 1,024 cycles have passed since the first read; the next read parks. -/
def State.waitmDue (s : State) : State :=
  match s.core.m.wait with
  | some (.waitm since _ q) =>
    if q.park && decide (parkTicks ≤ (s.ptc - since).toNat) then s.setWait (some (.waitm since true q)) else s
  | _ => s

/-- WFE_WAKE (R379): a waiting WFE whose deadline has passed, or whose context has a kick pending, ends. -/
def State.wfeWake (s : State) : State :=
  match s.core.m.wait with
  | some (.wfe d b len) => if s.coreRuns then (wfeBody len d b s).close len else s
  | _ => s

/-- A stream event on a core whose context runs. -/
def State.streamEvent (s : State) (f : State → State) : State := if s.core.handle.isSome && s.dieUp s.core.die then f s else s

/-- POD_BARRIER_ARRIVAL (R276): a member on another package arrives; a count that differs records nothing. -/
def State.podArrival (s : State) (k : BitVec 4) (n : Nat) : State := if s.podv then (s.arrive .pd 0 k.toNat n).getD s else s

/-- Why the unit at the program counter does not decode (R43, R47), if it does not. -/
def State.illegalHere (s : State) : Option Illegal :=
  if !s.coreRuns then none
  else match s.core.rep with
    | some r => match repLegal s.levelS r.step r.mask r.cnt (rawOfParcels r.body) with
      | .error e => some e
      | .ok _ => none
    | none => match s.fetchAt s.img.pc with
      | .error _ => none
      | .ok ps => match decodeParcels s.levelS ps with
        | .error e => some e
        | .ok _ => none

/-- ILLEGAL_ENCODING (R47): the ILLEGAL fault with its reason. -/
def State.illegalEncoding (s : State) : State :=
  match s.illegalHere with
  | some e => s.deliver unitSQ (illegal e)
  | none => s

/-- FETCH_FAULT (R126, R315): the fault of the fetch, at the unit's address. -/
def State.fetchFault (s : State) : State :=
  if !s.coreRuns || s.core.rep.isSome then s
  else match s.fetchAt s.img.pc with
    | .error st => s.deliver unitSQ st
    | .ok _ => s

/-- The fetch of the unit at the program counter reaches the pages it lies in (R321, R325), whose translations the core then holds. A
repetition of a REP unit is not fetched again. -/
def State.noteFetch (s : State) : State :=
  if s.core.rep.isSome then s
  else match s.fetchAt s.img.pc with
    | .error _ => s
    | .ok ps =>
      let at_ := (List.range ps.length).filterMap (fun i => match s.translate .fetch (s.img.pc.toNat + 4 * i) with
        | .ok (.mem pa) => some pa
        | _ => none)
      (at_.foldl (fun t pa => t.learn pa 4) s).noteLines ((at_.flatMap (fun pa => linesOf pa 4)).dedup)

/-! Errors in the register operands of an instruction (R354, code 27). -/

/-- The registers that a source takes beside the destination of the instruction (R182, R188). -/
def sourceRegs (w : Row) (r : Raw) (second : Bool) : Nat :=
  match w with
  | .vcvt | .vwadd | .vwmul | .vnarrow | .vnarrowLit | .qcvt | .qdcvt => wideCount r.sfmtD r.fmtD
  | .vperm => if second then vpermRegs r.fmtD else 1
  | _ => 1

/-- Does an instruction read the whole of its vector destination, whatever its mask? -/
def readsOldVector (w : Row) : Bool :=
  [.vfma, .vfms, .vnfma, .vst, .vstLit, .vins, .vinsLit, .vpush, .vpushLit, .lq, .lqLit, .ldq, .ldqLit, .lqrep, .lqrepLit, .scpop, .scpopLit,
    .vaor, .vaadd, .vamax].contains w

/-- Does an instruction under a mask give inactive elements something else than their old value? -/
def dropsInactive (w : Row) : Bool := [.vsel, .vcompress, .vexpand, .vredsum, .vredmax, .vredmin, .vscan].contains w

/-- The runs of the register space that hold the operands that an instruction reads from named registers (R58). -/
def State.operandRuns (s : State) (w : Row) (f : Form) (r : Raw) : List (Nat × Nat) :=
  let vec (v : BitVec 6) (n : Nat) : List (Nat × Nat) := if v.toNat < 56 then regRuns (s.offV v.toNat) (512 * n) else []
  let src (k : Kind) (v : BitVec 6) (n : Nat) : List (Nat × Nat) :=
    match k with
    | .vector => vec v n
    | .tile => if v.toNat < 16 then regRuns (s.offT v.toNat) 4096 else []
    | _ => []
  let acc (v : BitVec 6) : List (Nat × Nat) := regRuns (s.offAcc v.toNat) 16384
  let old := if readsOldVector w || (f.d == .vector && f.c == .below 16 && r.c != 0 && !dropsInactive w) then vec r.d 1 else []
  src f.a r.a (sourceRegs w r false) ++ src f.b r.b (sourceRegs w r true) ++ old
    ++ (match w with
      | .mma | .mmal => acc r.d
      | .mmas => acc r.d ++ regRuns (s.offT r.c.toNat) 4096
      | .mmag => acc r.d ++ src f.c r.c 1
      | .mdrain | .mdrainLit => acc r.a
      | _ => [])
where
  /-- A run as it wraps at 131,072 bytes (R55). -/
  regRuns (off n : Nat) : List (Nat × Nat) := (regParts off n).filterMap (fun x => match x.1 with | .reg o => some (o, x.2) | _ => none)

/-- The unit that performs an instruction of a class (R358); the vector atomics of the sync class go to the VU (R274). -/
def classUnit (w : Row) (op : Nat) : Nat :=
  if [.vaor, .vaadd, .vamax].contains w then unitVU else match op with
  | 0x31 | 0x32 => unitVU
  | 0x33 => unitMU
  | 0x34 => unitCE
  | 0x35 => unitXE
  | _ => unitAU

/-- The data error of a named register that an instruction is about to read, with its unit (R354; DESIGN CHOICE, log 59: before its own
faults). A false guard reads nothing (R37). -/
def State.operandError (s : State) (d : Decoded) : Option (Nat × Stop) :=
  if s.bad.all (fun u => u.1 != 0) then none
  else match d with
    | .rep _ _ _ => none
    | .one w r =>
      if !s.guardTrue ⟨r.g, r.gn⟩ then none
      else match findForm r with
        | .error _ => none
        | .ok f => (s.operandRuns w f r).findSome? (fun x => match s.soundReg x.1 x.2 with
          | .error e => some (classUnit w r.op.toNat, e)
          | .ok _ => none)

/-- What stops an instruction before it performs: an accepted write of its context that waits for a stack, which holds the context (R426,
R427), or a data error in its operands. -/
def State.startError (s : State) (d : Decoded) : Option (Nat × Stop) :=
  match s.writesHeld with
  | some k => some (unitSQ, .hold (.stack k) false)
  | none => s.operandError d

/-- STREAM_WRITE on the core whose turn it is (R148, R155): a context whose write waits for its stack is held there (R427). -/
def State.writeStream (s : State) (q : QReg) : State :=
  let t := s.streamWrite q
  match t.core.handle with
  | some h => t.holdPosted h
  | none => t

/-! Meanings. -/

/-- STREAM_FETCH (R140). -/
def execStreamFetch (id : BitVec 10) (q : QReg) (s : State) : Out :=
  .next (s.onCore id (fun s => s.streamEvent (fun s => s.streamFetch q)))

/-- STREAM_WRITE (R148). -/
def execStreamWrite (id : BitVec 10) (q : QReg) (s : State) : Out :=
  .next (s.onCore id (fun s => s.streamEvent (fun s => s.writeStream q)))

/-- WAITM_RECHECK (R279). -/
def execWaitmRecheck (id : BitVec 10) (s : State) : Out :=
  .next (s.onCore id (fun s => s.recheck))

/-- WAITM_PARK_TIMEOUT (R279). -/
def execWaitmParkTimeout (id : BitVec 10) (s : State) : Out :=
  .next (s.onCore id (fun s => s.waitmDue))

/-- WFE_WAKE (R379). -/
def execWfeWake (id : BitVec 10) (s : State) : Out :=
  .next (s.onCore id (fun s => s.wfeWake))

/-- POD_BARRIER_ARRIVAL (R276). -/
def execPodBarrierArrival (k : BitVec 4) (n : Nat) (s : State) : Out :=
  .next (s.podArrival k n)

/-- ILLEGAL_ENCODING (R47). -/
def execIllegalEncoding (s : State) : Out :=
  .next (s.illegalEncoding)

/-- FETCH_FAULT (R126). -/
def execFetchFault (s : State) : Out :=
  .next (s.fetchFault)

end Sys2Proof.Machine
end

