-- ==== Sys2Proof/Machine/Scalar.lean ====
section
/-!
DEFINITION. Scalar and control instructions (chapter 05): the shared computations first, then one meaning per row. The
parameter `_x` is the A bit of R38; an ordinary instruction has the same effect in either stream (R113).
-/

namespace Sys2Proof

/-- The operand width, signedness and result extension of a variant of ADD, SUB and MUL (R115). -/
def ArithVar.width : ArithVar → Nat
  | .x | .u => 64
  | .w | .wu => 32
def ArithVar.isSigned : ArithVar → Bool
  | .x | .w => true
  | .wu | .u => false

/-- The width of a DIV or REM variant (R117). -/
def DivVar.width : DivVar → Nat
  | .x | .u => 64
  | .w | .wu => 32
def DivVar.isSigned : DivVar → Bool
  | .x | .w => true
  | .u | .wu => false

/-- How many bytes LDS reads, and whether it sign-extends (R132). -/
def LdW.bytes : LdW → Nat
  | .d => 8 | .w | .wu => 4 | .h | .hu => 2 | .b | .bu => 1
def LdW.isSigned : LdW → Bool
  | .d | .w | .h | .b => true
  | .wu | .hu | .bu => false
def StW.bytes : StW → Nat
  | .d => 8 | .w => 4 | .h => 2 | .b => 1

end Sys2Proof

namespace Sys2Proof.Machine

open Sys2Proof

/-! Computations. -/

/-- Operand `a` read at a width, as signed or unsigned (R115, R117). -/
def operandAt (signed : Bool) (w : Nat) (a : Word) : Int := if signed then sextNat w a.toNat else (a.toNat % 2 ^ w : Nat)

/-- ADD, SUB and MUL of R115: the result and the flags. -/
def arith (v : ArithVar) (sat : Bool) (op : Int → Int → Int) (a b : Word) : Word × Flags :=
  let w := v.width
  let e := op (operandAt v.isSigned w a) (operandAt v.isSigned w b)
  let lo : Int := if v.isSigned then -(2 ^ (w - 1) : Nat) else 0
  let hi : Int := if v.isSigned then (2 ^ (w - 1) : Nat) - 1 else (2 ^ w : Nat) - 1
  let (e, fl) : Int × Flags :=
    if sat && decide (e < lo) then (lo, flagSF) else if sat && decide (hi < e) then (hi, flagSF) else (e, 0)
  (extendTo (v == .w) w e, fl)

/-- MULH of R116. -/
def mulHigh (v : MulhVar) (a b : Word) : Word :=
  let x : Int := if v == .u then a.toNat else a.toInt
  let y : Int := if v == .s then b.toInt else b.toNat
  BitVec.ofInt 64 (x * y / (2 ^ 64 : Nat))

/-- DIV of R117: result and flags. -/
def divide (v : DivVar) (sat : Bool) (a b : Word) : Word × Flags :=
  let w := v.width
  let x := operandAt v.isSigned w a
  let y := operandAt v.isSigned w b
  if y = 0 then (extendTo (v == .w) w (-1), flagDZ)
  else if v.isSigned && decide (x = -(2 ^ (w - 1) : Nat)) && decide (y = -1) then
    (if sat then (extendTo (v == .w) w ((2 ^ (w - 1) : Nat) - 1), flagSF) else (extendTo (v == .w) w x, flagOF))
  else (extendTo (v == .w) w (x.tdiv y), 0)

/-- REM of R117: result and flags. -/
def remainder (v : DivVar) (a b : Word) : Word × Flags :=
  let w := v.width
  let x := operandAt v.isSigned w a
  let y := operandAt v.isSigned w b
  if y = 0 then (extendTo (v == .w) w x, flagDZ) else (extendTo (v == .w) w (x.tmod y), 0)

/-- A shift in its 64-bit or `.w` variant (R120). -/
def shiftWord (op : ShiftOp) (v : WidthVar) (a b : Word) : Word :=
  match v with
  | .x => shiftBits op a (b.toNat % 64)
  | .w => (shiftBits op (a.setWidth 32) (b.toNat % 32)).signExtend 64

/-- The pattern whose bits these are, bit 0 first. -/
def ofBitList (bs : List Bool) : Word := BitVec.ofNat 64 (packElems 1 (bs.map Bool.toNat))

/-- The bits a bit-count variant looks at (R121). -/
def countedBits (v : WidthVar) (a : Word) : List Bool :=
  match v with
  | .x => bitList a
  | .w => bitList (a.setWidth 32)

/-- Leading zeros, trailing zeros, ones and the reversal of R121. -/
def clzWord (v : WidthVar) (a : Word) : Word := BitVec.ofNat 64 ((countedBits v a).reverse.takeWhile (!·)).length
def ctzWord (v : WidthVar) (a : Word) : Word := BitVec.ofNat 64 ((countedBits v a).takeWhile (!·)).length
def popcWord (v : WidthVar) (a : Word) : Word := BitVec.ofNat 64 ((countedBits v a).filter (·)).length
def brevWord (v : WidthVar) (a : Word) : Word := ofBitList (countedBits v a).reverse

/-- MIN and MAX of R122. -/
def minWord (v : SignVar) (a b : Word) : Word := if (match v with | .s => a.sle b | .u => a.ule b) then a else b
def maxWord (v : SignVar) (a b : Word) : Word := if (match v with | .s => b.sle a | .u => b.ule a) then a else b

/-- LEA of R119. -/
def leaWord (a b : Word) (c : BitVec 3) : Word := a + (b <<< c.toNat)

/-- The conditions of R123. -/
def compareWords (v : Cond) (a b : Word) : Bool :=
  match v with
  | .eq => a == b
  | .ne => a != b
  | .lt => a.slt b
  | .ge => b.sle a
  | .ltu => a.ult b
  | .geu => b.ule a
  | .le => a.sle b
  | .gt => b.slt a
  | .leu => a.ule b
  | .gtu => b.ult a
  | .any => a &&& b != 0
  | .none => a &&& b == 0

/-! Shapes of scalar instructions. -/

/-- An instruction that writes one scalar and merges flags. -/
def scalarFlags (g : Guard) (len : Nat) (d : SReg) (f : State → Word × Flags) (s : State) : Out :=
  performPure g len (fun s => (s.writeS d (f s).1).orFlags (f s).2) s

/-- An instruction that writes one scalar. -/
def scalarOp (g : Guard) (len : Nat) (d : SReg) (f : State → Word) (s : State) : Out :=
  performPure g len (fun s => s.writeS d (f s)) s

/-- An instruction that writes one predicate; its guard was read before (R65). -/
def predOp (g : Guard) (len : Nat) (d : PReg) (f : State → Bool) (s : State) : Out :=
  performPure g len (fun s => s.writeP d (f s)) s

/-- Is the target one an instruction address may hold (R126)? -/
def targetOk (t : Word) : Bool := t.extractLsb' 57 7 == 0 && t.extractLsb' 0 2 == 0

/-- Go to a target (R125, R126): the instruction-address fault, code 3, is precise on the transfer. -/
def goTo (s : State) (t : Word) : Except Stop Fate :=
  if targetOk t then .ok (.jump s t) else .error (trapAt 3 t 0)

/-- The target at a word offset from the instruction (R125). -/
def State.relative {w : Nat} (s : State) (off : BitVec w) : Word := s.img.pc + ((off.signExtend 64) <<< 2)

/-- END of R131: it waits for SCLDs that are outstanding (R160); then write streams are drained and closed, read streams closed, the
errors held back there counting as unused (R355), and the member reports its task complete. -/
def endBody (s : State) : Except Stop Fate := do
  s.requireU
  if !s.img.late.isEmpty then pure (.stay s)
  else match s.writesHeld with
  | some k => .error (.hold (.stack k) false)
  | none =>
    let s := (s.img.q.toList.map Stream.held).foldl State.countUnused s.settleStreams
    let i := { s.img with q := Vector.replicate 8 Stream.closed }
    pure (.stay { s with core := { s.core with m := { s.core.m with img := i, ended := true, wait := none } } })

/-- LDS of R132 and R133 at an effective address. -/
def loadScalar (v : LdW) (sp : Space) (d : SReg) (ea : Word) (s : State) : Except Stop State := do
  let bs ← s.loadChecked sp (some .thread) ea v.bytes
  pure ((s.touchRead sp ea.toNat v.bytes).writeS d (extendTo v.isSigned (8 * v.bytes) (natOfBytes bs)))

/-- STS of R132 and R133 at an effective address. -/
def storeScalar (v : StW) (sp : Space) (d : SReg) (ea : Word) (s : State) : Except Stop State :=
  s.settleWrites.storeChecked sp (some .thread) .write ea (bytesOfNat v.bytes (s.readS d).toNat)

/-- The privilege rule of R70: cr.frec is read and written at level S only. -/
def State.csrLevel (s : State) (c : Csr) : Except Stop Unit := if c == .frec then s.requireS else .ok ()

/-! Meanings. -/

/-- ADD (R115). -/
def execAdd (g : Guard) (_x : Bool) (d a b : SReg) (s : State) : Out :=
  scalarFlags g 4 d (fun s => arith .x false (· + ·) (s.readS a) (s.readS b)) s

/-- ADD, 64-bit form (R115). -/
def execAdd64 (g : Guard) (_x : Bool) (v : ArithVar) (sat : Bool) (d a b : SReg) (s : State) : Out :=
  scalarFlags g 8 d (fun s => arith v sat (· + ·) (s.readS a) (s.readS b)) s

/-- ADD, literal form (R115). -/
def execAdd96 (g : Guard) (_x : Bool) (v : ArithVar) (sat : Bool) (d a : SReg) (lit : BitVec 32) (s : State) : Out :=
  scalarFlags g 12 d (fun s => arith v sat (· + ·) (s.readS a) (sextLit lit)) s

/-- SUB (R115). -/
def execSub (g : Guard) (_x : Bool) (d a b : SReg) (s : State) : Out :=
  scalarFlags g 4 d (fun s => arith .x false (· - ·) (s.readS a) (s.readS b)) s

/-- SUB, 64-bit form (R115). -/
def execSub64 (g : Guard) (_x : Bool) (v : ArithVar) (sat : Bool) (d a b : SReg) (s : State) : Out :=
  scalarFlags g 8 d (fun s => arith v sat (· - ·) (s.readS a) (s.readS b)) s

/-- SUB, literal form (R115). -/
def execSub96 (g : Guard) (_x : Bool) (v : ArithVar) (sat : Bool) (d a : SReg) (lit : BitVec 32) (s : State) : Out :=
  scalarFlags g 12 d (fun s => arith v sat (· - ·) (s.readS a) (sextLit lit)) s

/-- MUL (R115). -/
def execMul (g : Guard) (_x : Bool) (d a b : SReg) (s : State) : Out :=
  scalarFlags g 4 d (fun s => arith .x false (· * ·) (s.readS a) (s.readS b)) s

/-- MUL, 64-bit form (R115). -/
def execMul64 (g : Guard) (_x : Bool) (v : ArithVar) (sat : Bool) (d a b : SReg) (s : State) : Out :=
  scalarFlags g 8 d (fun s => arith v sat (· * ·) (s.readS a) (s.readS b)) s

/-- MUL, literal form (R115). -/
def execMul96 (g : Guard) (_x : Bool) (v : ArithVar) (sat : Bool) (d a : SReg) (lit : BitVec 32) (s : State) : Out :=
  scalarFlags g 12 d (fun s => arith v sat (· * ·) (s.readS a) (sextLit lit)) s

/-- MULH (R116). -/
def execMulh (g : Guard) (d a b : SReg) (s : State) : Out :=
  scalarOp g 4 d (fun s => mulHigh .s (s.readS a) (s.readS b)) s

/-- MULH, 64-bit form (R116). -/
def execMulh64 (g : Guard) (v : MulhVar) (d a b : SReg) (s : State) : Out :=
  scalarOp g 8 d (fun s => mulHigh v (s.readS a) (s.readS b)) s

/-- MULH, literal form (R116). -/
def execMulh96 (g : Guard) (v : MulhVar) (d a : SReg) (lit : BitVec 32) (s : State) : Out :=
  scalarOp g 12 d (fun s => mulHigh v (s.readS a) (sextLit lit)) s

/-- DIV (R117). -/
def execDiv (g : Guard) (d a b : SReg) (s : State) : Out :=
  scalarFlags g 4 d (fun s => divide .x false (s.readS a) (s.readS b)) s

/-- DIV, 64-bit form (R117). -/
def execDiv64 (g : Guard) (v : DivVar) (sat : Bool) (d a b : SReg) (s : State) : Out :=
  scalarFlags g 8 d (fun s => divide v sat (s.readS a) (s.readS b)) s

/-- DIV, literal form (R117). -/
def execDiv96 (g : Guard) (v : DivVar) (sat : Bool) (d a : SReg) (lit : BitVec 32) (s : State) : Out :=
  scalarFlags g 12 d (fun s => divide v sat (s.readS a) (sextLit lit)) s

/-- REM (R117). -/
def execRem (g : Guard) (d a b : SReg) (s : State) : Out :=
  scalarFlags g 4 d (fun s => remainder .x (s.readS a) (s.readS b)) s

/-- REM, 64-bit form (R117). -/
def execRem64 (g : Guard) (v : DivVar) (d a b : SReg) (s : State) : Out :=
  scalarFlags g 8 d (fun s => remainder v (s.readS a) (s.readS b)) s

/-- REM, literal form (R117). -/
def execRem96 (g : Guard) (v : DivVar) (d a : SReg) (lit : BitVec 32) (s : State) : Out :=
  scalarFlags g 12 d (fun s => remainder v (s.readS a) (sextLit lit)) s

/-- AND (R120). -/
def execAnd (g : Guard) (_x : Bool) (d a b : SReg) (s : State) : Out :=
  scalarOp g 4 d (fun s => (s.readS a) &&& (s.readS b)) s

/-- AND, 64-bit form (R120). -/
def execAnd64 (g : Guard) (_x : Bool) (d a b : SReg) (s : State) : Out :=
  scalarOp g 8 d (fun s => (s.readS a) &&& (s.readS b)) s

/-- AND, literal form (R120). -/
def execAnd96 (g : Guard) (_x : Bool) (d a : SReg) (lit : BitVec 32) (s : State) : Out :=
  scalarOp g 12 d (fun s => (s.readS a) &&& (sextLit lit)) s

/-- OR (R120). -/
def execOr (g : Guard) (_x : Bool) (d a b : SReg) (s : State) : Out :=
  scalarOp g 4 d (fun s => (s.readS a) ||| (s.readS b)) s

/-- OR, 64-bit form (R120). -/
def execOr64 (g : Guard) (_x : Bool) (d a b : SReg) (s : State) : Out :=
  scalarOp g 8 d (fun s => (s.readS a) ||| (s.readS b)) s

/-- OR, literal form (R120). -/
def execOr96 (g : Guard) (_x : Bool) (d a : SReg) (lit : BitVec 32) (s : State) : Out :=
  scalarOp g 12 d (fun s => (s.readS a) ||| (sextLit lit)) s

/-- XOR (R120). -/
def execXor (g : Guard) (_x : Bool) (d a b : SReg) (s : State) : Out :=
  scalarOp g 4 d (fun s => (s.readS a) ^^^ (s.readS b)) s

/-- XOR, 64-bit form (R120). -/
def execXor64 (g : Guard) (_x : Bool) (d a b : SReg) (s : State) : Out :=
  scalarOp g 8 d (fun s => (s.readS a) ^^^ (s.readS b)) s

/-- XOR, literal form (R120). -/
def execXor96 (g : Guard) (_x : Bool) (d a : SReg) (lit : BitVec 32) (s : State) : Out :=
  scalarOp g 12 d (fun s => (s.readS a) ^^^ (sextLit lit)) s

/-- ANDN (R120). -/
def execAndn (g : Guard) (_x : Bool) (d a b : SReg) (s : State) : Out :=
  scalarOp g 4 d (fun s => (s.readS a) &&& ~~~(s.readS b)) s

/-- ANDN, 64-bit form (R120). -/
def execAndn64 (g : Guard) (_x : Bool) (d a b : SReg) (s : State) : Out :=
  scalarOp g 8 d (fun s => (s.readS a) &&& ~~~(s.readS b)) s

/-- ANDN, literal form (R120). -/
def execAndn96 (g : Guard) (_x : Bool) (d a : SReg) (lit : BitVec 32) (s : State) : Out :=
  scalarOp g 12 d (fun s => (s.readS a) &&& ~~~(sextLit lit)) s

/-- SHL (R120). -/
def execShl (g : Guard) (_x : Bool) (d a b : SReg) (s : State) : Out :=
  scalarOp g 4 d (fun s => shiftWord .shl .x (s.readS a) (s.readS b)) s

/-- SHL, 64-bit form (R120). -/
def execShl64 (g : Guard) (_x : Bool) (v : WidthVar) (d a b : SReg) (s : State) : Out :=
  scalarOp g 8 d (fun s => shiftWord .shl v (s.readS a) (s.readS b)) s

/-- SHL, literal form (R120). -/
def execShl96 (g : Guard) (_x : Bool) (v : WidthVar) (d a : SReg) (lit : BitVec 32) (s : State) : Out :=
  scalarOp g 12 d (fun s => shiftWord .shl v (s.readS a) (sextLit lit)) s

/-- SHR (R120). -/
def execShr (g : Guard) (_x : Bool) (d a b : SReg) (s : State) : Out :=
  scalarOp g 4 d (fun s => shiftWord .shr .x (s.readS a) (s.readS b)) s

/-- SHR, 64-bit form (R120). -/
def execShr64 (g : Guard) (_x : Bool) (v : WidthVar) (d a b : SReg) (s : State) : Out :=
  scalarOp g 8 d (fun s => shiftWord .shr v (s.readS a) (s.readS b)) s

/-- SHR, literal form (R120). -/
def execShr96 (g : Guard) (_x : Bool) (v : WidthVar) (d a : SReg) (lit : BitVec 32) (s : State) : Out :=
  scalarOp g 12 d (fun s => shiftWord .shr v (s.readS a) (sextLit lit)) s

/-- SRA (R120). -/
def execSra (g : Guard) (_x : Bool) (d a b : SReg) (s : State) : Out :=
  scalarOp g 4 d (fun s => shiftWord .sra .x (s.readS a) (s.readS b)) s

/-- SRA, 64-bit form (R120). -/
def execSra64 (g : Guard) (_x : Bool) (v : WidthVar) (d a b : SReg) (s : State) : Out :=
  scalarOp g 8 d (fun s => shiftWord .sra v (s.readS a) (s.readS b)) s

/-- SRA, literal form (R120). -/
def execSra96 (g : Guard) (_x : Bool) (v : WidthVar) (d a : SReg) (lit : BitVec 32) (s : State) : Out :=
  scalarOp g 12 d (fun s => shiftWord .sra v (s.readS a) (sextLit lit)) s

/-- ROL (R120). -/
def execRol (g : Guard) (d a b : SReg) (s : State) : Out :=
  scalarOp g 4 d (fun s => shiftWord .rol .x (s.readS a) (s.readS b)) s

/-- ROL, 64-bit form (R120). -/
def execRol64 (g : Guard) (v : WidthVar) (d a b : SReg) (s : State) : Out :=
  scalarOp g 8 d (fun s => shiftWord .rol v (s.readS a) (s.readS b)) s

/-- ROL, literal form (R120). -/
def execRol96 (g : Guard) (v : WidthVar) (d a : SReg) (lit : BitVec 32) (s : State) : Out :=
  scalarOp g 12 d (fun s => shiftWord .rol v (s.readS a) (sextLit lit)) s

/-- CLZ (R121). -/
def execClz (g : Guard) (d a : SReg) (s : State) : Out :=
  scalarOp g 4 d (fun s => clzWord .x (s.readS a)) s

/-- CLZ, 64-bit form (R121). -/
def execClz64 (g : Guard) (v : WidthVar) (d a : SReg) (s : State) : Out :=
  scalarOp g 8 d (fun s => clzWord v (s.readS a)) s

/-- CTZ (R121). -/
def execCtz (g : Guard) (d a : SReg) (s : State) : Out :=
  scalarOp g 4 d (fun s => ctzWord .x (s.readS a)) s

/-- CTZ, 64-bit form (R121). -/
def execCtz64 (g : Guard) (v : WidthVar) (d a : SReg) (s : State) : Out :=
  scalarOp g 8 d (fun s => ctzWord v (s.readS a)) s

/-- POPC (R121). -/
def execPopc (g : Guard) (d a : SReg) (s : State) : Out :=
  scalarOp g 4 d (fun s => popcWord .x (s.readS a)) s

/-- POPC, 64-bit form (R121). -/
def execPopc64 (g : Guard) (v : WidthVar) (d a : SReg) (s : State) : Out :=
  scalarOp g 8 d (fun s => popcWord v (s.readS a)) s

/-- BREV (R121). -/
def execBrev (g : Guard) (d a : SReg) (s : State) : Out :=
  scalarOp g 4 d (fun s => brevWord .x (s.readS a)) s

/-- BREV, 64-bit form (R121). -/
def execBrev64 (g : Guard) (v : WidthVar) (d a : SReg) (s : State) : Out :=
  scalarOp g 8 d (fun s => brevWord v (s.readS a)) s

/-- MIN (R122). -/
def execMin (g : Guard) (_x : Bool) (d a b : SReg) (s : State) : Out :=
  scalarOp g 4 d (fun s => minWord .s (s.readS a) (s.readS b)) s

/-- MIN, 64-bit form (R122). -/
def execMin64 (g : Guard) (_x : Bool) (v : SignVar) (d a b : SReg) (s : State) : Out :=
  scalarOp g 8 d (fun s => minWord v (s.readS a) (s.readS b)) s

/-- MIN, literal form (R122). -/
def execMin96 (g : Guard) (_x : Bool) (v : SignVar) (d a : SReg) (lit : BitVec 32) (s : State) : Out :=
  scalarOp g 12 d (fun s => minWord v (s.readS a) (sextLit lit)) s

/-- MAX (R122). -/
def execMax (g : Guard) (_x : Bool) (d a b : SReg) (s : State) : Out :=
  scalarOp g 4 d (fun s => maxWord .s (s.readS a) (s.readS b)) s

/-- MAX, 64-bit form (R122). -/
def execMax64 (g : Guard) (_x : Bool) (v : SignVar) (d a b : SReg) (s : State) : Out :=
  scalarOp g 8 d (fun s => maxWord v (s.readS a) (s.readS b)) s

/-- MAX, literal form (R122). -/
def execMax96 (g : Guard) (_x : Bool) (v : SignVar) (d a : SReg) (lit : BitVec 32) (s : State) : Out :=
  scalarOp g 12 d (fun s => maxWord v (s.readS a) (sextLit lit)) s

/-- SEL, whose 32-bit form selects p0 and so always writes sA (R122). -/
def execSel (g : Guard) (_x : Bool) (d a b : SReg) (s : State) : Out :=
  scalarOp g 4 d (fun s => if s.readP 0 then s.readS a else s.readS b) s

/-- SEL, 64-bit form (R122). -/
def execSel64 (g : Guard) (_x : Bool) (d a b : SReg) (c : PReg) (s : State) : Out :=
  scalarOp g 8 d (fun s => if s.readP c then s.readS a else s.readS b) s

/-- SEL, literal form (R122). -/
def execSel96 (g : Guard) (_x : Bool) (d a : SReg) (lit : BitVec 32) (c : PReg) (s : State) : Out :=
  scalarOp g 12 d (fun s => if s.readP c then s.readS a else sextLit lit) s

/-- MOV (R122). -/
def execMov (g : Guard) (_x : Bool) (d a : SReg) (s : State) : Out := scalarOp g 4 d (fun s => s.readS a) s

/-- MOV, 64-bit form (R122). -/
def execMov64 (g : Guard) (_x : Bool) (d a : SReg) (s : State) : Out := scalarOp g 8 d (fun s => s.readS a) s

/-- MOVI (R118). -/
def execMovi (g : Guard) (_x : Bool) (d : SReg) (imm : BitVec 12) (s : State) : Out :=
  scalarOp g 4 d (fun _ => imm.signExtend 64) s

/-- MOVI, 96-bit form: sign-extended, zero-extended, or into the upper half (R118). -/
def execMovi96 (g : Guard) (_x : Bool) (v : MoviVar) (d : SReg) (lit : BitVec 32) (s : State) : Out :=
  scalarOp g 12 d (fun s => match v with
    | .s => sextLit lit
    | .u => zextLit lit
    | .hi => lit ++ (s.readS d).extractLsb' 0 32) s

/-- ADDI (R118). -/
def execAddi (g : Guard) (_x : Bool) (d : SReg) (imm : BitVec 12) (s : State) : Out :=
  scalarOp g 4 d (fun s => s.readS d + imm.signExtend 64) s

/-- LEA, whose 32-bit form has C = 0 (R119). -/
def execLea (g : Guard) (_x : Bool) (d a b : SReg) (s : State) : Out :=
  scalarOp g 4 d (fun s => leaWord (s.readS a) (s.readS b) 0) s

/-- LEA, 64-bit form (R119). -/
def execLea64 (g : Guard) (_x : Bool) (d a b : SReg) (c : BitVec 3) (s : State) : Out :=
  scalarOp g 8 d (fun s => leaWord (s.readS a) (s.readS b) c) s

/-- LEA, literal form (R119). -/
def execLea96 (g : Guard) (_x : Bool) (d a : SReg) (lit : BitVec 32) (c : BitVec 3) (s : State) : Out :=
  scalarOp g 12 d (fun s => leaWord (s.readS a) (sextLit lit) c) s

/-- CMP, whose 32-bit form compares for equality (R123). -/
def execCmp (g : Guard) (_x : Bool) (d : PReg) (a b : SReg) (s : State) : Out :=
  predOp g 4 d (fun s => compareWords .eq (s.readS a) (s.readS b)) s

/-- CMP, 64-bit form (R123). -/
def execCmp64 (g : Guard) (_x : Bool) (v : Cond) (d : PReg) (a b : SReg) (s : State) : Out :=
  predOp g 8 d (fun s => compareWords v (s.readS a) (s.readS b)) s

/-- CMP, literal form (R123). -/
def execCmp96 (g : Guard) (_x : Bool) (v : Cond) (d : PReg) (a : SReg) (lit : BitVec 32) (s : State) : Out :=
  predOp g 12 d (fun s => compareWords v (s.readS a) (sextLit lit)) s

/-- PAND (R124). -/
def execPand (g : Guard) (_x : Bool) (d a b : PReg) (s : State) : Out :=
  predOp g 4 d (fun s => s.readP a && s.readP b) s

/-- PAND, 64-bit form (R124). -/
def execPand64 (g : Guard) (_x : Bool) (d a b : PReg) (s : State) : Out :=
  predOp g 8 d (fun s => s.readP a && s.readP b) s

/-- POR (R124). -/
def execPor (g : Guard) (_x : Bool) (d a b : PReg) (s : State) : Out :=
  predOp g 4 d (fun s => s.readP a || s.readP b) s

/-- POR, 64-bit form (R124). -/
def execPor64 (g : Guard) (_x : Bool) (d a b : PReg) (s : State) : Out :=
  predOp g 8 d (fun s => s.readP a || s.readP b) s

/-- PXOR (R124). -/
def execPxor (g : Guard) (_x : Bool) (d a b : PReg) (s : State) : Out :=
  predOp g 4 d (fun s => s.readP a != s.readP b) s

/-- PXOR, 64-bit form (R124). -/
def execPxor64 (g : Guard) (_x : Bool) (d a b : PReg) (s : State) : Out :=
  predOp g 8 d (fun s => s.readP a != s.readP b) s

/-- PNOT (R124). -/
def execPnot (g : Guard) (_x : Bool) (d a : PReg) (s : State) : Out := predOp g 4 d (fun s => !s.readP a) s

/-- PNOT, 64-bit form (R124). -/
def execPnot64 (g : Guard) (_x : Bool) (d a : PReg) (s : State) : Out := predOp g 8 d (fun s => !s.readP a) s

/-- BR (R125). -/
def execBr (g : Guard) (off : BitVec 18) (s : State) : Out := runFate unitSQ g 4 (fun s => goTo s (s.relative off)) s

/-- JMP (R125). -/
def execJmp (g : Guard) (a : SReg) (s : State) : Out := runFate unitSQ g 4 (fun s => goTo s (s.readS a)) s

/-- JMP, 64-bit form (R125). -/
def execJmp64 (g : Guard) (a : SReg) (s : State) : Out := runFate unitSQ g 8 (fun s => goTo s (s.readS a)) s

/-- JMP, literal form (R125). -/
def execJmp96 (g : Guard) (a : SReg) (lit : BitVec 32) (s : State) : Out :=
  runFate unitSQ g 12 (fun s => goTo s (s.readS a + sextLit lit)) s

/-- CALL: s63 takes the return address unless the target is at fault (R125, R126). -/
def execCall (g : Guard) (off : BitVec 18) (s : State) : Out :=
  runFate unitSQ g 4 (fun s => goTo (s.writeS 63 (s.img.pc + 4)) (s.relative off)) s

/-- RET (R125). -/
def execRet (g : Guard) (a : SReg) (s : State) : Out := runFate unitSQ g 4 (fun s => goTo s (s.readS a)) s

/-- RET, 64-bit form (R125). -/
def execRet64 (g : Guard) (a : SReg) (s : State) : Out := runFate unitSQ g 8 (fun s => goTo s (s.readS a)) s

/-- LOOP (R127). -/
def execLoop (g : Guard) (d : SReg) (off : BitVec 12) (s : State) : Out :=
  runFate unitSQ g 4 (fun s =>
    if 1 < (s.readS d).toNat then goTo (s.writeS d (s.readS d - 1)) (s.relative off)
    else .ok (.done (s.writeS d 0))) s

/-- NOP (R130). -/
def execNop (g : Guard) (_x : Bool) (s : State) : Out := performPure g 4 (fun s => s) s

/-- NOP, 64-bit form (R130). -/
def execNop64 (g : Guard) (_x : Bool) (s : State) : Out := performPure g 8 (fun s => s) s

/-- END: the task of the gang completes (TASK_COMPLETE) when every member has performed it (R131). -/
def execEndTask (g : Guard) (s : State) : Out := runFate unitSQ g 4 endBody s

/-- END, 64-bit form (R131). -/
def execEndTask64 (g : Guard) (s : State) : Out := runFate unitSQ g 8 endBody s

/-- LDS: the 32-bit form reads eight bytes of virtual memory (R132, R133). -/
def execLds (g : Guard) (d a b : SReg) (s : State) : Out :=
  perform unitSQ g 4 (fun s => loadScalar .d .virt d (s.addrOf a (s.readS b)) s) s

/-- LDS, 64-bit form (R132, R133). -/
def execLds64 (g : Guard) (v : LdW) (_cl : BitVec 4) (sp : Space) (d a b : SReg) (s : State) : Out :=
  perform unitSQ g 8 (fun s => loadScalar v sp d (s.addrOf a (s.readS b)) s) s

/-- LDS, literal form (R132, R133). -/
def execLds96 (g : Guard) (v : LdW) (_cl : BitVec 4) (sp : Space) (d a : SReg) (lit : BitVec 32) (s : State) : Out :=
  perform unitSQ g 12 (fun s => loadScalar v sp d (s.addrOf a (sextLit lit)) s) s

/-- STS: the 32-bit form writes eight bytes of virtual memory (R132, R133). -/
def execSts (g : Guard) (d a b : SReg) (s : State) : Out :=
  perform unitSQ g 4 (fun s => storeScalar .d .virt d (s.addrOf a (s.readS b)) s) s

/-- STS, 64-bit form (R132, R133). -/
def execSts64 (g : Guard) (v : StW) (_cl : BitVec 4) (sp : Space) (d a b : SReg) (s : State) : Out :=
  perform unitSQ g 8 (fun s => storeScalar v sp d (s.addrOf a (s.readS b)) s) s

/-- STS, literal form (R132, R133). -/
def execSts96 (g : Guard) (v : StW) (_cl : BitVec 4) (sp : Space) (d a : SReg) (lit : BitVec 32) (s : State) : Out :=
  perform unitSQ g 12 (fun s => storeScalar v sp d (s.addrOf a (sextLit lit)) s) s

/-- CSRR (R70, R136). -/
def execCsrr (g : Guard) (d : SReg) (csr : Csr) (s : State) : Out :=
  perform unitSQ g 4 (fun s => do
    s.csrLevel csr
    pure (s.writeS d (s.readCsr csr))) s

/-- CSRW; a register read-only at the current level is refused by the decoder (R47, R70, R136). -/
def execCsrw (g : Guard) (d : SReg) (csr : Csr) (s : State) : Out :=
  perform unitSQ g 4 (fun s => do
    s.csrLevel csr
    pure (s.writeCsr csr (s.readS d))) s

/-- REP: its successor is fetched and checked before anything takes effect, then the unit runs from the repetition at
which it stands (R39 to R42); an index past the last repetition leaves none to perform. A successor that cannot be fetched, or is
illegal, is reported at the prefix. -/
def execRep (step : BitVec 4) (mask : BitVec 3) (cnt : BitVec 7) (s : State) : Out :=
  match s.fetchAt (s.img.pc + 4) with
  | .error st => .next (s.deliver unitSQ st)
  | .ok ps =>
    match repLegal s.levelS step mask cnt (rawOfParcels ps) with
    | .error e => .next (s.deliver unitSQ (illegal e))
    | .ok _ =>
      if cnt.toNat < s.repIdx then .next ((s.setRepIdx 0).setPc (s.img.pc + 4 + BitVec.ofNat 64 (4 * ps.length))) else
      let t := s.setPc (s.img.pc + 4)
      .next { t with core := { t.core with rep := some { at_ := s.img.pc, step := step, mask := mask, cnt := cnt, body := ps } } }

end Sys2Proof.Machine
end

