-- ==== Sys2Proof/Machine/Dispatch.lean ====
section
/-!
DEFINITION. The one dispatch: one arm per constructor of Instr, each a direct call of its meaning.
-/

namespace Sys2Proof.Machine

open Sys2Proof

def exec (i : Instr) (s : State) : Host.Outcome State Fault Refusal :=
  match i with
  | .add g x d a b => Sys2Proof.Machine.execAdd g x d a b s
  | .add64 g x v sat d a b => Sys2Proof.Machine.execAdd64 g x v sat d a b s
  | .add96 g x v sat d a lit => Sys2Proof.Machine.execAdd96 g x v sat d a lit s
  | .sub g x d a b => Sys2Proof.Machine.execSub g x d a b s
  | .sub64 g x v sat d a b => Sys2Proof.Machine.execSub64 g x v sat d a b s
  | .sub96 g x v sat d a lit => Sys2Proof.Machine.execSub96 g x v sat d a lit s
  | .mul g x d a b => Sys2Proof.Machine.execMul g x d a b s
  | .mul64 g x v sat d a b => Sys2Proof.Machine.execMul64 g x v sat d a b s
  | .mul96 g x v sat d a lit => Sys2Proof.Machine.execMul96 g x v sat d a lit s
  | .mulh g d a b => Sys2Proof.Machine.execMulh g d a b s
  | .mulh64 g v d a b => Sys2Proof.Machine.execMulh64 g v d a b s
  | .mulh96 g v d a lit => Sys2Proof.Machine.execMulh96 g v d a lit s
  | .div g d a b => Sys2Proof.Machine.execDiv g d a b s
  | .div64 g v sat d a b => Sys2Proof.Machine.execDiv64 g v sat d a b s
  | .div96 g v sat d a lit => Sys2Proof.Machine.execDiv96 g v sat d a lit s
  | .rem g d a b => Sys2Proof.Machine.execRem g d a b s
  | .rem64 g v d a b => Sys2Proof.Machine.execRem64 g v d a b s
  | .rem96 g v d a lit => Sys2Proof.Machine.execRem96 g v d a lit s
  | .and g x d a b => Sys2Proof.Machine.execAnd g x d a b s
  | .and64 g x d a b => Sys2Proof.Machine.execAnd64 g x d a b s
  | .and96 g x d a lit => Sys2Proof.Machine.execAnd96 g x d a lit s
  | .or g x d a b => Sys2Proof.Machine.execOr g x d a b s
  | .or64 g x d a b => Sys2Proof.Machine.execOr64 g x d a b s
  | .or96 g x d a lit => Sys2Proof.Machine.execOr96 g x d a lit s
  | .xor g x d a b => Sys2Proof.Machine.execXor g x d a b s
  | .xor64 g x d a b => Sys2Proof.Machine.execXor64 g x d a b s
  | .xor96 g x d a lit => Sys2Proof.Machine.execXor96 g x d a lit s
  | .andn g x d a b => Sys2Proof.Machine.execAndn g x d a b s
  | .andn64 g x d a b => Sys2Proof.Machine.execAndn64 g x d a b s
  | .andn96 g x d a lit => Sys2Proof.Machine.execAndn96 g x d a lit s
  | .shl g x d a b => Sys2Proof.Machine.execShl g x d a b s
  | .shl64 g x v d a b => Sys2Proof.Machine.execShl64 g x v d a b s
  | .shl96 g x v d a lit => Sys2Proof.Machine.execShl96 g x v d a lit s
  | .shr g x d a b => Sys2Proof.Machine.execShr g x d a b s
  | .shr64 g x v d a b => Sys2Proof.Machine.execShr64 g x v d a b s
  | .shr96 g x v d a lit => Sys2Proof.Machine.execShr96 g x v d a lit s
  | .sra g x d a b => Sys2Proof.Machine.execSra g x d a b s
  | .sra64 g x v d a b => Sys2Proof.Machine.execSra64 g x v d a b s
  | .sra96 g x v d a lit => Sys2Proof.Machine.execSra96 g x v d a lit s
  | .rol g d a b => Sys2Proof.Machine.execRol g d a b s
  | .rol64 g v d a b => Sys2Proof.Machine.execRol64 g v d a b s
  | .rol96 g v d a lit => Sys2Proof.Machine.execRol96 g v d a lit s
  | .clz g d a => Sys2Proof.Machine.execClz g d a s
  | .clz64 g v d a => Sys2Proof.Machine.execClz64 g v d a s
  | .ctz g d a => Sys2Proof.Machine.execCtz g d a s
  | .ctz64 g v d a => Sys2Proof.Machine.execCtz64 g v d a s
  | .popc g d a => Sys2Proof.Machine.execPopc g d a s
  | .popc64 g v d a => Sys2Proof.Machine.execPopc64 g v d a s
  | .brev g d a => Sys2Proof.Machine.execBrev g d a s
  | .brev64 g v d a => Sys2Proof.Machine.execBrev64 g v d a s
  | .min g x d a b => Sys2Proof.Machine.execMin g x d a b s
  | .min64 g x v d a b => Sys2Proof.Machine.execMin64 g x v d a b s
  | .min96 g x v d a lit => Sys2Proof.Machine.execMin96 g x v d a lit s
  | .max g x d a b => Sys2Proof.Machine.execMax g x d a b s
  | .max64 g x v d a b => Sys2Proof.Machine.execMax64 g x v d a b s
  | .max96 g x v d a lit => Sys2Proof.Machine.execMax96 g x v d a lit s
  | .sel g x d a b => Sys2Proof.Machine.execSel g x d a b s
  | .sel64 g x d a b c => Sys2Proof.Machine.execSel64 g x d a b c s
  | .sel96 g x d a lit c => Sys2Proof.Machine.execSel96 g x d a lit c s
  | .mov g x d a => Sys2Proof.Machine.execMov g x d a s
  | .mov64 g x d a => Sys2Proof.Machine.execMov64 g x d a s
  | .movi g x d imm => Sys2Proof.Machine.execMovi g x d imm s
  | .movi96 g x v d lit => Sys2Proof.Machine.execMovi96 g x v d lit s
  | .addi g x d imm => Sys2Proof.Machine.execAddi g x d imm s
  | .lea g x d a b => Sys2Proof.Machine.execLea g x d a b s
  | .lea64 g x d a b c => Sys2Proof.Machine.execLea64 g x d a b c s
  | .lea96 g x d a lit c => Sys2Proof.Machine.execLea96 g x d a lit c s
  | .cmp g x d a b => Sys2Proof.Machine.execCmp g x d a b s
  | .cmp64 g x v d a b => Sys2Proof.Machine.execCmp64 g x v d a b s
  | .cmp96 g x v d a lit => Sys2Proof.Machine.execCmp96 g x v d a lit s
  | .pand g x d a b => Sys2Proof.Machine.execPand g x d a b s
  | .pand64 g x d a b => Sys2Proof.Machine.execPand64 g x d a b s
  | .por g x d a b => Sys2Proof.Machine.execPor g x d a b s
  | .por64 g x d a b => Sys2Proof.Machine.execPor64 g x d a b s
  | .pxor g x d a b => Sys2Proof.Machine.execPxor g x d a b s
  | .pxor64 g x d a b => Sys2Proof.Machine.execPxor64 g x d a b s
  | .pnot g x d a => Sys2Proof.Machine.execPnot g x d a s
  | .pnot64 g x d a => Sys2Proof.Machine.execPnot64 g x d a s
  | .br g off => Sys2Proof.Machine.execBr g off s
  | .jmp g a => Sys2Proof.Machine.execJmp g a s
  | .jmp64 g a => Sys2Proof.Machine.execJmp64 g a s
  | .jmp96 g a lit => Sys2Proof.Machine.execJmp96 g a lit s
  | .call g off => Sys2Proof.Machine.execCall g off s
  | .ret g a => Sys2Proof.Machine.execRet g a s
  | .ret64 g a => Sys2Proof.Machine.execRet64 g a s
  | .loop g d off => Sys2Proof.Machine.execLoop g d off s
  | .rep step mask cnt => Sys2Proof.Machine.execRep step mask cnt s
  | .nop g x => Sys2Proof.Machine.execNop g x s
  | .nop64 g x => Sys2Proof.Machine.execNop64 g x s
  | .endTask g => Sys2Proof.Machine.execEndTask g s
  | .endTask64 g => Sys2Proof.Machine.execEndTask64 g s
  | .lds g d a b => Sys2Proof.Machine.execLds g d a b s
  | .lds64 g v cl sp d a b => Sys2Proof.Machine.execLds64 g v cl sp d a b s
  | .lds96 g v cl sp d a lit => Sys2Proof.Machine.execLds96 g v cl sp d a lit s
  | .sts g d a b => Sys2Proof.Machine.execSts g d a b s
  | .sts64 g v cl sp d a b => Sys2Proof.Machine.execSts64 g v cl sp d a b s
  | .sts96 g v cl sp d a lit => Sys2Proof.Machine.execSts96 g v cl sp d a lit s
  | .csrr g d csr => Sys2Proof.Machine.execCsrr g d csr s
  | .csrw g d csr => Sys2Proof.Machine.execCsrw g d csr s
  | .shld g cl sp d a b => Sys2Proof.Machine.execShld g cl sp d a b s
  | .shldLit g cl sp d a lit => Sys2Proof.Machine.execShldLit g cl sp d a lit s
  | .shst g cl sp d a b => Sys2Proof.Machine.execShst g cl sp d a b s
  | .shstLit g cl sp d a lit => Sys2Proof.Machine.execShstLit g cl sp d a lit s
  | .shset g d b c => Sys2Proof.Machine.execShset g d b c s
  | .shsetLit g d lit c => Sys2Proof.Machine.execShsetLit g d lit c s
  | .shget g d a c => Sys2Proof.Machine.execShget g d a c s
  | .shmov g d a => Sys2Proof.Machine.execShmov g d a s
  | .openR g cl d a => Sys2Proof.Machine.execOpenR g cl d a s
  | .openW g cl d a => Sys2Proof.Machine.execOpenW g cl d a s
  | .openG g cl d a b => Sys2Proof.Machine.execOpenG g cl d a b s
  | .adv g d b => Sys2Proof.Machine.execAdv g d b s
  | .advLit g d lit => Sys2Proof.Machine.execAdvLit g d lit s
  | .close g d => Sys2Proof.Machine.execClose g d s
  | .drain g d => Sys2Proof.Machine.execDrain g d s
  | .pld g cl d a b c => Sys2Proof.Machine.execPld g cl d a b c s
  | .pldLit g cl d a lit c => Sys2Proof.Machine.execPldLit g cl d a lit c s
  | .reside g d a b c => Sys2Proof.Machine.execReside g d a b c s
  | .resideLit g d a lit c => Sys2Proof.Machine.execResideLit g d a lit c s
  | .lookahead g d b => Sys2Proof.Machine.execLookahead g d b s
  | .lookaheadLit g d lit => Sys2Proof.Machine.execLookaheadLit g d lit s
  | .posr g d a c => Sys2Proof.Machine.execPosr g d a c s
  | .qcnt g d a => Sys2Proof.Machine.execQcnt g d a s
  | .vld g cl d a b c => Sys2Proof.Machine.execVld g cl d a b c s
  | .vldLit g cl d a lit c => Sys2Proof.Machine.execVldLit g cl d a lit c s
  | .vst g cl d a b c => Sys2Proof.Machine.execVst g cl d a b c s
  | .vstLit g cl d a lit c => Sys2Proof.Machine.execVstLit g cl d a lit c s
  | .scld g cl a b => Sys2Proof.Machine.execScld g cl a b s
  | .scldLit g cl a lit => Sys2Proof.Machine.execScldLit g cl a lit s
  | .pref g a b c => Sys2Proof.Machine.execPref g a b c s
  | .prefLit g a lit c => Sys2Proof.Machine.execPrefLit g a lit c s
  | .vadd g f rm sat d a b c => Sys2Proof.Machine.execVadd g f rm sat d a b c s
  | .vaddLit g f rm sat d a lit c => Sys2Proof.Machine.execVaddLit g f rm sat d a lit c s
  | .vsub g f rm sat d a b c => Sys2Proof.Machine.execVsub g f rm sat d a b c s
  | .vsubLit g f rm sat d a lit c => Sys2Proof.Machine.execVsubLit g f rm sat d a lit c s
  | .vmul g f rm sat d a b c => Sys2Proof.Machine.execVmul g f rm sat d a b c s
  | .vmulLit g f rm sat d a lit c => Sys2Proof.Machine.execVmulLit g f rm sat d a lit c s
  | .vfma g f rm sat d a b c => Sys2Proof.Machine.execVfma g f rm sat d a b c s
  | .vfms g f rm sat d a b c => Sys2Proof.Machine.execVfms g f rm sat d a b c s
  | .vnfma g f rm sat d a b c => Sys2Proof.Machine.execVnfma g f rm sat d a b c s
  | .vmin g f d a b c => Sys2Proof.Machine.execVmin g f d a b c s
  | .vminLit g f d a lit c => Sys2Proof.Machine.execVminLit g f d a lit c s
  | .vmax g f d a b c => Sys2Proof.Machine.execVmax g f d a b c s
  | .vmaxLit g f d a lit c => Sys2Proof.Machine.execVmaxLit g f d a lit c s
  | .vabs g f sat d a c => Sys2Proof.Machine.execVabs g f sat d a c s
  | .vneg g f sat d a c => Sys2Proof.Machine.execVneg g f sat d a c s
  | .vand g f d a b c => Sys2Proof.Machine.execVand g f d a b c s
  | .vandLit g f d a lit c => Sys2Proof.Machine.execVandLit g f d a lit c s
  | .vor g f d a b c => Sys2Proof.Machine.execVor g f d a b c s
  | .vorLit g f d a lit c => Sys2Proof.Machine.execVorLit g f d a lit c s
  | .vxor g f d a b c => Sys2Proof.Machine.execVxor g f d a b c s
  | .vxorLit g f d a lit c => Sys2Proof.Machine.execVxorLit g f d a lit c s
  | .vnot g f d a c => Sys2Proof.Machine.execVnot g f d a c s
  | .vshl g f d a b c => Sys2Proof.Machine.execVshl g f d a b c s
  | .vshlLit g f d a lit c => Sys2Proof.Machine.execVshlLit g f d a lit c s
  | .vshr g f d a b c => Sys2Proof.Machine.execVshr g f d a b c s
  | .vshrLit g f d a lit c => Sys2Proof.Machine.execVshrLit g f d a lit c s
  | .vsra g f d a b c => Sys2Proof.Machine.execVsra g f d a b c s
  | .vsraLit g f d a lit c => Sys2Proof.Machine.execVsraLit g f d a lit c s
  | .vrol g f d a b c => Sys2Proof.Machine.execVrol g f d a b c s
  | .vrolLit g f d a lit c => Sys2Proof.Machine.execVrolLit g f d a lit c s
  | .vmulhi g f d a b c => Sys2Proof.Machine.execVmulhi g f d a b c s
  | .vmulhiLit g f d a lit c => Sys2Proof.Machine.execVmulhiLit g f d a lit c s
  | .vcmp g f d a b c => Sys2Proof.Machine.execVcmp g f d a b c s
  | .vcmpLit g f d a lit c => Sys2Proof.Machine.execVcmpLit g f d a lit c s
  | .vsel g f d a b c => Sys2Proof.Machine.execVsel g f d a b c s
  | .vmov g f d a c => Sys2Proof.Machine.execVmov g f d a c s
  | .vsplat g f d b c => Sys2Proof.Machine.execVsplat g f d b c s
  | .vsplatLit g f rm sat d lit c => Sys2Proof.Machine.execVsplatLit g f rm sat d lit c s
  | .viota g f d b c => Sys2Proof.Machine.execViota g f d b c s
  | .viotaLit g f d lit c => Sys2Proof.Machine.execViotaLit g f d lit c s
  | .vcvt g f sf rm sat d a => Sys2Proof.Machine.execVcvt g f sf rm sat d a s
  | .vwadd g f sf rm sat d a b => Sys2Proof.Machine.execVwadd g f sf rm sat d a b s
  | .vwmul g f sf rm sat d a b => Sys2Proof.Machine.execVwmul g f sf rm sat d a b s
  | .vnarrow g f sf rm sat d a b => Sys2Proof.Machine.execVnarrow g f sf rm sat d a b s
  | .vnarrowLit g f sf rm sat d a lit => Sys2Proof.Machine.execVnarrowLit g f sf rm sat d a lit s
  | .vredsum g f rm sat d a c => Sys2Proof.Machine.execVredsum g f rm sat d a c s
  | .vredmax g f d a c => Sys2Proof.Machine.execVredmax g f d a c s
  | .vredmin g f d a c => Sys2Proof.Machine.execVredmin g f d a c s
  | .vscan g f rm sat d a c => Sys2Proof.Machine.execVscan g f rm sat d a c s
  | .vperm g f d a b c => Sys2Proof.Machine.execVperm g f d a b c s
  | .vslide g f d a b c => Sys2Proof.Machine.execVslide g f d a b c s
  | .vslideLit g f d a lit c => Sys2Proof.Machine.execVslideLit g f d a lit c s
  | .vzip g f d a b => Sys2Proof.Machine.execVzip g f d a b s
  | .vunzip g f d a b => Sys2Proof.Machine.execVunzip g f d a b s
  | .vcompress g f d a c => Sys2Proof.Machine.execVcompress g f d a c s
  | .vexpand g f d a c => Sys2Proof.Machine.execVexpand g f d a c s
  | .vins g f d a b => Sys2Proof.Machine.execVins g f d a b s
  | .vinsLit g f d a lit => Sys2Proof.Machine.execVinsLit g f d a lit s
  | .vext g f d a b => Sys2Proof.Machine.execVext g f d a b s
  | .vextLit g f d a lit => Sys2Proof.Machine.execVextLit g f d a lit s
  | .vrcp g f rm sat d a c => Sys2Proof.Machine.execVrcp g f rm sat d a c s
  | .vrsq g f rm sat d a c => Sys2Proof.Machine.execVrsq g f rm sat d a c s
  | .vsqrt g f rm sat d a c => Sys2Proof.Machine.execVsqrt g f rm sat d a c s
  | .vexp2 g f rm sat d a c => Sys2Proof.Machine.execVexp2 g f rm sat d a c s
  | .vlog2 g f rm sat d a c => Sys2Proof.Machine.execVlog2 g f rm sat d a c s
  | .vtanh g f rm sat d a c => Sys2Proof.Machine.execVtanh g f rm sat d a c s
  | .mand g d a b => Sys2Proof.Machine.execMand g d a b s
  | .mor g d a b => Sys2Proof.Machine.execMor g d a b s
  | .mxor g d a b => Sys2Proof.Machine.execMxor g d a b s
  | .mnot g d a => Sys2Proof.Machine.execMnot g d a s
  | .mpopc g d a => Sys2Proof.Machine.execMpopc g d a s
  | .mfirst g d a => Sys2Proof.Machine.execMfirst g d a s
  | .qcvt g f sf rm d a b => Sys2Proof.Machine.execQcvt g f sf rm d a b s
  | .qdcvt g f sf rm sat d a b => Sys2Proof.Machine.execQdcvt g f sf rm sat d a b s
  | .lq g f sf sat d a b => Sys2Proof.Machine.execLq g f sf sat d a b s
  | .lqLit g f sf sat d a lit => Sys2Proof.Machine.execLqLit g f sf sat d a lit s
  | .ldq g f sf rm sat d a b => Sys2Proof.Machine.execLdq g f sf rm sat d a b s
  | .ldqLit g f sf rm sat d a lit => Sys2Proof.Machine.execLdqLit g f sf rm sat d a lit s
  | .lqrep g f sf sat d a b => Sys2Proof.Machine.execLqrep g f sf sat d a b s
  | .lqrepLit g f sf sat d a lit => Sys2Proof.Machine.execLqrepLit g f sf sat d a lit s
  | .lstat g f sf d a b => Sys2Proof.Machine.execLstat g f sf d a b s
  | .lstatLit g f sf d a lit => Sys2Proof.Machine.execLstatLit g f sf d a lit s
  | .rngseed g b => Sys2Proof.Machine.execRngseed g b s
  | .rngseedLit g lit => Sys2Proof.Machine.execRngseedLit g lit s
  | .rngget g f d c => Sys2Proof.Machine.execRngget g f d c s
  | .scpush g a b => Sys2Proof.Machine.execScpush g a b s
  | .scpushLit g a lit => Sys2Proof.Machine.execScpushLit g a lit s
  | .scpop g d b => Sys2Proof.Machine.execScpop g d b s
  | .scpopLit g d lit => Sys2Proof.Machine.execScpopLit g d lit s
  | .mma g f sat d a b => Sys2Proof.Machine.execMma g f sat d a b s
  | .mmas g f sat d a b c => Sys2Proof.Machine.execMmas g f sat d a b c s
  | .mmag g f sat d a b c => Sys2Proof.Machine.execMmag g f sat d a b c s
  | .mmal g f sat d a b => Sys2Proof.Machine.execMmal g f sat d a b s
  | .mzero g d => Sys2Proof.Machine.execMzero g d s
  | .mdrain g f rm sat sc cl sp z d a b => Sys2Proof.Machine.execMdrain g f rm sat sc cl sp z d a b s
  | .mdrainLit g f rm sat sc cl sp z d a lit => Sys2Proof.Machine.execMdrainLit g f rm sat sc cl sp z d a lit s
  | .mcfg g b => Sys2Proof.Machine.execMcfg g b s
  | .mcfgLit g lit => Sys2Proof.Machine.execMcfgLit g lit s
  | .wload g f cl sp mx ue k32 d a b => Sys2Proof.Machine.execWload g f cl sp mx ue k32 d a b s
  | .wloadLit g f cl sp mx ue k32 d a lit => Sys2Proof.Machine.execWloadLit g f cl sp mx ue k32 d a lit s
  | .wtab g cl sp a b => Sys2Proof.Machine.execWtab g cl sp a b s
  | .wtabLit g cl sp a lit => Sys2Proof.Machine.execWtabLit g cl sp a lit s
  | .wstat g d b => Sys2Proof.Machine.execWstat g d b s
  | .mstat g d b => Sys2Proof.Machine.execMstat g d b s
  | .copy g sc cl dsp ssp d a b => Sys2Proof.Machine.execCopy g sc cl dsp ssp d a b s
  | .copyLit g sc cl dsp ssp d a lit => Sys2Proof.Machine.execCopyLit g sc cl dsp ssp d a lit s
  | .copyn g sc cl d a => Sys2Proof.Machine.execCopyn g sc cl d a s
  | .gather g sc cl sp d a b => Sys2Proof.Machine.execGather g sc cl sp d a b s
  | .scatter g sc cl sp d a b => Sys2Proof.Machine.execScatter g sc cl sp d a b s
  | .xpose g f sc cl dsp ssp d a b => Sys2Proof.Machine.execXpose g f sc cl dsp ssp d a b s
  | .xposeLit g f sc cl dsp ssp d a lit => Sys2Proof.Machine.execXposeLit g f sc cl dsp ssp d a lit s
  | .cfill g f sc cl sp d a b => Sys2Proof.Machine.execCfill g f sc cl sp d a b s
  | .cfillLit g f sc cl sp d a lit => Sys2Proof.Machine.execCfillLit g f sc cl sp d a lit s
  | .phase g d b => Sys2Proof.Machine.execPhase g d b s
  | .phaseLit g d lit => Sys2Proof.Machine.execPhaseLit g d lit s
  | .vpush g cl d a b => Sys2Proof.Machine.execVpush g cl d a b s
  | .vpushLit g cl d a lit => Sys2Proof.Machine.execVpushLit g cl d a lit s
  | .cwb g a b => Sys2Proof.Machine.execCwb g a b s
  | .cwbLit g a lit => Sys2Proof.Machine.execCwbLit g a lit s
  | .cinv g a b => Sys2Proof.Machine.execCinv g a b s
  | .cinvLit g a lit => Sys2Proof.Machine.execCinvLit g a lit s
  | .fence g sc b => Sys2Proof.Machine.execFence g sc b s
  | .fenceLit g sc lit => Sys2Proof.Machine.execFenceLit g sc lit s
  | .aadd g f rm sc cl sp ord d a b => Sys2Proof.Machine.execAadd g f rm sc cl sp ord d a b s
  | .aaddLit g f rm sc cl sp ord d a lit => Sys2Proof.Machine.execAaddLit g f rm sc cl sp ord d a lit s
  | .aand g f sc cl sp ord d a b => Sys2Proof.Machine.execAand g f sc cl sp ord d a b s
  | .aandLit g f sc cl sp ord d a lit => Sys2Proof.Machine.execAandLit g f sc cl sp ord d a lit s
  | .aor g f sc cl sp ord d a b => Sys2Proof.Machine.execAor g f sc cl sp ord d a b s
  | .aorLit g f sc cl sp ord d a lit => Sys2Proof.Machine.execAorLit g f sc cl sp ord d a lit s
  | .axor g f sc cl sp ord d a b => Sys2Proof.Machine.execAxor g f sc cl sp ord d a b s
  | .axorLit g f sc cl sp ord d a lit => Sys2Proof.Machine.execAxorLit g f sc cl sp ord d a lit s
  | .amin g f sc cl sp ord d a b => Sys2Proof.Machine.execAmin g f sc cl sp ord d a b s
  | .aminLit g f sc cl sp ord d a lit => Sys2Proof.Machine.execAminLit g f sc cl sp ord d a lit s
  | .amax g f sc cl sp ord d a b => Sys2Proof.Machine.execAmax g f sc cl sp ord d a b s
  | .amaxLit g f sc cl sp ord d a lit => Sys2Proof.Machine.execAmaxLit g f sc cl sp ord d a lit s
  | .axchg g f sc cl sp ord d a b => Sys2Proof.Machine.execAxchg g f sc cl sp ord d a b s
  | .axchgLit g f sc cl sp ord d a lit => Sys2Proof.Machine.execAxchgLit g f sc cl sp ord d a lit s
  | .acas g f sc cl sp ord d a b => Sys2Proof.Machine.execAcas g f sc cl sp ord d a b s
  | .acasLit g f sc cl sp ord d a lit => Sys2Proof.Machine.execAcasLit g f sc cl sp ord d a lit s
  | .vaor g f sc cl sp m d a b => Sys2Proof.Machine.execVaor g f sc cl sp m d a b s
  | .vaadd g f sc cl sp m d a b => Sys2Proof.Machine.execVaadd g f sc cl sp m d a b s
  | .vamax g f sc cl sp m d a b => Sys2Proof.Machine.execVamax g f sc cl sp m d a b s
  | .ownGive g sc sp frm d a b => Sys2Proof.Machine.execOwnGive g sc sp frm d a b s
  | .ownTake g sp d a b => Sys2Proof.Machine.execOwnTake g sp d a b s
  | .ownTest g sp d a b => Sys2Proof.Machine.execOwnTest g sp d a b s
  | .bar g sc d a b => Sys2Proof.Machine.execBar g sc d a b s
  | .barLit g sc d a lit => Sys2Proof.Machine.execBarLit g sc d a lit s
  | .sstep g sc d a b => Sys2Proof.Machine.execSstep g sc d a b s
  | .sstepLit g sc d a lit => Sys2Proof.Machine.execSstepLit g sc d a lit s
  | .waitm g f sc cl sp cond park d a b => Sys2Proof.Machine.execWaitm g f sc cl sp cond park d a b s
  | .waitmLit g f sc cl sp cond park d a lit => Sys2Proof.Machine.execWaitmLit g f sc cl sp cond park d a lit s
  | .signal g f sc cl sp add a b => Sys2Proof.Machine.execSignal g f sc cl sp add a b s
  | .signalLit g f sc cl sp add a lit => Sys2Proof.Machine.execSignalLit g f sc cl sp add a lit s
  | .cswap g d => Sys2Proof.Machine.execCswap g d s
  | .yield g => Sys2Proof.Machine.execYield g s
  | .park g wr wt wk d => Sys2Proof.Machine.execPark g wr wt wk d s
  | .wakeat g inn b => Sys2Proof.Machine.execWakeat g inn b s
  | .wakeatLit g inn lit => Sys2Proof.Machine.execWakeatLit g inn lit s
  | .ctxnew g d a b => Sys2Proof.Machine.execCtxnew g d a b s
  | .ctxnewLit g d a lit => Sys2Proof.Machine.execCtxnewLit g d a lit s
  | .ctxfree g a => Sys2Proof.Machine.execCtxfree g a s
  | .ctxq g d a c => Sys2Proof.Machine.execCtxq g d a c s
  | .ctxset g a b c => Sys2Proof.Machine.execCtxset g a b c s
  | .ctxsetLit g a lit c => Sys2Proof.Machine.execCtxsetLit g a lit c s
  | .launch g d a b => Sys2Proof.Machine.execLaunch g d a b s
  | .launchLit g d a lit => Sys2Proof.Machine.execLaunchLit g d a lit s
  | .pgmap g d a b c => Sys2Proof.Machine.execPgmap g d a b c s
  | .pgmapLit g d a lit c => Sys2Proof.Machine.execPgmapLit g d a lit c s
  | .pgunmap g d a => Sys2Proof.Machine.execPgunmap g d a s
  | .pgunmapGrant g d a b => Sys2Proof.Machine.execPgunmapGrant g d a b s
  | .pgunmapGrantLit g d a lit => Sys2Proof.Machine.execPgunmapGrantLit g d a lit s
  | .pgpin g d a => Sys2Proof.Machine.execPgpin g d a s
  | .pgunpin g d a => Sys2Proof.Machine.execPgunpin g d a s
  | .pgmove g d a c => Sys2Proof.Machine.execPgmove g d a c s
  | .pghint g d a c => Sys2Proof.Machine.execPghint g d a c s
  | .kvalloc g d a b => Sys2Proof.Machine.execKvalloc g d a b s
  | .kvallocLit g d a lit => Sys2Proof.Machine.execKvallocLit g d a lit s
  | .kvfree g unmap d a b => Sys2Proof.Machine.execKvfree g unmap d a b s
  | .kvfreeLit g unmap d a lit => Sys2Proof.Machine.execKvfreeLit g unmap d a lit s
  | .kvappend g cl d a => Sys2Proof.Machine.execKvappend g cl d a s
  | .kvinval g cl z d a b => Sys2Proof.Machine.execKvinval g cl z d a b s
  | .kvinvalLit g cl z d a lit => Sys2Proof.Machine.execKvinvalLit g cl z d a lit s
  | .jbegin g a b => Sys2Proof.Machine.execJbegin g a b s
  | .jbeginLit g a lit => Sys2Proof.Machine.execJbeginLit g a lit s
  | .jcommit g d => Sys2Proof.Machine.execJcommit g d s
  | .jrewind g d => Sys2Proof.Machine.execJrewind g d s
  | .trap g b => Sys2Proof.Machine.execTrap g b s
  | .trapLit g lit => Sys2Proof.Machine.execTrapLit g lit s
  | .eret g => Sys2Proof.Machine.execEret g s
  | .scrub g d a => Sys2Proof.Machine.execScrub g d a s
  | .partcfg g k rd d a b => Sys2Proof.Machine.execPartcfg g k rd d a b s
  | .partcfgLit g k rd d a lit => Sys2Proof.Machine.execPartcfgLit g k rd d a lit s
  | .qoscfg g rd d a b => Sys2Proof.Machine.execQoscfg g rd d a b s
  | .qoscfgLit g rd d a lit => Sys2Proof.Machine.execQoscfgLit g rd d a lit s
  | .intpost g b => Sys2Proof.Machine.execIntpost g b s
  | .intpostLit g lit => Sys2Proof.Machine.execIntpostLit g lit s
  | .resetdom g d a c => Sys2Proof.Machine.execResetdom g d a c s
  | .tlbinv g a b => Sys2Proof.Machine.execTlbinv g a b s
  | .tlbinvLit g a lit => Sys2Proof.Machine.execTlbinvLit g a lit s
  | .rdtime g wait d => Sys2Proof.Machine.execRdtime g wait d s
  | .rdlat g clr d => Sys2Proof.Machine.execRdlat g clr d s
  | .wfe g d b => Sys2Proof.Machine.execWfe g d b s
  | .wfeLit g d lit => Sys2Proof.Machine.execWfeLit g d lit s
  | .haltc g => Sys2Proof.Machine.execHaltc g s
  | .recast g pers wait d a b => Sys2Proof.Machine.execRecast g pers wait d a b s
  | .recastLit g pers wait d a lit => Sys2Proof.Machine.execRecastLit g pers wait d a lit s
  | .lnkstat g d a c => Sys2Proof.Machine.execLnkstat g d a c s
  | .ristat g d a c => Sys2Proof.Machine.execRistat g d a c s
  | .nsend g cl d a => Sys2Proof.Machine.execNsend g cl d a s
  | .nfetch g cl d a => Sys2Proof.Machine.execNfetch g cl d a s
  | .ringstep g d a b => Sys2Proof.Machine.execRingstep g d a b s
  | .ringstepLit g d a lit => Sys2Proof.Machine.execRingstepLit g d a lit s
  | .slcut g m d => Sys2Proof.Machine.execSlcut g m d s
  | .slwait g d c => Sys2Proof.Machine.execSlwait g d c s
  | .slcommit g d b => Sys2Proof.Machine.execSlcommit g d b s
  | .slcommitLit g d lit => Sys2Proof.Machine.execSlcommitLit g d lit s
  | .slrestore g d b => Sys2Proof.Machine.execSlrestore g d b s
  | .slrestoreLit g d lit => Sys2Proof.Machine.execSlrestoreLit g d lit s
  | .slstat g d c => Sys2Proof.Machine.execSlstat g d c s
  | .errwatch g d b c => Sys2Proof.Machine.execErrwatch g d b c s
  | .errwatchLit g d lit c => Sys2Proof.Machine.execErrwatchLit g d lit c s
  | .memhint g crit d a => Sys2Proof.Machine.execMemhint g crit d a s
  | .memstat g d a c => Sys2Proof.Machine.execMemstat g d a c s
  | .qtailWrite q v => Sys2Proof.Machine.execQtailWrite q v s
  | .queueEnable q log2n part => Sys2Proof.Machine.execQueueEnable q log2n part s
  | .queueDisable q => Sys2Proof.Machine.execQueueDisable q s
  | .ovrClear q => Sys2Proof.Machine.execOvrClear q s
  | .rerrClear q => Sys2Proof.Machine.execRerrClear q s
  | .hostPartitionWrite p k v => Sys2Proof.Machine.execHostPartitionWrite p k v s
  | .podidWrite v => Sys2Proof.Machine.execPodidWrite v s
  | .pcapWrite v => Sys2Proof.Machine.execPcapWrite v s
  | .hostRegisterWrite off v => Sys2Proof.Machine.execHostRegisterWrite off v s
  | .hostMemAccess pa n data => Sys2Proof.Machine.execHostMemAccess pa n data s
  | .ualinkRequestIn grp pa n data => Sys2Proof.Machine.execUalinkRequestIn grp pa n data s
  | .remoteRmaIn grp key off n data => Sys2Proof.Machine.execRemoteRmaIn grp key off n data s
  | .timeMessage t => Sys2Proof.Machine.execTimeMessage t s
  | .packageReset => Sys2Proof.Machine.execPackageReset s
  | .functionReady k => Sys2Proof.Machine.execFunctionReady k s
  | .computeDieReady d => Sys2Proof.Machine.execComputeDieReady d s
  | .heartbeatTimeout d => Sys2Proof.Machine.execHeartbeatTimeout d s
  | .diePowerOff d => Sys2Proof.Machine.execDiePowerOff d s
  | .boundaryDown d => Sys2Proof.Machine.execBoundaryDown d s
  | .islandReturn d => Sys2Proof.Machine.execIslandReturn d s
  | .groupRequest grp wr => Sys2Proof.Machine.execGroupRequest grp wr s
  | .groupDrainDone grp => Sys2Proof.Machine.execGroupDrainDone grp s
  | .groupDrainTimeout grp => Sys2Proof.Machine.execGroupDrainTimeout grp s
  | .groupRetargeted grp => Sys2Proof.Machine.execGroupRetargeted grp s
  | .groupTrained grp => Sys2Proof.Machine.execGroupTrained grp s
  | .groupTrainFailed grp => Sys2Proof.Machine.execGroupTrainFailed grp s
  | .taskStart q => Sys2Proof.Machine.execTaskStart q s
  | .graphStart q => Sys2Proof.Machine.execGraphStart q s
  | .createRecord q => Sys2Proof.Machine.execCreateRecord q s
  | .freeRecord q => Sys2Proof.Machine.execFreeRecord q s
  | .graphNodeStart graph n => Sys2Proof.Machine.execGraphNodeStart graph n s
  | .taskComplete h => Sys2Proof.Machine.execTaskComplete h s
  | .completionWordWrite n => Sys2Proof.Machine.execCompletionWordWrite n s
  | .place d => Sys2Proof.Machine.execPlace d s
  | .standbyLoad d => Sys2Proof.Machine.execStandbyLoad d s
  | .standbyLoadDone h => Sys2Proof.Machine.execStandbyLoadDone h s
  | .sliceEnd d => Sys2Proof.Machine.execSliceEnd d s
  | .preempt d => Sys2Proof.Machine.execPreempt d s
  | .swapOut h => Sys2Proof.Machine.execSwapOut h s
  | .swapOutDone h => Sys2Proof.Machine.execSwapOutDone h s
  | .wakeTimeReached h => Sys2Proof.Machine.execWakeTimeReached h s
  | .moveStart d => Sys2Proof.Machine.execMoveStart d s
  | .moveComplete part va => Sys2Proof.Machine.execMoveComplete part va s
  | .demote d part hbm => Sys2Proof.Machine.execDemote d part hbm s
  | .wakeRecallTrigger h => Sys2Proof.Machine.execWakeRecallTrigger h s
  | .hotPagePromote part va => Sys2Proof.Machine.execHotPagePromote part va s
  | .hotWindowExpire d => Sys2Proof.Machine.execHotWindowExpire d s
  | .compact d pa => Sys2Proof.Machine.execCompact d pa s
  | .streamFetch id q => Sys2Proof.Machine.execStreamFetch id q s
  | .streamWrite id q => Sys2Proof.Machine.execStreamWrite id q s
  | .waitmRecheck id => Sys2Proof.Machine.execWaitmRecheck id s
  | .waitmParkTimeout id => Sys2Proof.Machine.execWaitmParkTimeout id s
  | .wfeWake id => Sys2Proof.Machine.execWfeWake id s
  | .ringstepTimeout id => Sys2Proof.Machine.execRingstepTimeout id s
  | .refreshDue st pc progress busy => Sys2Proof.Machine.execRefreshDue st pc progress busy s
  | .refreshEnd st pc bank => Sys2Proof.Machine.execRefreshEnd st pc bank s
  | .paybackStart st pc idle => Sys2Proof.Machine.execPaybackStart st pc idle s
  | .allbankStart st pc => Sys2Proof.Machine.execAllbankStart st pc s
  | .allbankEnd st pc => Sys2Proof.Machine.execAllbankEnd st pc s
  | .criticalTempAssert st => Sys2Proof.Machine.execCriticalTempAssert st s
  | .selfrefEnter st => Sys2Proof.Machine.execSelfrefEnter st s
  | .criticalTempDeassert st => Sys2Proof.Machine.execCriticalTempDeassert st s
  | .selfrefExitStart st => Sys2Proof.Machine.execSelfrefExitStart st s
  | .exitComplete st => Sys2Proof.Machine.execExitComplete st s
  | .errorCorrected k grp u => Sys2Proof.Machine.execErrorCorrected k grp u s
  | .watchWindowExpire => Sys2Proof.Machine.execWatchWindowExpire s
  | .cutStart => Sys2Proof.Machine.execCutStart s
  | .stopTimeout h => Sys2Proof.Machine.execStopTimeout h s
  | .stopDone => Sys2Proof.Machine.execStopDone s
  | .copyDone => Sys2Proof.Machine.execCopyDone s
  | .drainDone => Sys2Proof.Machine.execDrainDone s
  | .cutFailure cause => Sys2Proof.Machine.execCutFailure cause s
  | .restoreDone => Sys2Proof.Machine.execRestoreDone s
  | .boundaryUp d => Sys2Proof.Machine.execBoundaryUp d s
  | .recordAccept q => Sys2Proof.Machine.execRecordAccept q s
  | .restoreFailure => Sys2Proof.Machine.execRestoreFailure s
  | .perBankRefreshStart st pc bank => Sys2Proof.Machine.execPerBankRefreshStart st pc bank s
  | .podBarrierArrival k n => Sys2Proof.Machine.execPodBarrierArrival k n s
  | .illegalEncoding => Sys2Proof.Machine.execIllegalEncoding s
  | .fetchFault => Sys2Proof.Machine.execFetchFault s

end Sys2Proof.Machine
end

