-- ==== Sys2Proof/Machine/Run.lean ====
section
/-!
DEFINITION. The compiled twin of the dispatch: from a row and its fields straight to the meaning, without making the
instruction, for which Lean's run time has no object (Decode.lean). Machine/Step.lean proves the two equal.
-/

namespace Sys2Proof.Machine

open Sys2Proof

/-- The meaning of a row on the operands that its fields name. -/
def runRow (w : Row) (r : Raw) (s : State) : Out :=
  match w with
  | .add => execAdd ⟨r.g, r.gn⟩ r.abit r.d r.a r.b s
  | .add64 => execAdd64 ⟨r.g, r.gn⟩ r.abit (ArithVar.ofCode r.fn) r.sat r.d r.a r.b s
  | .add96 => execAdd96 ⟨r.g, r.gn⟩ r.abit (ArithVar.ofCode r.fn) r.sat r.d r.a r.lit s
  | .sub => execSub ⟨r.g, r.gn⟩ r.abit r.d r.a r.b s
  | .sub64 => execSub64 ⟨r.g, r.gn⟩ r.abit (ArithVar.ofCode r.fn) r.sat r.d r.a r.b s
  | .sub96 => execSub96 ⟨r.g, r.gn⟩ r.abit (ArithVar.ofCode r.fn) r.sat r.d r.a r.lit s
  | .mul => execMul ⟨r.g, r.gn⟩ r.abit r.d r.a r.b s
  | .mul64 => execMul64 ⟨r.g, r.gn⟩ r.abit (ArithVar.ofCode r.fn) r.sat r.d r.a r.b s
  | .mul96 => execMul96 ⟨r.g, r.gn⟩ r.abit (ArithVar.ofCode r.fn) r.sat r.d r.a r.lit s
  | .mulh => execMulh ⟨r.g, r.gn⟩ r.d r.a r.b s
  | .mulh64 => execMulh64 ⟨r.g, r.gn⟩ (MulhVar.ofCode r.fn) r.d r.a r.b s
  | .mulh96 => execMulh96 ⟨r.g, r.gn⟩ (MulhVar.ofCode r.fn) r.d r.a r.lit s
  | .div => execDiv ⟨r.g, r.gn⟩ r.d r.a r.b s
  | .div64 => execDiv64 ⟨r.g, r.gn⟩ (DivVar.ofCode r.fn) r.sat r.d r.a r.b s
  | .div96 => execDiv96 ⟨r.g, r.gn⟩ (DivVar.ofCode r.fn) r.sat r.d r.a r.lit s
  | .rem => execRem ⟨r.g, r.gn⟩ r.d r.a r.b s
  | .rem64 => execRem64 ⟨r.g, r.gn⟩ (DivVar.ofCode r.fn) r.d r.a r.b s
  | .rem96 => execRem96 ⟨r.g, r.gn⟩ (DivVar.ofCode r.fn) r.d r.a r.lit s
  | .and => execAnd ⟨r.g, r.gn⟩ r.abit r.d r.a r.b s
  | .and64 => execAnd64 ⟨r.g, r.gn⟩ r.abit r.d r.a r.b s
  | .and96 => execAnd96 ⟨r.g, r.gn⟩ r.abit r.d r.a r.lit s
  | .or => execOr ⟨r.g, r.gn⟩ r.abit r.d r.a r.b s
  | .or64 => execOr64 ⟨r.g, r.gn⟩ r.abit r.d r.a r.b s
  | .or96 => execOr96 ⟨r.g, r.gn⟩ r.abit r.d r.a r.lit s
  | .xor => execXor ⟨r.g, r.gn⟩ r.abit r.d r.a r.b s
  | .xor64 => execXor64 ⟨r.g, r.gn⟩ r.abit r.d r.a r.b s
  | .xor96 => execXor96 ⟨r.g, r.gn⟩ r.abit r.d r.a r.lit s
  | .andn => execAndn ⟨r.g, r.gn⟩ r.abit r.d r.a r.b s
  | .andn64 => execAndn64 ⟨r.g, r.gn⟩ r.abit r.d r.a r.b s
  | .andn96 => execAndn96 ⟨r.g, r.gn⟩ r.abit r.d r.a r.lit s
  | .shl => execShl ⟨r.g, r.gn⟩ r.abit r.d r.a r.b s
  | .shl64 => execShl64 ⟨r.g, r.gn⟩ r.abit (WidthVar.ofCode r.fn) r.d r.a r.b s
  | .shl96 => execShl96 ⟨r.g, r.gn⟩ r.abit (WidthVar.ofCode r.fn) r.d r.a r.lit s
  | .shr => execShr ⟨r.g, r.gn⟩ r.abit r.d r.a r.b s
  | .shr64 => execShr64 ⟨r.g, r.gn⟩ r.abit (WidthVar.ofCode r.fn) r.d r.a r.b s
  | .shr96 => execShr96 ⟨r.g, r.gn⟩ r.abit (WidthVar.ofCode r.fn) r.d r.a r.lit s
  | .sra => execSra ⟨r.g, r.gn⟩ r.abit r.d r.a r.b s
  | .sra64 => execSra64 ⟨r.g, r.gn⟩ r.abit (WidthVar.ofCode r.fn) r.d r.a r.b s
  | .sra96 => execSra96 ⟨r.g, r.gn⟩ r.abit (WidthVar.ofCode r.fn) r.d r.a r.lit s
  | .rol => execRol ⟨r.g, r.gn⟩ r.d r.a r.b s
  | .rol64 => execRol64 ⟨r.g, r.gn⟩ (WidthVar.ofCode r.fn) r.d r.a r.b s
  | .rol96 => execRol96 ⟨r.g, r.gn⟩ (WidthVar.ofCode r.fn) r.d r.a r.lit s
  | .clz => execClz ⟨r.g, r.gn⟩ r.d r.a s
  | .clz64 => execClz64 ⟨r.g, r.gn⟩ (WidthVar.ofCode r.fn) r.d r.a s
  | .ctz => execCtz ⟨r.g, r.gn⟩ r.d r.a s
  | .ctz64 => execCtz64 ⟨r.g, r.gn⟩ (WidthVar.ofCode r.fn) r.d r.a s
  | .popc => execPopc ⟨r.g, r.gn⟩ r.d r.a s
  | .popc64 => execPopc64 ⟨r.g, r.gn⟩ (WidthVar.ofCode r.fn) r.d r.a s
  | .brev => execBrev ⟨r.g, r.gn⟩ r.d r.a s
  | .brev64 => execBrev64 ⟨r.g, r.gn⟩ (WidthVar.ofCode r.fn) r.d r.a s
  | .min => execMin ⟨r.g, r.gn⟩ r.abit r.d r.a r.b s
  | .min64 => execMin64 ⟨r.g, r.gn⟩ r.abit (SignVar.ofCode r.fn) r.d r.a r.b s
  | .min96 => execMin96 ⟨r.g, r.gn⟩ r.abit (SignVar.ofCode r.fn) r.d r.a r.lit s
  | .max => execMax ⟨r.g, r.gn⟩ r.abit r.d r.a r.b s
  | .max64 => execMax64 ⟨r.g, r.gn⟩ r.abit (SignVar.ofCode r.fn) r.d r.a r.b s
  | .max96 => execMax96 ⟨r.g, r.gn⟩ r.abit (SignVar.ofCode r.fn) r.d r.a r.lit s
  | .sel => execSel ⟨r.g, r.gn⟩ r.abit r.d r.a r.b s
  | .sel64 => execSel64 ⟨r.g, r.gn⟩ r.abit r.d r.a r.b (r.c.setWidth 3) s
  | .sel96 => execSel96 ⟨r.g, r.gn⟩ r.abit r.d r.a r.lit (r.c.setWidth 3) s
  | .mov => execMov ⟨r.g, r.gn⟩ r.abit r.d r.a s
  | .mov64 => execMov64 ⟨r.g, r.gn⟩ r.abit r.d r.a s
  | .movi => execMovi ⟨r.g, r.gn⟩ r.abit r.d (r.b ++ r.a) s
  | .movi96 => execMovi96 ⟨r.g, r.gn⟩ r.abit (MoviVar.ofCode r.fn) r.d r.lit s
  | .addi => execAddi ⟨r.g, r.gn⟩ r.abit r.d (r.b ++ r.a) s
  | .lea => execLea ⟨r.g, r.gn⟩ r.abit r.d r.a r.b s
  | .lea64 => execLea64 ⟨r.g, r.gn⟩ r.abit r.d r.a r.b (r.c.setWidth 3) s
  | .lea96 => execLea96 ⟨r.g, r.gn⟩ r.abit r.d r.a r.lit (r.c.setWidth 3) s
  | .cmp => execCmp ⟨r.g, r.gn⟩ r.abit (r.d.setWidth 3) r.a r.b s
  | .cmp64 => execCmp64 ⟨r.g, r.gn⟩ r.abit (Cond.ofCode r.fn) (r.d.setWidth 3) r.a r.b s
  | .cmp96 => execCmp96 ⟨r.g, r.gn⟩ r.abit (Cond.ofCode r.fn) (r.d.setWidth 3) r.a r.lit s
  | .pand => execPand ⟨r.g, r.gn⟩ r.abit (r.d.setWidth 3) (r.a.setWidth 3) (r.b.setWidth 3) s
  | .pand64 => execPand64 ⟨r.g, r.gn⟩ r.abit (r.d.setWidth 3) (r.a.setWidth 3) (r.b.setWidth 3) s
  | .por => execPor ⟨r.g, r.gn⟩ r.abit (r.d.setWidth 3) (r.a.setWidth 3) (r.b.setWidth 3) s
  | .por64 => execPor64 ⟨r.g, r.gn⟩ r.abit (r.d.setWidth 3) (r.a.setWidth 3) (r.b.setWidth 3) s
  | .pxor => execPxor ⟨r.g, r.gn⟩ r.abit (r.d.setWidth 3) (r.a.setWidth 3) (r.b.setWidth 3) s
  | .pxor64 => execPxor64 ⟨r.g, r.gn⟩ r.abit (r.d.setWidth 3) (r.a.setWidth 3) (r.b.setWidth 3) s
  | .pnot => execPnot ⟨r.g, r.gn⟩ r.abit (r.d.setWidth 3) (r.a.setWidth 3) s
  | .pnot64 => execPnot64 ⟨r.g, r.gn⟩ r.abit (r.d.setWidth 3) (r.a.setWidth 3) s
  | .br => execBr ⟨r.g, r.gn⟩ (r.b ++ r.a ++ r.d) s
  | .jmp => execJmp ⟨r.g, r.gn⟩ r.a s
  | .jmp64 => execJmp64 ⟨r.g, r.gn⟩ r.a s
  | .jmp96 => execJmp96 ⟨r.g, r.gn⟩ r.a r.lit s
  | .call => execCall ⟨r.g, r.gn⟩ (r.b ++ r.a ++ r.d) s
  | .ret => execRet ⟨r.g, r.gn⟩ r.a s
  | .ret64 => execRet64 ⟨r.g, r.gn⟩ r.a s
  | .loop => execLoop ⟨r.g, r.gn⟩ r.d (r.b ++ r.a) s
  | .nop => execNop ⟨r.g, r.gn⟩ r.abit s
  | .nop64 => execNop64 ⟨r.g, r.gn⟩ r.abit s
  | .endTask => execEndTask ⟨r.g, r.gn⟩ s
  | .endTask64 => execEndTask64 ⟨r.g, r.gn⟩ s
  | .lds => execLds ⟨r.g, r.gn⟩ r.d r.a r.b s
  | .lds64 => execLds64 ⟨r.g, r.gn⟩ (LdW.ofCode r.fn) r.cl (Space.ofCode (r.c.extractLsb' 0 2)) r.d r.a r.b s
  | .lds96 => execLds96 ⟨r.g, r.gn⟩ (LdW.ofCode r.fn) r.cl (Space.ofCode (r.c.extractLsb' 0 2)) r.d r.a r.lit s
  | .sts => execSts ⟨r.g, r.gn⟩ r.d r.a r.b s
  | .sts64 => execSts64 ⟨r.g, r.gn⟩ (StW.ofCode r.fn) r.cl (Space.ofCode (r.c.extractLsb' 0 2)) r.d r.a r.b s
  | .sts96 => execSts96 ⟨r.g, r.gn⟩ (StW.ofCode r.fn) r.cl (Space.ofCode (r.c.extractLsb' 0 2)) r.d r.a r.lit s
  | .csrr => execCsrr ⟨r.g, r.gn⟩ r.d r.csrD s
  | .csrw => execCsrw ⟨r.g, r.gn⟩ r.d r.csrD s
  | .shld => execShld ⟨r.g, r.gn⟩ r.cl (Space.ofCode (r.c.extractLsb' 0 2)) (r.d.setWidth 4) r.a r.b s
  | .shldLit => execShldLit ⟨r.g, r.gn⟩ r.cl (Space.ofCode (r.c.extractLsb' 0 2)) (r.d.setWidth 4) r.a r.lit s
  | .shst => execShst ⟨r.g, r.gn⟩ r.cl (Space.ofCode (r.c.extractLsb' 0 2)) (r.d.setWidth 4) r.a r.b s
  | .shstLit => execShstLit ⟨r.g, r.gn⟩ r.cl (Space.ofCode (r.c.extractLsb' 0 2)) (r.d.setWidth 4) r.a r.lit s
  | .shset => execShset ⟨r.g, r.gn⟩ (r.d.setWidth 4) r.b (r.c.setWidth 3) s
  | .shsetLit => execShsetLit ⟨r.g, r.gn⟩ (r.d.setWidth 4) r.lit (r.c.setWidth 3) s
  | .shget => execShget ⟨r.g, r.gn⟩ r.d (r.a.setWidth 4) (r.c.setWidth 3) s
  | .shmov => execShmov ⟨r.g, r.gn⟩ (r.d.setWidth 4) (r.a.setWidth 4) s
  | .openR => execOpenR ⟨r.g, r.gn⟩ r.cl (r.d.setWidth 3) (r.a.setWidth 4) s
  | .openW => execOpenW ⟨r.g, r.gn⟩ r.cl (r.d.setWidth 3) (r.a.setWidth 4) s
  | .openG => execOpenG ⟨r.g, r.gn⟩ r.cl (r.d.setWidth 3) (r.a.setWidth 4) (r.b.setWidth 4) s
  | .adv => execAdv ⟨r.g, r.gn⟩ (r.d.setWidth 3) r.b s
  | .advLit => execAdvLit ⟨r.g, r.gn⟩ (r.d.setWidth 3) r.lit s
  | .close => execClose ⟨r.g, r.gn⟩ (r.d.setWidth 3) s
  | .drain => execDrain ⟨r.g, r.gn⟩ (r.d.setWidth 3) s
  | .pld => execPld ⟨r.g, r.gn⟩ r.cl (Fin.ofNat 56 r.d.toNat) (r.a.setWidth 4) r.b (r.c.setWidth 4) s
  | .pldLit => execPldLit ⟨r.g, r.gn⟩ r.cl (Fin.ofNat 56 r.d.toNat) (r.a.setWidth 4) r.lit (r.c.setWidth 4) s
  | .reside => execReside ⟨r.g, r.gn⟩ r.d (r.a.setWidth 4) r.b (r.c.setWidth 4) s
  | .resideLit => execResideLit ⟨r.g, r.gn⟩ r.d (r.a.setWidth 4) r.lit (r.c.setWidth 4) s
  | .lookahead => execLookahead ⟨r.g, r.gn⟩ (r.d.setWidth 3) r.b s
  | .lookaheadLit => execLookaheadLit ⟨r.g, r.gn⟩ (r.d.setWidth 3) r.lit s
  | .posr => execPosr ⟨r.g, r.gn⟩ r.d (r.a.setWidth 3) (Fin.ofNat 3 r.c.toNat) s
  | .qcnt => execQcnt ⟨r.g, r.gn⟩ r.d (r.a.setWidth 3) s
  | .vld => execVld ⟨r.g, r.gn⟩ r.cl (Fin.ofNat 56 r.d.toNat) (r.a.setWidth 4) r.b (r.c.setWidth 4) s
  | .vldLit => execVldLit ⟨r.g, r.gn⟩ r.cl (Fin.ofNat 56 r.d.toNat) (r.a.setWidth 4) r.lit (r.c.setWidth 4) s
  | .vst => execVst ⟨r.g, r.gn⟩ r.cl (Fin.ofNat 56 r.d.toNat) (r.a.setWidth 4) r.b (r.c.setWidth 4) s
  | .vstLit => execVstLit ⟨r.g, r.gn⟩ r.cl (Fin.ofNat 56 r.d.toNat) (r.a.setWidth 4) r.lit (r.c.setWidth 4) s
  | .scld => execScld ⟨r.g, r.gn⟩ r.cl (r.a.setWidth 4) r.b s
  | .scldLit => execScldLit ⟨r.g, r.gn⟩ r.cl (r.a.setWidth 4) r.lit s
  | .pref => execPref ⟨r.g, r.gn⟩ (r.a.setWidth 4) r.b (Fin.ofNat 2 r.c.toNat) s
  | .prefLit => execPrefLit ⟨r.g, r.gn⟩ (r.a.setWidth 4) r.lit (Fin.ofNat 2 r.c.toNat) s
  | .vadd => execVadd ⟨r.g, r.gn⟩ r.fmtD (Rm.ofCode r.rm) r.sat (VOp.ofCode r.d) (VOp.ofCode r.a) (VOp.ofCode r.b) (r.c.setWidth 4) s
  | .vaddLit => execVaddLit ⟨r.g, r.gn⟩ r.fmtD (Rm.ofCode r.rm) r.sat (VOp.ofCode r.d) (VOp.ofCode r.a) r.lit (r.c.setWidth 4) s
  | .vsub => execVsub ⟨r.g, r.gn⟩ r.fmtD (Rm.ofCode r.rm) r.sat (VOp.ofCode r.d) (VOp.ofCode r.a) (VOp.ofCode r.b) (r.c.setWidth 4) s
  | .vsubLit => execVsubLit ⟨r.g, r.gn⟩ r.fmtD (Rm.ofCode r.rm) r.sat (VOp.ofCode r.d) (VOp.ofCode r.a) r.lit (r.c.setWidth 4) s
  | .vmul => execVmul ⟨r.g, r.gn⟩ r.fmtD (Rm.ofCode r.rm) r.sat (VOp.ofCode r.d) (VOp.ofCode r.a) (VOp.ofCode r.b) (r.c.setWidth 4) s
  | .vmulLit => execVmulLit ⟨r.g, r.gn⟩ r.fmtD (Rm.ofCode r.rm) r.sat (VOp.ofCode r.d) (VOp.ofCode r.a) r.lit (r.c.setWidth 4) s
  | .vfma => execVfma ⟨r.g, r.gn⟩ r.fmtD (Rm.ofCode r.rm) r.sat (Fin.ofNat 56 r.d.toNat) (VOp.ofCode r.a) (VOp.ofCode r.b) (r.c.setWidth 4) s
  | .vfms => execVfms ⟨r.g, r.gn⟩ r.fmtD (Rm.ofCode r.rm) r.sat (Fin.ofNat 56 r.d.toNat) (VOp.ofCode r.a) (VOp.ofCode r.b) (r.c.setWidth 4) s
  | .vnfma => execVnfma ⟨r.g, r.gn⟩ r.fmtD (Rm.ofCode r.rm) r.sat (Fin.ofNat 56 r.d.toNat) (VOp.ofCode r.a) (VOp.ofCode r.b) (r.c.setWidth 4) s
  | .vmin => execVmin ⟨r.g, r.gn⟩ r.fmtD (VOp.ofCode r.d) (VOp.ofCode r.a) (VOp.ofCode r.b) (r.c.setWidth 4) s
  | .vminLit => execVminLit ⟨r.g, r.gn⟩ r.fmtD (VOp.ofCode r.d) (VOp.ofCode r.a) r.lit (r.c.setWidth 4) s
  | .vmax => execVmax ⟨r.g, r.gn⟩ r.fmtD (VOp.ofCode r.d) (VOp.ofCode r.a) (VOp.ofCode r.b) (r.c.setWidth 4) s
  | .vmaxLit => execVmaxLit ⟨r.g, r.gn⟩ r.fmtD (VOp.ofCode r.d) (VOp.ofCode r.a) r.lit (r.c.setWidth 4) s
  | .vabs => execVabs ⟨r.g, r.gn⟩ r.fmtD r.sat (VOp.ofCode r.d) (VOp.ofCode r.a) (r.c.setWidth 4) s
  | .vneg => execVneg ⟨r.g, r.gn⟩ r.fmtD r.sat (VOp.ofCode r.d) (VOp.ofCode r.a) (r.c.setWidth 4) s
  | .vand => execVand ⟨r.g, r.gn⟩ r.fmtD (VOp.ofCode r.d) (VOp.ofCode r.a) (VOp.ofCode r.b) (r.c.setWidth 4) s
  | .vandLit => execVandLit ⟨r.g, r.gn⟩ r.fmtD (VOp.ofCode r.d) (VOp.ofCode r.a) r.lit (r.c.setWidth 4) s
  | .vor => execVor ⟨r.g, r.gn⟩ r.fmtD (VOp.ofCode r.d) (VOp.ofCode r.a) (VOp.ofCode r.b) (r.c.setWidth 4) s
  | .vorLit => execVorLit ⟨r.g, r.gn⟩ r.fmtD (VOp.ofCode r.d) (VOp.ofCode r.a) r.lit (r.c.setWidth 4) s
  | .vxor => execVxor ⟨r.g, r.gn⟩ r.fmtD (VOp.ofCode r.d) (VOp.ofCode r.a) (VOp.ofCode r.b) (r.c.setWidth 4) s
  | .vxorLit => execVxorLit ⟨r.g, r.gn⟩ r.fmtD (VOp.ofCode r.d) (VOp.ofCode r.a) r.lit (r.c.setWidth 4) s
  | .vnot => execVnot ⟨r.g, r.gn⟩ r.fmtD (VOp.ofCode r.d) (VOp.ofCode r.a) (r.c.setWidth 4) s
  | .vshl => execVshl ⟨r.g, r.gn⟩ r.fmtD (VOp.ofCode r.d) (VOp.ofCode r.a) (VOp.ofCode r.b) (r.c.setWidth 4) s
  | .vshlLit => execVshlLit ⟨r.g, r.gn⟩ r.fmtD (VOp.ofCode r.d) (VOp.ofCode r.a) r.lit (r.c.setWidth 4) s
  | .vshr => execVshr ⟨r.g, r.gn⟩ r.fmtD (VOp.ofCode r.d) (VOp.ofCode r.a) (VOp.ofCode r.b) (r.c.setWidth 4) s
  | .vshrLit => execVshrLit ⟨r.g, r.gn⟩ r.fmtD (VOp.ofCode r.d) (VOp.ofCode r.a) r.lit (r.c.setWidth 4) s
  | .vsra => execVsra ⟨r.g, r.gn⟩ r.fmtD (VOp.ofCode r.d) (VOp.ofCode r.a) (VOp.ofCode r.b) (r.c.setWidth 4) s
  | .vsraLit => execVsraLit ⟨r.g, r.gn⟩ r.fmtD (VOp.ofCode r.d) (VOp.ofCode r.a) r.lit (r.c.setWidth 4) s
  | .vrol => execVrol ⟨r.g, r.gn⟩ r.fmtD (VOp.ofCode r.d) (VOp.ofCode r.a) (VOp.ofCode r.b) (r.c.setWidth 4) s
  | .vrolLit => execVrolLit ⟨r.g, r.gn⟩ r.fmtD (VOp.ofCode r.d) (VOp.ofCode r.a) r.lit (r.c.setWidth 4) s
  | .vmulhi => execVmulhi ⟨r.g, r.gn⟩ r.fmtD (VOp.ofCode r.d) (VOp.ofCode r.a) (VOp.ofCode r.b) (r.c.setWidth 4) s
  | .vmulhiLit => execVmulhiLit ⟨r.g, r.gn⟩ r.fmtD (VOp.ofCode r.d) (VOp.ofCode r.a) r.lit (r.c.setWidth 4) s
  | .vcmp => execVcmp ⟨r.g, r.gn⟩ r.fmtD (r.d.setWidth 4) (VOp.ofCode r.a) (VOp.ofCode r.b) (VCond.ofCode r.c) s
  | .vcmpLit => execVcmpLit ⟨r.g, r.gn⟩ r.fmtD (r.d.setWidth 4) (VOp.ofCode r.a) r.lit (VCond.ofCode r.c) s
  | .vsel => execVsel ⟨r.g, r.gn⟩ r.fmtD (VOp.ofCode r.d) (VOp.ofCode r.a) (VOp.ofCode r.b) (r.c.setWidth 4) s
  | .vmov => execVmov ⟨r.g, r.gn⟩ r.fmtD (VOp.ofCode r.d) (VOp.ofCode r.a) (r.c.setWidth 4) s
  | .vsplat => execVsplat ⟨r.g, r.gn⟩ r.fmtD (VOp.ofCode r.d) r.b (r.c.setWidth 4) s
  | .vsplatLit => execVsplatLit ⟨r.g, r.gn⟩ r.fmtD (Rm.ofCode r.rm) r.sat (VOp.ofCode r.d) r.lit (r.c.setWidth 4) s
  | .viota => execViota ⟨r.g, r.gn⟩ r.fmtD (VOp.ofCode r.d) r.b (r.c.setWidth 4) s
  | .viotaLit => execViotaLit ⟨r.g, r.gn⟩ r.fmtD (VOp.ofCode r.d) r.lit (r.c.setWidth 4) s
  | .vcvt => execVcvt ⟨r.g, r.gn⟩ r.fmtD r.sfmtD (Rm.ofCode r.rm) r.sat (VOp.ofCode r.d) (VOp.ofCode r.a) s
  | .vwadd => execVwadd ⟨r.g, r.gn⟩ r.fmtD r.sfmtD (Rm.ofCode r.rm) r.sat (VOp.ofCode r.d) (VOp.ofCode r.a) (VOp.ofCode r.b) s
  | .vwmul => execVwmul ⟨r.g, r.gn⟩ r.fmtD r.sfmtD (Rm.ofCode r.rm) r.sat (VOp.ofCode r.d) (VOp.ofCode r.a) (VOp.ofCode r.b) s
  | .vnarrow => execVnarrow ⟨r.g, r.gn⟩ r.fmtD r.sfmtD (Rm.ofCode r.rm) r.sat (VOp.ofCode r.d) (VOp.ofCode r.a) r.b s
  | .vnarrowLit => execVnarrowLit ⟨r.g, r.gn⟩ r.fmtD r.sfmtD (Rm.ofCode r.rm) r.sat (VOp.ofCode r.d) (VOp.ofCode r.a) r.lit s
  | .vredsum => execVredsum ⟨r.g, r.gn⟩ r.fmtD (Rm.ofCode r.rm) r.sat (VOp.ofCode r.d) (VOp.ofCode r.a) (r.c.setWidth 4) s
  | .vredmax => execVredmax ⟨r.g, r.gn⟩ r.fmtD (VOp.ofCode r.d) (VOp.ofCode r.a) (r.c.setWidth 4) s
  | .vredmin => execVredmin ⟨r.g, r.gn⟩ r.fmtD (VOp.ofCode r.d) (VOp.ofCode r.a) (r.c.setWidth 4) s
  | .vscan => execVscan ⟨r.g, r.gn⟩ r.fmtD (Rm.ofCode r.rm) r.sat (VOp.ofCode r.d) (VOp.ofCode r.a) (r.c.setWidth 4) s
  | .vperm => execVperm ⟨r.g, r.gn⟩ r.fmtD (VOp.ofCode r.d) (VOp.ofCode r.a) (VOp.ofCode r.b) (r.c.setWidth 4) s
  | .vslide => execVslide ⟨r.g, r.gn⟩ r.fmtD (VOp.ofCode r.d) (VOp.ofCode r.a) r.b (r.c.setWidth 4) s
  | .vslideLit => execVslideLit ⟨r.g, r.gn⟩ r.fmtD (VOp.ofCode r.d) (VOp.ofCode r.a) r.lit (r.c.setWidth 4) s
  | .vzip => execVzip ⟨r.g, r.gn⟩ r.fmtD (VOp.ofCode r.d) (VOp.ofCode r.a) (VOp.ofCode r.b) s
  | .vunzip => execVunzip ⟨r.g, r.gn⟩ r.fmtD (VOp.ofCode r.d) (VOp.ofCode r.a) (VOp.ofCode r.b) s
  | .vcompress => execVcompress ⟨r.g, r.gn⟩ r.fmtD (VOp.ofCode r.d) (VOp.ofCode r.a) (r.c.setWidth 4) s
  | .vexpand => execVexpand ⟨r.g, r.gn⟩ r.fmtD (VOp.ofCode r.d) (VOp.ofCode r.a) (r.c.setWidth 4) s
  | .vins => execVins ⟨r.g, r.gn⟩ r.fmtD (Fin.ofNat 56 r.d.toNat) r.a r.b s
  | .vinsLit => execVinsLit ⟨r.g, r.gn⟩ r.fmtD (Fin.ofNat 56 r.d.toNat) r.a r.lit s
  | .vext => execVext ⟨r.g, r.gn⟩ r.fmtD r.d (VOp.ofCode r.a) r.b s
  | .vextLit => execVextLit ⟨r.g, r.gn⟩ r.fmtD r.d (VOp.ofCode r.a) r.lit s
  | .vrcp => execVrcp ⟨r.g, r.gn⟩ r.fmtD (Rm.ofCode r.rm) r.sat (VOp.ofCode r.d) (VOp.ofCode r.a) (r.c.setWidth 4) s
  | .vrsq => execVrsq ⟨r.g, r.gn⟩ r.fmtD (Rm.ofCode r.rm) r.sat (VOp.ofCode r.d) (VOp.ofCode r.a) (r.c.setWidth 4) s
  | .vsqrt => execVsqrt ⟨r.g, r.gn⟩ r.fmtD (Rm.ofCode r.rm) r.sat (VOp.ofCode r.d) (VOp.ofCode r.a) (r.c.setWidth 4) s
  | .vexp2 => execVexp2 ⟨r.g, r.gn⟩ r.fmtD (Rm.ofCode r.rm) r.sat (VOp.ofCode r.d) (VOp.ofCode r.a) (r.c.setWidth 4) s
  | .vlog2 => execVlog2 ⟨r.g, r.gn⟩ r.fmtD (Rm.ofCode r.rm) r.sat (VOp.ofCode r.d) (VOp.ofCode r.a) (r.c.setWidth 4) s
  | .vtanh => execVtanh ⟨r.g, r.gn⟩ r.fmtD (Rm.ofCode r.rm) r.sat (VOp.ofCode r.d) (VOp.ofCode r.a) (r.c.setWidth 4) s
  | .mand => execMand ⟨r.g, r.gn⟩ (r.d.setWidth 4) (r.a.setWidth 4) (r.b.setWidth 4) s
  | .mor => execMor ⟨r.g, r.gn⟩ (r.d.setWidth 4) (r.a.setWidth 4) (r.b.setWidth 4) s
  | .mxor => execMxor ⟨r.g, r.gn⟩ (r.d.setWidth 4) (r.a.setWidth 4) (r.b.setWidth 4) s
  | .mnot => execMnot ⟨r.g, r.gn⟩ (r.d.setWidth 4) (r.a.setWidth 4) s
  | .mpopc => execMpopc ⟨r.g, r.gn⟩ r.d (r.a.setWidth 4) s
  | .mfirst => execMfirst ⟨r.g, r.gn⟩ r.d (r.a.setWidth 4) s
  | .qcvt => execQcvt ⟨r.g, r.gn⟩ r.fmtD r.sfmtD (Rm.ofCode r.rm) (VOp.ofCode r.d) (VOp.ofCode r.a) (r.b.setWidth 2) s
  | .qdcvt => execQdcvt ⟨r.g, r.gn⟩ r.fmtD r.sfmtD (Rm.ofCode r.rm) r.sat (VOp.ofCode r.d) (VOp.ofCode r.a) (r.b.setWidth 1) s
  | .lq => execLq ⟨r.g, r.gn⟩ r.fmtD r.sfmtD r.sat (Fin.ofNat 56 r.d.toNat) (VOp.ofCode r.a) r.b s
  | .lqLit => execLqLit ⟨r.g, r.gn⟩ r.fmtD r.sfmtD r.sat (Fin.ofNat 56 r.d.toNat) (VOp.ofCode r.a) r.lit s
  | .ldq => execLdq ⟨r.g, r.gn⟩ r.fmtD r.sfmtD (Rm.ofCode r.rm) r.sat (Fin.ofNat 56 r.d.toNat) (VOp.ofCode r.a) r.b s
  | .ldqLit => execLdqLit ⟨r.g, r.gn⟩ r.fmtD r.sfmtD (Rm.ofCode r.rm) r.sat (Fin.ofNat 56 r.d.toNat) (VOp.ofCode r.a) r.lit s
  | .lqrep => execLqrep ⟨r.g, r.gn⟩ r.fmtD r.sfmtD r.sat (Fin.ofNat 56 r.d.toNat) (VOp.ofCode r.a) r.b s
  | .lqrepLit => execLqrepLit ⟨r.g, r.gn⟩ r.fmtD r.sfmtD r.sat (Fin.ofNat 56 r.d.toNat) (VOp.ofCode r.a) r.lit s
  | .lstat => execLstat ⟨r.g, r.gn⟩ r.fmtD r.sfmtD r.d (VOp.ofCode r.a) r.b s
  | .lstatLit => execLstatLit ⟨r.g, r.gn⟩ r.fmtD r.sfmtD r.d (VOp.ofCode r.a) r.lit s
  | .rngseed => execRngseed ⟨r.g, r.gn⟩ r.b s
  | .rngseedLit => execRngseedLit ⟨r.g, r.gn⟩ r.lit s
  | .rngget => execRngget ⟨r.g, r.gn⟩ r.fmtD (VOp.ofCode r.d) (r.c.setWidth 4) s
  | .scpush => execScpush ⟨r.g, r.gn⟩ (VOp.ofCode r.a) r.b s
  | .scpushLit => execScpushLit ⟨r.g, r.gn⟩ (VOp.ofCode r.a) r.lit s
  | .scpop => execScpop ⟨r.g, r.gn⟩ (Fin.ofNat 56 r.d.toNat) r.b s
  | .scpopLit => execScpopLit ⟨r.g, r.gn⟩ (Fin.ofNat 56 r.d.toNat) r.lit s
  | .mma => execMma ⟨r.g, r.gn⟩ r.fmtD r.sat (r.d.setWidth 3) (TOp.ofCode r.a) (r.b.setWidth 4) s
  | .mmas => execMmas ⟨r.g, r.gn⟩ r.fmtD r.sat (r.d.setWidth 3) (TOp.ofCode r.a) (r.b.setWidth 4) (r.c.setWidth 4) s
  | .mmag => execMmag ⟨r.g, r.gn⟩ r.fmtD r.sat (r.d.setWidth 3) (r.a.setWidth 4) (r.b.setWidth 4) (VOp.ofCode r.c) s
  | .mmal => execMmal ⟨r.g, r.gn⟩ r.fmtD r.sat (r.d.setWidth 3) (TOp.ofCode r.a) (r.b.setWidth 4) s
  | .mzero => execMzero ⟨r.g, r.gn⟩ (r.d.setWidth 3) s
  | .mdrain => execMdrain ⟨r.g, r.gn⟩ r.fmtD (Rm.ofCode r.rm) r.sat (Scope.ofCode r.sc) r.cl (Space.ofCode (r.c.extractLsb' 0 2)) (r.c.getLsbD 2) (TOp.ofCode r.d) (r.a.setWidth 3) r.b s
  | .mdrainLit => execMdrainLit ⟨r.g, r.gn⟩ r.fmtD (Rm.ofCode r.rm) r.sat (Scope.ofCode r.sc) r.cl (Space.ofCode (r.c.extractLsb' 0 2)) (r.c.getLsbD 2) (TOp.ofCode r.d) (r.a.setWidth 3) r.lit s
  | .mcfg => execMcfg ⟨r.g, r.gn⟩ r.b s
  | .mcfgLit => execMcfgLit ⟨r.g, r.gn⟩ r.lit s
  | .wload => execWload ⟨r.g, r.gn⟩ r.fmtD r.cl (Space.ofCode (r.c.extractLsb' 0 2)) (r.c.getLsbD 2) (r.c.getLsbD 3) (r.c.getLsbD 4) (r.d.setWidth 4) r.a r.b s
  | .wloadLit => execWloadLit ⟨r.g, r.gn⟩ r.fmtD r.cl (Space.ofCode (r.c.extractLsb' 0 2)) (r.c.getLsbD 2) (r.c.getLsbD 3) (r.c.getLsbD 4) (r.d.setWidth 4) r.a r.lit s
  | .wtab => execWtab ⟨r.g, r.gn⟩ r.cl (Space.ofCode (r.c.extractLsb' 0 2)) r.a r.b s
  | .wtabLit => execWtabLit ⟨r.g, r.gn⟩ r.cl (Space.ofCode (r.c.extractLsb' 0 2)) r.a r.lit s
  | .wstat => execWstat ⟨r.g, r.gn⟩ r.d (r.b.setWidth 2) s
  | .mstat => execMstat ⟨r.g, r.gn⟩ r.d (Fin.ofNat 5 r.b.toNat) s
  | .copy => execCopy ⟨r.g, r.gn⟩ (Scope.ofCode r.sc) r.cl (Space.ofCode (r.c.extractLsb' 0 2)) (Space.ofCode (r.c.extractLsb' 2 2)) r.d r.a r.b s
  | .copyLit => execCopyLit ⟨r.g, r.gn⟩ (Scope.ofCode r.sc) r.cl (Space.ofCode (r.c.extractLsb' 0 2)) (Space.ofCode (r.c.extractLsb' 2 2)) r.d r.a r.lit s
  | .copyn => execCopyn ⟨r.g, r.gn⟩ (Scope.ofCode r.sc) r.cl (r.d.setWidth 4) (r.a.setWidth 4) s
  | .gather => execGather ⟨r.g, r.gn⟩ (Scope.ofCode r.sc) r.cl (Space.ofCode (r.c.extractLsb' 0 2)) r.d (r.a.setWidth 4) (r.b.setWidth 4) s
  | .scatter => execScatter ⟨r.g, r.gn⟩ (Scope.ofCode r.sc) r.cl (Space.ofCode (r.c.extractLsb' 0 2)) (r.d.setWidth 4) r.a (r.b.setWidth 4) s
  | .xpose => execXpose ⟨r.g, r.gn⟩ r.fmtD (Scope.ofCode r.sc) r.cl (Space.ofCode (r.c.extractLsb' 0 2)) (Space.ofCode (r.c.extractLsb' 2 2)) r.d r.a r.b s
  | .xposeLit => execXposeLit ⟨r.g, r.gn⟩ r.fmtD (Scope.ofCode r.sc) r.cl (Space.ofCode (r.c.extractLsb' 0 2)) (Space.ofCode (r.c.extractLsb' 2 2)) r.d r.a r.lit s
  | .cfill => execCfill ⟨r.g, r.gn⟩ r.fmtD (Scope.ofCode r.sc) r.cl (Space.ofCode (r.c.extractLsb' 0 2)) r.d r.a r.b s
  | .cfillLit => execCfillLit ⟨r.g, r.gn⟩ r.fmtD (Scope.ofCode r.sc) r.cl (Space.ofCode (r.c.extractLsb' 0 2)) r.d r.a r.lit s
  | .phase => execPhase ⟨r.g, r.gn⟩ r.d r.b s
  | .phaseLit => execPhaseLit ⟨r.g, r.gn⟩ r.d r.lit s
  | .vpush => execVpush ⟨r.g, r.gn⟩ r.cl (Fin.ofNat 56 r.d.toNat) r.a r.b s
  | .vpushLit => execVpushLit ⟨r.g, r.gn⟩ r.cl (Fin.ofNat 56 r.d.toNat) r.a r.lit s
  | .cwb => execCwb ⟨r.g, r.gn⟩ r.a r.b s
  | .cwbLit => execCwbLit ⟨r.g, r.gn⟩ r.a r.lit s
  | .cinv => execCinv ⟨r.g, r.gn⟩ r.a r.b s
  | .cinvLit => execCinvLit ⟨r.g, r.gn⟩ r.a r.lit s
  | .fence => execFence ⟨r.g, r.gn⟩ (Scope.ofCode r.sc) r.b s
  | .fenceLit => execFenceLit ⟨r.g, r.gn⟩ (Scope.ofCode r.sc) r.lit s
  | .aadd => execAadd ⟨r.g, r.gn⟩ r.fmtD (Rm.ofCode r.rm) (Scope.ofCode r.sc) r.cl (Space.ofCode (r.c.extractLsb' 0 2)) (Order.ofCode (r.c.extractLsb' 2 2)) r.d r.a r.b s
  | .aaddLit => execAaddLit ⟨r.g, r.gn⟩ r.fmtD (Rm.ofCode r.rm) (Scope.ofCode r.sc) r.cl (Space.ofCode (r.c.extractLsb' 0 2)) (Order.ofCode (r.c.extractLsb' 2 2)) r.d r.a r.lit s
  | .aand => execAand ⟨r.g, r.gn⟩ r.fmtD (Scope.ofCode r.sc) r.cl (Space.ofCode (r.c.extractLsb' 0 2)) (Order.ofCode (r.c.extractLsb' 2 2)) r.d r.a r.b s
  | .aandLit => execAandLit ⟨r.g, r.gn⟩ r.fmtD (Scope.ofCode r.sc) r.cl (Space.ofCode (r.c.extractLsb' 0 2)) (Order.ofCode (r.c.extractLsb' 2 2)) r.d r.a r.lit s
  | .aor => execAor ⟨r.g, r.gn⟩ r.fmtD (Scope.ofCode r.sc) r.cl (Space.ofCode (r.c.extractLsb' 0 2)) (Order.ofCode (r.c.extractLsb' 2 2)) r.d r.a r.b s
  | .aorLit => execAorLit ⟨r.g, r.gn⟩ r.fmtD (Scope.ofCode r.sc) r.cl (Space.ofCode (r.c.extractLsb' 0 2)) (Order.ofCode (r.c.extractLsb' 2 2)) r.d r.a r.lit s
  | .axor => execAxor ⟨r.g, r.gn⟩ r.fmtD (Scope.ofCode r.sc) r.cl (Space.ofCode (r.c.extractLsb' 0 2)) (Order.ofCode (r.c.extractLsb' 2 2)) r.d r.a r.b s
  | .axorLit => execAxorLit ⟨r.g, r.gn⟩ r.fmtD (Scope.ofCode r.sc) r.cl (Space.ofCode (r.c.extractLsb' 0 2)) (Order.ofCode (r.c.extractLsb' 2 2)) r.d r.a r.lit s
  | .amin => execAmin ⟨r.g, r.gn⟩ r.fmtD (Scope.ofCode r.sc) r.cl (Space.ofCode (r.c.extractLsb' 0 2)) (Order.ofCode (r.c.extractLsb' 2 2)) r.d r.a r.b s
  | .aminLit => execAminLit ⟨r.g, r.gn⟩ r.fmtD (Scope.ofCode r.sc) r.cl (Space.ofCode (r.c.extractLsb' 0 2)) (Order.ofCode (r.c.extractLsb' 2 2)) r.d r.a r.lit s
  | .amax => execAmax ⟨r.g, r.gn⟩ r.fmtD (Scope.ofCode r.sc) r.cl (Space.ofCode (r.c.extractLsb' 0 2)) (Order.ofCode (r.c.extractLsb' 2 2)) r.d r.a r.b s
  | .amaxLit => execAmaxLit ⟨r.g, r.gn⟩ r.fmtD (Scope.ofCode r.sc) r.cl (Space.ofCode (r.c.extractLsb' 0 2)) (Order.ofCode (r.c.extractLsb' 2 2)) r.d r.a r.lit s
  | .axchg => execAxchg ⟨r.g, r.gn⟩ r.fmtD (Scope.ofCode r.sc) r.cl (Space.ofCode (r.c.extractLsb' 0 2)) (Order.ofCode (r.c.extractLsb' 2 2)) r.d r.a r.b s
  | .axchgLit => execAxchgLit ⟨r.g, r.gn⟩ r.fmtD (Scope.ofCode r.sc) r.cl (Space.ofCode (r.c.extractLsb' 0 2)) (Order.ofCode (r.c.extractLsb' 2 2)) r.d r.a r.lit s
  | .acas => execAcas ⟨r.g, r.gn⟩ r.fmtD (Scope.ofCode r.sc) r.cl (Space.ofCode (r.c.extractLsb' 0 2)) (Order.ofCode (r.c.extractLsb' 2 2)) r.d r.a r.b s
  | .acasLit => execAcasLit ⟨r.g, r.gn⟩ r.fmtD (Scope.ofCode r.sc) r.cl (Space.ofCode (r.c.extractLsb' 0 2)) (Order.ofCode (r.c.extractLsb' 2 2)) r.d r.a r.lit s
  | .vaor => execVaor ⟨r.g, r.gn⟩ r.fmtD (Scope.ofCode r.sc) r.cl (Space.ofCode (r.c.extractLsb' 0 2)) (r.c.extractLsb' 2 4) (Fin.ofNat 56 r.d.toNat) r.a (VOp.ofCode r.b) s
  | .vaadd => execVaadd ⟨r.g, r.gn⟩ r.fmtD (Scope.ofCode r.sc) r.cl (Space.ofCode (r.c.extractLsb' 0 2)) (r.c.extractLsb' 2 4) (Fin.ofNat 56 r.d.toNat) r.a (VOp.ofCode r.b) s
  | .vamax => execVamax ⟨r.g, r.gn⟩ r.fmtD (Scope.ofCode r.sc) r.cl (Space.ofCode (r.c.extractLsb' 0 2)) (r.c.extractLsb' 2 4) (Fin.ofNat 56 r.d.toNat) r.a (VOp.ofCode r.b) s
  | .ownGive => execOwnGive ⟨r.g, r.gn⟩ (Scope.ofCode r.sc) (Space.ofCode (r.c.extractLsb' 0 2)) (Owner.ofCode (r.c.extractLsb' 2 3)) (Owner.ofCode (r.d.setWidth 3)) r.a r.b s
  | .ownTake => execOwnTake ⟨r.g, r.gn⟩ (Space.ofCode (r.c.extractLsb' 0 2)) (Owner.ofCode (r.d.setWidth 3)) r.a r.b s
  | .ownTest => execOwnTest ⟨r.g, r.gn⟩ (Space.ofCode (r.c.extractLsb' 0 2)) r.d r.a (r.b.setWidth 4) s
  | .bar => execBar ⟨r.g, r.gn⟩ (Scope.ofCode r.sc) r.d (r.a.setWidth 4) r.b s
  | .barLit => execBarLit ⟨r.g, r.gn⟩ (Scope.ofCode r.sc) r.d (r.a.setWidth 4) r.lit s
  | .sstep => execSstep ⟨r.g, r.gn⟩ (Scope.ofCode r.sc) r.d (r.a.setWidth 4) r.b s
  | .sstepLit => execSstepLit ⟨r.g, r.gn⟩ (Scope.ofCode r.sc) r.d (r.a.setWidth 4) r.lit s
  | .waitm => execWaitm ⟨r.g, r.gn⟩ r.fmtD (Scope.ofCode r.sc) r.cl (Space.ofCode (r.c.extractLsb' 0 2)) (WCond.ofCode (r.c.extractLsb' 2 3)) (r.c.getLsbD 5) r.d r.a r.b s
  | .waitmLit => execWaitmLit ⟨r.g, r.gn⟩ r.fmtD (Scope.ofCode r.sc) r.cl (Space.ofCode (r.c.extractLsb' 0 2)) (WCond.ofCode (r.c.extractLsb' 2 3)) (r.c.getLsbD 5) r.d r.a r.lit s
  | .signal => execSignal ⟨r.g, r.gn⟩ r.fmtD (Scope.ofCode r.sc) r.cl (Space.ofCode (r.c.extractLsb' 0 2)) (r.c.getLsbD 2) r.a r.b s
  | .signalLit => execSignalLit ⟨r.g, r.gn⟩ r.fmtD (Scope.ofCode r.sc) r.cl (Space.ofCode (r.c.extractLsb' 0 2)) (r.c.getLsbD 2) r.a r.lit s
  | .cswap => execCswap ⟨r.g, r.gn⟩ r.d s
  | .yield => execYield ⟨r.g, r.gn⟩ s
  | .park => execPark ⟨r.g, r.gn⟩ (r.c.getLsbD 0) (r.c.getLsbD 1) (r.c.getLsbD 2) r.d s
  | .wakeat => execWakeat ⟨r.g, r.gn⟩ (r.c.getLsbD 0) r.b s
  | .wakeatLit => execWakeatLit ⟨r.g, r.gn⟩ (r.c.getLsbD 0) r.lit s
  | .ctxnew => execCtxnew ⟨r.g, r.gn⟩ r.d r.a r.b s
  | .ctxnewLit => execCtxnewLit ⟨r.g, r.gn⟩ r.d r.a r.lit s
  | .ctxfree => execCtxfree ⟨r.g, r.gn⟩ r.a s
  | .ctxq => execCtxq ⟨r.g, r.gn⟩ r.d r.a (Fin.ofNat 7 r.c.toNat) s
  | .ctxset => execCtxset ⟨r.g, r.gn⟩ r.a r.b (r.c.setWidth 3) s
  | .ctxsetLit => execCtxsetLit ⟨r.g, r.gn⟩ r.a r.lit (r.c.setWidth 3) s
  | .launch => execLaunch ⟨r.g, r.gn⟩ r.d r.a r.b s
  | .launchLit => execLaunchLit ⟨r.g, r.gn⟩ r.d r.a r.lit s
  | .pgmap => execPgmap ⟨r.g, r.gn⟩ r.d r.a r.b r.c s
  | .pgmapLit => execPgmapLit ⟨r.g, r.gn⟩ r.d r.a r.lit r.c s
  | .pgunmap => execPgunmap ⟨r.g, r.gn⟩ r.d r.a s
  | .pgunmapGrant => execPgunmapGrant ⟨r.g, r.gn⟩ r.d r.a r.b s
  | .pgunmapGrantLit => execPgunmapGrantLit ⟨r.g, r.gn⟩ r.d r.a r.lit s
  | .pgpin => execPgpin ⟨r.g, r.gn⟩ r.d r.a s
  | .pgunpin => execPgunpin ⟨r.g, r.gn⟩ r.d r.a s
  | .pgmove => execPgmove ⟨r.g, r.gn⟩ r.d r.a (Fin.ofNat 3 r.c.toNat) s
  | .pghint => execPghint ⟨r.g, r.gn⟩ r.d r.a (Fin.ofNat 6 r.c.toNat) s
  | .kvalloc => execKvalloc ⟨r.g, r.gn⟩ r.d r.a r.b s
  | .kvallocLit => execKvallocLit ⟨r.g, r.gn⟩ r.d r.a r.lit s
  | .kvfree => execKvfree ⟨r.g, r.gn⟩ (r.c.getLsbD 0) r.d r.a r.b s
  | .kvfreeLit => execKvfreeLit ⟨r.g, r.gn⟩ (r.c.getLsbD 0) r.d r.a r.lit s
  | .kvappend => execKvappend ⟨r.g, r.gn⟩ r.cl r.d r.a s
  | .kvinval => execKvinval ⟨r.g, r.gn⟩ r.cl (r.c.getLsbD 0) r.d r.a r.b s
  | .kvinvalLit => execKvinvalLit ⟨r.g, r.gn⟩ r.cl (r.c.getLsbD 0) r.d r.a r.lit s
  | .jbegin => execJbegin ⟨r.g, r.gn⟩ r.a r.b s
  | .jbeginLit => execJbeginLit ⟨r.g, r.gn⟩ r.a r.lit s
  | .jcommit => execJcommit ⟨r.g, r.gn⟩ r.d s
  | .jrewind => execJrewind ⟨r.g, r.gn⟩ r.d s
  | .trap => execTrap ⟨r.g, r.gn⟩ r.b s
  | .trapLit => execTrapLit ⟨r.g, r.gn⟩ r.lit s
  | .eret => execEret ⟨r.g, r.gn⟩ s
  | .scrub => execScrub ⟨r.g, r.gn⟩ r.d r.a s
  | .partcfg => execPartcfg ⟨r.g, r.gn⟩ (r.c.extractLsb' 0 5) (r.c.getLsbD 5) r.d r.a r.b s
  | .partcfgLit => execPartcfgLit ⟨r.g, r.gn⟩ (r.c.extractLsb' 0 5) (r.c.getLsbD 5) r.d r.a r.lit s
  | .qoscfg => execQoscfg ⟨r.g, r.gn⟩ (r.c.getLsbD 0) r.d r.a r.b s
  | .qoscfgLit => execQoscfgLit ⟨r.g, r.gn⟩ (r.c.getLsbD 0) r.d r.a r.lit s
  | .intpost => execIntpost ⟨r.g, r.gn⟩ r.b s
  | .intpostLit => execIntpostLit ⟨r.g, r.gn⟩ r.lit s
  | .resetdom => execResetdom ⟨r.g, r.gn⟩ r.d r.a (Fin.ofNat 6 r.c.toNat) s
  | .tlbinv => execTlbinv ⟨r.g, r.gn⟩ r.a r.b s
  | .tlbinvLit => execTlbinvLit ⟨r.g, r.gn⟩ r.a r.lit s
  | .rdtime => execRdtime ⟨r.g, r.gn⟩ (r.c.getLsbD 0) r.d s
  | .rdlat => execRdlat ⟨r.g, r.gn⟩ (r.c.getLsbD 0) r.d s
  | .wfe => execWfe ⟨r.g, r.gn⟩ r.d r.b s
  | .wfeLit => execWfeLit ⟨r.g, r.gn⟩ r.d r.lit s
  | .haltc => execHaltc ⟨r.g, r.gn⟩ s
  | .recast => execRecast ⟨r.g, r.gn⟩ (Pers.ofCode (r.c.extractLsb' 0 2)) (r.c.getLsbD 2) r.d r.a r.b s
  | .recastLit => execRecastLit ⟨r.g, r.gn⟩ (Pers.ofCode (r.c.extractLsb' 0 2)) (r.c.getLsbD 2) r.d r.a r.lit s
  | .lnkstat => execLnkstat ⟨r.g, r.gn⟩ r.d r.a (Fin.ofNat 6 r.c.toNat) s
  | .ristat => execRistat ⟨r.g, r.gn⟩ r.d r.a (Fin.ofNat 4 r.c.toNat) s
  | .nsend => execNsend ⟨r.g, r.gn⟩ r.cl r.d r.a s
  | .nfetch => execNfetch ⟨r.g, r.gn⟩ r.cl r.d r.a s
  | .ringstep => execRingstep ⟨r.g, r.gn⟩ r.d r.a r.b s
  | .ringstepLit => execRingstepLit ⟨r.g, r.gn⟩ r.d r.a r.lit s
  | .slcut => execSlcut ⟨r.g, r.gn⟩ (r.c.getLsbD 0) r.d s
  | .slwait => execSlwait ⟨r.g, r.gn⟩ r.d (Fin.ofNat 2 r.c.toNat) s
  | .slcommit => execSlcommit ⟨r.g, r.gn⟩ r.d r.b s
  | .slcommitLit => execSlcommitLit ⟨r.g, r.gn⟩ r.d r.lit s
  | .slrestore => execSlrestore ⟨r.g, r.gn⟩ r.d r.b s
  | .slrestoreLit => execSlrestoreLit ⟨r.g, r.gn⟩ r.d r.lit s
  | .slstat => execSlstat ⟨r.g, r.gn⟩ r.d (r.c.setWidth 3) s
  | .errwatch => execErrwatch ⟨r.g, r.gn⟩ r.d r.b (Fin.ofNat 7 r.c.toNat) s
  | .errwatchLit => execErrwatchLit ⟨r.g, r.gn⟩ r.d r.lit (Fin.ofNat 7 r.c.toNat) s
  | .memhint => execMemhint ⟨r.g, r.gn⟩ (r.c.getLsbD 0) r.d r.a s
  | .memstat => execMemstat ⟨r.g, r.gn⟩ r.d r.a (Fin.ofNat 7 r.c.toNat) s

/-- The meaning of what was decoded. -/
def runDecoded (d : Decoded) (s : State) : Out :=
  match d with
  | .rep step mask cnt => execRep step mask cnt s
  | .one w r => runRow w r s

/-- The twin does what the dispatch does. -/
theorem exec_instr (d : Decoded) (s : State) : exec d.instr s = runDecoded d s := by
  cases d with
  | rep step mask cnt => rfl
  | one w r => cases w <;> rfl

end Sys2Proof.Machine
end

