-- ==== Sys2Proof/Machine/Step.lean ====
section
/-!
DEFINITION. One step: time passes, then the event or the instruction whose turn it is runs; and the placing of one instruction
where the next step fetches. The operations it calls stand in Machine/Fetch.lean.
-/

namespace Sys2Proof.Machine

open Sys2Proof

/-- One step of the package. -/
noncomputable def step (s : State) : Host.Outcome State Fault Refusal :=
  let t := s.tick
  match t.choose with
  | .idle => .next t
  | .skip => .next t.popEvent
  | .event i => exec i t.popEvent
  | .run d => match t.startError d with
    | none => exec d.instr t.noteFetch
    | some (unit, e) => .next (t.deliver unit e)
  | .illegal => exec .illegalEncoding t
  | .fetchFault => exec .fetchFault t
  | .noMemory pa => .fault (.noSuchAddress pa)

/-- The same step without making an instruction that is decoded: its compiled twin (Decode.lean says why). -/
def stepRun (s : State) : Host.Outcome State Fault Refusal :=
  let t := s.tick
  match t.choose with
  | .idle => .next t
  | .skip => .next t.popEvent
  | .event i => exec i t.popEvent
  | .run d => match t.startError d with
    | none => runDecoded d t.noteFetch
    | some (unit, e) => .next (t.deliver unit e)
  | .illegal => execIllegalEncoding t
  | .fetchFault => execFetchFault t
  | .noMemory pa => .fault (.noSuchAddress pa)

/-- The twins are one function. -/
@[csimp] theorem step_eq_stepRun : @step = @stepRun := by
  funext s
  unfold step stepRun
  simp only [exec_instr]
  rfl

/-- `s` with an instruction's bits stored where the next step fetches it (Fetch.lean, `State.fetchReady`). -/
def State.withFetchWord (s : State) (nbits w : Nat) : State := s.fetchReady.putUnit (bytesOfNat 12 (w % 2 ^ nbits))

end Sys2Proof.Machine
end

