-- ==== Sys2Proof/Safety.lean ====
section
/-!
DEFINITION. The terms that the statements use: a step that stops nowhere, what an instruction leaves as it was, and which
instructions have one shape.
-/

namespace Sys2Proof.Machine

open Sys2Proof

/-- A step that stops nowhere. -/
def StepsOn (s : State) : Prop := ∃ t, step s = .next t

/-- Everything outside the core that has the turn is as it was, but that a write of whole units of its register space ends the errors
there (R354, log 59). -/
def CoreOnly (s t : State) : Prop :=
  t = { s with core := t.core, bad := t.bad } ∧ (∀ u ∈ t.bad, u ∈ s.bad) ∧ ∀ u ∈ s.bad, u.1 ≠ 0 → u ∈ t.bad

/-- Everything but the scalars, predicates, status and program counter of the image, and the place in a REP unit, is as it
was; no request of the core waits for a group, and no SCLD is the latest instruction (log 31). -/
def ScalarOnly (s t : State) : Prop :=
  t = { s with core := { s.core with rep := t.core.rep, link := none, scldAt := none,
                                     m := { s.core.m with img := { s.img with s := t.img.s, p := t.img.p, status := t.img.status,
                                                                              pc := t.img.pc } } } }

/-- Every byte of memory reads as before. -/
def MemSame (s t : State) : Prop := ∀ a, t.mem.read a = s.mem.read a

/-- Every byte of memory outside a run of `n` bytes from `pa` reads as before. -/
def MemSameBut (s t : State) (pa n : Nat) : Prop := ∀ a, a < pa ∨ pa + n ≤ a → t.mem.read a = s.mem.read a

/-- Every byte of the register space outside a run of `n` bytes from `off`, which wraps at 131,072, reads as before. -/
def RegSameBut (s t : State) (off n : Nat) : Prop :=
  ∀ a, a < regBytes → n ≤ (a + regBytes - off % regBytes) % regBytes → t.img.rs.read a = s.img.rs.read a

/-- Every scalar but one reads as before. -/
def ScalarsSameBut (s t : State) (d : SReg) : Prop := ∀ r, r ≠ d → t.readS r = s.readS r

/-- Every predicate but one reads as before. -/
def PredsSameBut (s t : State) (d : PReg) : Prop := ∀ p, p ≠ d → t.readP p = s.readP p

/-- The bits of cr.status outside the repetition index and the flags of a set are as they were, and no flag is cleared (R84). -/
def StatusSameBut (s t : State) (flags : Flags) : Prop :=
  (∀ i, i < 64 → (i < 2 ∨ 15 ≤ i) → t.img.status.getLsbD i = s.img.status.getLsbD i) ∧
  (∀ i, i < 6 → flags.getLsbD i = false → t.img.status.getLsbD (i + 2) = s.img.status.getLsbD (i + 2)) ∧
  (∀ i, i < 6 → s.img.status.getLsbD (i + 2) = true → t.img.status.getLsbD (i + 2) = true)

/-! Values, as the rules of chapter 05 put them. -/

/-- A 64-bit result as a variant of ADD, SUB and MUL writes it: whole, or its low half extended (R115). -/
def fitVar (v : ArithVar) (r : Word) : Word :=
  match v with
  | .x | .u => r
  | .w => (r.setWidth 32).signExtend 64
  | .wu => (r.setWidth 32).setWidth 64

/-- An operand as a variant of ADD, SUB and MUL reads it (R115). -/
def readVar (v : ArithVar) (a : Word) : Int :=
  match v with
  | .x => a.toInt
  | .u => (a.toNat : Int)
  | .w => (a.setWidth 32).toInt
  | .wu => ((a.setWidth 32).toNat : Int)

/-- The least and the greatest result of a variant of ADD, SUB and MUL (R115). -/
def lowVar (v : ArithVar) : Int :=
  match v with
  | .x => -9223372036854775808
  | .w => -2147483648
  | .u | .wu => 0
def highVar (v : ArithVar) : Int :=
  match v with
  | .x => 9223372036854775807
  | .w => 2147483647
  | .u => 18446744073709551615
  | .wu => 4294967295

/-- What ADD, SUB and MUL with SAT write for an exact result, and the flag they raise (R115). -/
def saturated (v : ArithVar) (e : Int) : Word × Flags :=
  if e < lowVar v then (BitVec.ofInt 64 (lowVar v), flagSF)
  else if highVar v < e then (BitVec.ofInt 64 (highVar v), flagSF)
  else (BitVec.ofInt 64 e, 0)

/-- An operand as a variant of DIV and REM reads it, its result as it writes it, and its least value where it is signed (R117). -/
def readDiv (v : DivVar) (a : Word) : Int :=
  match v with
  | .x => a.toInt
  | .u => (a.toNat : Int)
  | .w => (a.setWidth 32).toInt
  | .wu => ((a.setWidth 32).toNat : Int)
def fitDiv (v : DivVar) (e : Int) : Word :=
  match v with
  | .x | .u => BitVec.ofInt 64 e
  | .w => (BitVec.ofInt 32 e).signExtend 64
  | .wu => (BitVec.ofInt 32 e).setWidth 64
def leastDiv (v : DivVar) : Option Int :=
  match v with
  | .x => some (-9223372036854775808)
  | .w => some (-2147483648)
  | .u | .wu => none

/-- The quotient and the flags of DIV (R117). -/
def quotient (v : DivVar) (sat : Bool) (x y : Int) : Word × Flags :=
  if y = 0 then (fitDiv v (-1), flagDZ)
  else if leastDiv v = some x ∧ y = -1 then (if sat then (fitDiv v (-x - 1), flagSF) else (fitDiv v x, flagOF))
  else (fitDiv v (x.tdiv y), 0)

/-- The remainder and the flags of REM (R117). -/
def modulus (v : DivVar) (x y : Int) : Word × Flags :=
  if y = 0 then (fitDiv v x, flagDZ) else (fitDiv v (x - y * x.tdiv y), 0)

/-! Instructions of one shape. -/

/-- Where an instruction of the scalar pipe puts its one result. -/
inductive Dest where
  | scalar (d : SReg) | pred (d : PReg) | none
deriving DecidableEq, Repr

/-- The destination of the register instructions of chapter 05, and the flags each may raise (R115 to R124, R130); `none` for
every other instruction. -/
def scalarShape (i : Instr) : Option (Dest × Flags) :=
  match i with
  | .add _ _ d _ _ | .sub _ _ d _ _ | .mul _ _ d _ _ => some (.scalar d, 0)
  | .add64 _ _ _ sat d _ _ | .sub64 _ _ _ sat d _ _ | .mul64 _ _ _ sat d _ _
  | .add96 _ _ _ sat d _ _ | .sub96 _ _ _ sat d _ _ | .mul96 _ _ _ sat d _ _ => some (.scalar d, if sat then flagSF else 0)
  | .mulh _ d _ _ | .mulh64 _ _ d _ _ | .mulh96 _ _ d _ _ => some (.scalar d, 0)
  | .div _ d _ _ => some (.scalar d, flagDZ ||| flagOF)
  | .div64 _ _ sat d _ _ | .div96 _ _ sat d _ _ => some (.scalar d, flagDZ ||| (if sat then flagSF else flagOF))
  | .rem _ d _ _ | .rem64 _ _ d _ _ | .rem96 _ _ d _ _ => some (.scalar d, flagDZ)
  | .and _ _ d _ _ | .and64 _ _ d _ _ | .and96 _ _ d _ _ | .or _ _ d _ _ | .or64 _ _ d _ _ | .or96 _ _ d _ _
  | .xor _ _ d _ _ | .xor64 _ _ d _ _ | .xor96 _ _ d _ _ | .andn _ _ d _ _ | .andn64 _ _ d _ _ | .andn96 _ _ d _ _ => some (.scalar d, 0)
  | .shl _ _ d _ _ | .shl64 _ _ _ d _ _ | .shl96 _ _ _ d _ _ | .shr _ _ d _ _ | .shr64 _ _ _ d _ _ | .shr96 _ _ _ d _ _
  | .sra _ _ d _ _ | .sra64 _ _ _ d _ _ | .sra96 _ _ _ d _ _ | .rol _ d _ _ | .rol64 _ _ d _ _ | .rol96 _ _ d _ _ => some (.scalar d, 0)
  | .clz _ d _ | .clz64 _ _ d _ | .ctz _ d _ | .ctz64 _ _ d _ | .popc _ d _ | .popc64 _ _ d _ | .brev _ d _ | .brev64 _ _ d _ =>
    some (.scalar d, 0)
  | .min _ _ d _ _ | .min64 _ _ _ d _ _ | .min96 _ _ _ d _ _ | .max _ _ d _ _ | .max64 _ _ _ d _ _ | .max96 _ _ _ d _ _ => some (.scalar d, 0)
  | .sel _ _ d _ _ | .sel64 _ _ d _ _ _ | .sel96 _ _ d _ _ _ | .mov _ _ d _ | .mov64 _ _ d _ => some (.scalar d, 0)
  | .movi _ _ d _ | .movi96 _ _ _ d _ | .addi _ _ d _ | .lea _ _ d _ _ | .lea64 _ _ d _ _ _ | .lea96 _ _ d _ _ _ => some (.scalar d, 0)
  | .cmp _ _ d _ _ | .cmp64 _ _ _ d _ _ | .cmp96 _ _ _ d _ _ => some (.pred d, 0)
  | .pand _ _ d _ _ | .pand64 _ _ d _ _ | .por _ _ d _ _ | .por64 _ _ d _ _ | .pxor _ _ d _ _ | .pxor64 _ _ d _ _
  | .pnot _ _ d _ | .pnot64 _ _ d _ => some (.pred d, 0)
  | .nop _ _ | .nop64 _ _ => some (.none, 0)
  | _ => none

/-! Plain memory: an address that stands for a byte of package memory with nothing in the way. -/

/-- A virtual address of the running partition that a resident page maps with the permission of an access, in memory that the
core reaches now: no window takes it, no request waits for a group, the island of its directory slice is up and a path leads there,
and its stack serves (R313, R315, R426, R428). -/
structure Mapped (s : State) (acc : Acc) (va pa : Nat) : Prop where
  noWait : s.core.link = none
  noWindow : s.windowAt s.core.part va = none
  served : s.islandUp (homeOfVa va) = true ∧ s.pathUp s.core.die (homeOfVa va) = true
  page : ∃ p, s.pageAt s.core.part va = some p ∧ p.st = .resident ∧ permits acc p.r p.w p.x = true ∧ pa = p.frame + (va - p.va)
  serves : pa < hbmTop → s.stackServes pa = true
  path : s.dieUp (homeOfPa pa) = true ∧ s.pathUp s.core.die (homeOfPa pa) = true

/-- Every slice of the page directory answers the core: all islands are up and a path leads to each (R12, R313). -/
def SlicesServe (s : State) : Prop := ∀ d, d < 4 → s.islandUp d = true ∧ s.pathUp s.core.die d = true

/-- A run of `n` bytes at `ea` of a space of LDS and STS that passes every check of R133 and stands at physical address `pa`. -/
def PlainRun (s : State) (acc : Acc) (sp : Space) (ea n pa : Nat) : Prop :=
  match sp with
  | .virt => ea + n ≤ 2 ^ 57 ∧ Mapped s acc ea pa
  | .vault => ea + n ≤ 0x10000000 ∧ pa = vaultBase s.core.die + ea ∧ s.ownerOf .vault ea = .thread
  | .ns => ea + n ≤ s.core.nsSize ∧ pa = nsBase s.core.id.toNat + ea ∧ s.ownerOf .ns ea = .thread
  | .reg => False

/-- Nothing of the core keeps a byte back: no accepted entry of a write stream waits, no accepted write of the context waits for a stack,
L1 keeps no older copy, and no journal is open. -/
structure Quiet (s : State) : Prop where
  streams : ∀ q : Fin 8, s.img.q[q].dir ≠ .write
  posted : s.core.handle.bind s.postedBy = none
  copies : ∀ x ∈ s.core.l1, x.stale = none
  journal : ∀ c, s.self = some c → c.journal = none

/-- A read by the program thread changes nothing but the lines of L1, the translations that the core holds, the pages' access records
and, where a dirty line leaves L1, the dirty bits of Slate (R406), beside what the instruction writes of the image. -/
def ReadsOnly (s t : State) : Prop :=
  t = { s with pages := t.pages, slate := { s.slate with dirty := t.slate.dirty },
               core := { s.core with l1 := t.core.l1, tlb := t.core.tlb, m := { s.core.m with img := t.img } } }

/-- A store by the program thread changes nothing but memory with the errors there, the lines of L1 of all cores, the translations
that the core holds, the pages' access records and the dirty bits of Slate, beside what the instruction writes of the image. -/
def StoresOnly (s t : State) : Prop :=
  t = { s with pages := t.pages, mem := t.mem, bad := t.bad, others := t.others, slate := { s.slate with dirty := t.slate.dirty },
               core := { s.core with l1 := t.core.l1, tlb := t.core.tlb, m := { s.core.m with img := t.img } } }

/-! Accepted writes (R148, R155): what stands in the queues of write streams and is still to be written. -/

/-- The writes of the accepted entries of one queue, oldest first. -/
def State.pendingOf (s : State) (q : Fin 8) : List (Loc × Byte × List Byte) :=
  if s.img.q[q].dir = .write then s.core.queues[q].flatMap QEntry.writes else []

/-- The writes of the accepted entries of every write stream of a set, queue by queue. -/
def State.pending (s : State) (which : Stream → Bool) : List (Loc × Byte × List Byte) :=
  (List.finRange 8).flatMap (fun q => if which s.img.q[q] then s.pendingOf q else [])

/-- Memory once writes have performed in order, each changing the bits of its bytes that its mask selects. -/
def Memory.after (m : Memory) (ws : List (Loc × Byte × List Byte)) : Memory :=
  ws.foldl (fun m w => match w.1 with
    | .mem pa => m.splice pa (blend w.2.1 (m.bytes pa w.2.2.length) w.2.2)
    | _ => m) m

/-- Writes reach package memory at dies that take them now (R390) and stacks that serve (R426), with no journal to keep and no older
copy in L1. -/
structure Lands (s : State) (ws : List (Loc × Byte × List Byte)) : Prop where
  places : ∀ w ∈ ws, ∃ pa, w.1 = .mem pa ∧ s.dieUp (homeOfPa pa) = true ∧ s.pathUp s.core.die (homeOfPa pa) = true ∧
    (pa < hbmTop → s.stackServes pa = true)
  copies : ∀ x ∈ s.core.l1, x.stale = none
  journal : ∀ c, s.self = some c → c.journal = none

/-- An error that a stream holds back is none of the data (R355). -/
def NoDataError (st : Stream) : Prop := ∀ e, st.held = some (.trap e) → e.code ≠ 27

/-- A run of memory can be read now: no unit of it holds an uncorrectable error (R417; errors of store 0 are those of the register space,
R354), and no refresh keeps its banks from a read (R420, R431). -/
def Sound (s : State) (pa n : Nat) : Prop :=
  (∀ u ∈ s.bad, u.1 = 0 ∨ 32 * u.2 + 32 ≤ pa ∨ pa + n ≤ 32 * u.2) ∧ s.bankHeld pa n = none

/-- The registers that no operand of an access or vector instruction names are as they were: scalars, predicates and status. -/
def NamedSame (s t : State) : Prop :=
  (∀ r, t.readS r = s.readS r) ∧ (∀ p, t.readP p = s.readP p) ∧ t.img.status = s.img.status

/-- No open stream names a shape register (R146). -/
def ShapeFree (s : State) (n : ShReg) : Prop :=
  ∀ q : Fin 8, s.img.q[q].dir = .closed ∨ (s.img.q[q].sh ≠ n ∧ ¬ (s.img.q[q].dir = .gather ∧ s.img.q[q].ish = n))

/-- An element of a place that is one run of package memory. -/
def ElemPlace.at (e : ElemPlace) (pa n : Nat) : Prop := e.parts = [(.mem pa, n)]

/-- An address lies in no part of a place. -/
def ElemPlace.avoids (e : ElemPlace) (a : Nat) : Prop := ∀ pa n, (Loc.mem pa, n) ∈ e.parts → a < pa ∨ pa + n ≤ a

/-- A run of addresses meets a page of a partition (R312), or a window for it that a group of personality UAL holds or that an accepted
RECAST is about to give one (R385). -/
def Meets (s : State) (part : BitVec 6) (va n : Nat) : Prop :=
  (∃ x ∈ s.pages, x.part = part ∧ x.va < va + n ∧ va < x.va + x.bytes) ∨
  ∃ (k : Fin 16) (w : Window),
    (s.groups[k].act = true ∧ s.groups[k].pers = .ual ∧ s.groups[k].win = some w ∨
      s.groups[k].next = .ual ∧ (s.groups[k].st = .drain ∨ s.groups[k].st = .retarget) ∧ s.groups[k].nextWin = some w) ∧
    w.part = part ∧ w.lbase < va + n ∧ va < w.lbase + 2 ^ 29 * w.size

/-! Engines (R240). -/

/-- No copy of L1 stands between memory and the core: as in `Quiet`, and L2 keeps no older line under a dirty one (R248). -/
structure Clean (s : State) : Prop extends Quiet s where
  below : ∀ x ∈ s.core.l1, x.below = none

/-- Byte `k` of a place of package memory or of the register space. -/
def State.byteAt (s : State) (l : Loc) (k : Nat) : Byte :=
  match l with
  | .mem pa => s.mem.read (pa + k)
  | .reg off => s.img.rs.read (off + k)
  | _ => 0

/-- Half byte `k` of a place, the low half of each byte first (R58). -/
def State.nibbleAt (s : State) (l : Loc) (k : Nat) : Nat := (s.byteAt l (k / 2)).toNat / 16 ^ (k % 2) % 16

/-- The rest of memory and of the register space, outside `n` bytes at a place, is as it was. -/
def SameOutside (s t : State) (l : Loc) (n : Nat) : Prop :=
  match l with
  | .mem pa => MemSameBut s t pa n ∧ t.img.rs = s.img.rs
  | .reg off => t.mem = s.mem ∧ ∀ a, a < off ∨ off + n ≤ a → t.img.rs.read a = s.img.rs.read a
  | _ => False

/-- A run of an engine's command passes the checks of R240, holds no error where it is read (R354), and stands whole at one place of
memory or of the register space. -/
def EngineRun (s : State) (o : Owner) (acc : Acc) (sp : Space) (a n : Nat) (l : Loc) : Prop :=
  s.placeRun sp a n = .ok () ∧ s.ownRun o sp a n = .ok () ∧ s.locateRun acc sp a n = .ok [(l, n)] ∧
    s.soundParts acc a [(l, n)] = .ok () ∧ ((∃ pa, l = .mem pa) ∨ ∃ off, l = .reg off)

/-- A word of `n` bytes at `ea` of a space that an atomic, a wait or a signal reaches, whole and naturally aligned at physical
address `pa`, and that holds no uncorrectable error (R272). -/
def WordRun (s : State) (acc : Acc) (sp : Space) (ea : Word) (n pa : Nat) : Prop :=
  ea.toNat % n = 0 ∧ Sound s pa n ∧
  match sp with
  | .virt => ea.toNat + n ≤ 2 ^ 57 ∧ Mapped s acc ea.toNat pa
  | .vault => ea.toNat + n ≤ 0x10000000 ∧ pa = vaultBase s.core.die + ea.toNat
  | .ns => ea.toNat + n ≤ s.core.nsSize ∧ pa = nsBase s.core.id.toNat + ea.toNat
  | .reg => False

/-- A virtual run of the device that lies in one 64 KiB unit, is mapped byte by byte from physical address `pa` on with the permission
of an access, and holds no uncorrectable error (R315). -/
def VirtRun (s : State) (acc : Acc) (va n pa : Nat) : Prop :=
  va % 0x10000 + n ≤ 0x10000 ∧ va < 2 ^ 57 ∧ va + n ≤ 2 ^ 57 ∧ Mapped s acc va pa ∧
    (∀ k, k < n → Mapped s acc (va + k) (pa + k)) ∧ Sound s pa n

/-- A dword of memory (R5). -/
def State.dwordAt (s : State) (pa : Nat) : Word := wordOfBytes (s.mem.bytes pa 8)

/-- The instruction goes on, `len` bytes long, and leaves a state of which something holds; no named register changes. -/
def GoesOn (i : Instr) (len : Nat) (s : State) (p : State → Prop) : Prop :=
  ∃ u : State, exec i s = .next (u.retire len) ∧ NamedSame s u ∧ p u

/-- The instruction goes on and changes no scalar but one, no predicate and no status bit; of the state it leaves something holds. -/
def GoesOnTo (i : Instr) (len : Nat) (s : State) (d : SReg) (p : State → Prop) : Prop :=
  ∃ u : State, exec i s = .next (u.retire len) ∧ ScalarsSameBut s u d ∧ (∀ x, u.readP x = s.readP x) ∧ u.img.status = s.img.status ∧ p u

/-- What a scalar holds after a write: s0 reads zero (R62). -/
def Holds (u : State) (d : SReg) (v : Word) : Prop := u.readS d = if d = 0 then 0 else v

/-- An instruction raises a fault of a unit on the state before it (R350, R352). -/
def Faults (i : Instr) (s : State) (unit : Nat) (e : Exc) : Prop := exec i s = .next (s.deliver unit (.trap e))

/-! Vectors, lane by lane. -/

/-- Element `k` of a vector in a format (R58). -/
def lane (f : Fmt) (v : Vec) (k : Nat) : Nat := (v.extractLsb' (f.width * k) f.width).toNat

/-- A destination takes any vector: it is a register, or a queue whose next entry can be pushed. -/
def Takes (s : State) (d : VOp) : Prop := ∀ v, ∃ t, s.writeVOp d v = .ok t

/-- Flag `j` is raised exactly where an active lane raises it (R83). -/
def FlagsOf (n : Nat) (m : BitVec 1024) (g : Nat → Nat × Flags) (fl : Flags) : Prop :=
  ∀ j, j < 6 → (fl.getLsbD j = true ↔ ∃ k, k < n ∧ maskBit m k = true ∧ (g k).2.getLsbD j = true)

/-- The instruction goes on and leaves what R176 gives: `u` is the state once the sources are read, `g` the result and flags of
each lane. An inactive lane keeps the register's old element, and is zero in a queue (R173); a counter value is taken when RM is
stochastic (R91). -/
def LaneWise (i : Instr) (n : Nat) (s u : State) (f : Fmt) (rm : Rm) (d : VOp) (c : MReg) (g : Nat → Nat × Flags) : Prop :=
  ∃ (v : Vec) (fl : Flags) (t : State), u.writeVOp d v = .ok t ∧
    exec i s = .next (((t.orFlags fl).drawFor rm).retire n) ∧
    (∀ k, k < 4096 / f.width → lane f v k =
      if maskBit (s.readM c) k then (g k).1 % 2 ^ f.width
      else match d with
        | .reg x => lane f (s.readV x) k
        | .queue _ => 0) ∧
    FlagsOf (4096 / f.width) (s.readM c) g fl

/-- The instruction goes on and writes one vector, with these elements, and raises no flag. -/
def Writes (i : Instr) (n : Nat) (s u : State) (f : Fmt) (d : VOp) (g : Nat → Nat) : Prop :=
  ∃ (v : Vec) (t : State), u.writeVOp d v = .ok t ∧ exec i s = .next (t.retire n) ∧
    ∀ k, k < 4096 / f.width → lane f v k = g k

/-- The vector instructions whose operands are all registers: the first register they write, how many, and the rounding mode
that may take a counter value; `none` for every other instruction. -/
def vectorShape (i : Instr) : Option (VReg × Nat × Rm) :=
  match i with
  | .vadd _ _ rm _ (.reg d) (.reg _) (.reg _) _ | .vsub _ _ rm _ (.reg d) (.reg _) (.reg _) _
  | .vmul _ _ rm _ (.reg d) (.reg _) (.reg _) _ | .vfma _ _ rm _ d (.reg _) (.reg _) _ | .vfms _ _ rm _ d (.reg _) (.reg _) _
  | .vnfma _ _ rm _ d (.reg _) (.reg _) _ | .vaddLit _ _ rm _ (.reg d) (.reg _) _ _ | .vsubLit _ _ rm _ (.reg d) (.reg _) _ _
  | .vmulLit _ _ rm _ (.reg d) (.reg _) _ _ | .vredsum _ _ rm _ (.reg d) (.reg _) _ | .vscan _ _ rm _ (.reg d) (.reg _) _
  | .vrcp _ _ rm _ (.reg d) (.reg _) _ | .vrsq _ _ rm _ (.reg d) (.reg _) _ | .vsqrt _ _ rm _ (.reg d) (.reg _) _
  | .vexp2 _ _ rm _ (.reg d) (.reg _) _ | .vlog2 _ _ rm _ (.reg d) (.reg _) _ | .vtanh _ _ rm _ (.reg d) (.reg _) _
  | .vsplatLit _ _ rm _ (.reg d) _ _ => some (d, 1, rm)
  | .vmin _ _ (.reg d) (.reg _) (.reg _) _ | .vmax _ _ (.reg d) (.reg _) (.reg _) _ | .vminLit _ _ (.reg d) (.reg _) _ _
  | .vmaxLit _ _ (.reg d) (.reg _) _ _ | .vabs _ _ _ (.reg d) (.reg _) _ | .vneg _ _ _ (.reg d) (.reg _) _
  | .vand _ _ (.reg d) (.reg _) (.reg _) _ | .vor _ _ (.reg d) (.reg _) (.reg _) _ | .vxor _ _ (.reg d) (.reg _) (.reg _) _
  | .vandLit _ _ (.reg d) (.reg _) _ _ | .vorLit _ _ (.reg d) (.reg _) _ _ | .vxorLit _ _ (.reg d) (.reg _) _ _
  | .vnot _ _ (.reg d) (.reg _) _ | .vshl _ _ (.reg d) (.reg _) (.reg _) _ | .vshr _ _ (.reg d) (.reg _) (.reg _) _
  | .vsra _ _ (.reg d) (.reg _) (.reg _) _ | .vrol _ _ (.reg d) (.reg _) (.reg _) _ | .vshlLit _ _ (.reg d) (.reg _) _ _
  | .vshrLit _ _ (.reg d) (.reg _) _ _ | .vsraLit _ _ (.reg d) (.reg _) _ _ | .vrolLit _ _ (.reg d) (.reg _) _ _
  | .vmulhi _ _ (.reg d) (.reg _) (.reg _) _ | .vmulhiLit _ _ (.reg d) (.reg _) _ _ | .vsel _ _ (.reg d) (.reg _) (.reg _) _
  | .vmov _ _ (.reg d) (.reg _) _ | .vsplat _ _ (.reg d) _ _ | .viota _ _ (.reg d) _ _ | .viotaLit _ _ (.reg d) _ _
  | .vredmax _ _ (.reg d) (.reg _) _ | .vredmin _ _ (.reg d) (.reg _) _ | .vperm _ _ (.reg d) (.reg _) (.reg _) _
  | .vslide _ _ (.reg d) (.reg _) _ _ | .vslideLit _ _ (.reg d) (.reg _) _ _ | .vcompress _ _ (.reg d) (.reg _) _
  | .vexpand _ _ (.reg d) (.reg _) _ | .vins _ _ d _ _ | .vinsLit _ _ d _ _ => some (d, 1, .rne)
  | .vzip _ _ (.reg d) (.reg _) (.reg _) | .vunzip _ _ (.reg d) (.reg _) (.reg _) => some (d, 2, .rne)
  | .vcvt _ f sf rm _ (.reg d) (.reg _) | .vwadd _ f sf rm _ (.reg d) (.reg _) (.reg _) | .vwmul _ f sf rm _ (.reg d) (.reg _) (.reg _)
  | .vnarrow _ f sf rm _ (.reg d) (.reg _) _ | .vnarrowLit _ f sf rm _ (.reg d) (.reg _) _ => some (d, wideCount f sf, rm)
  | _ => none

end Sys2Proof.Machine
end

