-- ==== Sys2Proof/Certificates/Slice0/Obligations.lean ====
section
/-!
DEFINITION. The statements for the provers. Each docstring names the rules of spec/ it formalises and the log entry of anything
the model chose. `GoesOn`, `GoesOnTo`, `Holds`, `Faults` and the other terms are in Safety.lean.
-/

open Sys2Proof Sys2Proof.Machine

/-- R115 with SAT = 0: the exact sum, difference or product modulo 2^64, or its low 32 bits extended, and no flag. R115 with SAT = 1: a result outside
the variant's range becomes the nearest end of it and raises SF. -/
def Obligations.AddSubMulFollowTheirVariants : Prop :=
  (∀ (g : Guard) (k : Bool) (v : ArithVar) (d a b : SReg) (lit : BitVec 32) (s : State), s.guardTrue g = true →
    let x := s.readS a
    let y := s.readS b
    let l := lit.signExtend 64
    exec (.add g k d a b) s = .next ((s.writeS d (x + y)).retire 4) ∧
    exec (.add64 g k v false d a b) s = .next ((s.writeS d (fitVar v (x + y))).retire 8) ∧
    exec (.add96 g k v false d a lit) s = .next ((s.writeS d (fitVar v (x + l))).retire 12) ∧
    exec (.sub g k d a b) s = .next ((s.writeS d (x - y)).retire 4) ∧
    exec (.sub64 g k v false d a b) s = .next ((s.writeS d (fitVar v (x - y))).retire 8) ∧
    exec (.sub96 g k v false d a lit) s = .next ((s.writeS d (fitVar v (x - l))).retire 12) ∧
    exec (.mul g k d a b) s = .next ((s.writeS d (x * y)).retire 4) ∧
    exec (.mul64 g k v false d a b) s = .next ((s.writeS d (fitVar v (x * y))).retire 8) ∧
    exec (.mul96 g k v false d a lit) s = .next ((s.writeS d (fitVar v (x * l))).retire 12)) ∧
  (∀ (g : Guard) (k : Bool) (v : ArithVar) (d a b : SReg) (lit : BitVec 32) (s : State), s.guardTrue g = true →
    let x := readVar v (s.readS a)
    let y := readVar v (s.readS b)
    let l := readVar v (lit.signExtend 64)
    let put (e : Int) := (s.writeS d (saturated v e).1).orFlags (saturated v e).2
    exec (.add64 g k v true d a b) s = .next ((put (x + y)).retire 8) ∧
    exec (.add96 g k v true d a lit) s = .next ((put (x + l)).retire 12) ∧
    exec (.sub64 g k v true d a b) s = .next ((put (x - y)).retire 8) ∧
    exec (.sub96 g k v true d a lit) s = .next ((put (x - l)).retire 12) ∧
    exec (.mul64 g k v true d a b) s = .next ((put (x * y)).retire 8) ∧
    exec (.mul96 g k v true d a lit) s = .next ((put (x * l)).retire 12))

/-- R116: bits [127:64] of the exact product of the operands sign- or zero-extended to 128 bits. R117: quotient and remainder, with the two borderline
cases and their flags; no case traps. -/
def Obligations.MulhDivAndRemFollowTheirRules : Prop :=
  (∀ (g : Guard) (v : MulhVar) (d a b : SReg) (lit : BitVec 32) (s : State), s.guardTrue g = true →
    let high (v : MulhVar) (x y : Word) : Word :=
      let p : BitVec 128 := match v with
        | .s => x.signExtend 128 * y.signExtend 128
        | .u => x.setWidth 128 * y.setWidth 128
        | .su => x.signExtend 128 * y.setWidth 128
      p.extractLsb' 64 64
    exec (.mulh g d a b) s = .next ((s.writeS d (high .s (s.readS a) (s.readS b))).retire 4) ∧
    exec (.mulh64 g v d a b) s = .next ((s.writeS d (high v (s.readS a) (s.readS b))).retire 8) ∧
    exec (.mulh96 g v d a lit) s = .next ((s.writeS d (high v (s.readS a) (lit.signExtend 64))).retire 12)) ∧
  (∀ (g : Guard) (v : DivVar) (sat : Bool) (d a b : SReg) (lit : BitVec 32) (s : State), s.guardTrue g = true →
    let x (v : DivVar) := readDiv v (s.readS a)
    let y (v : DivVar) := readDiv v (s.readS b)
    let l := readDiv v (lit.signExtend 64)
    let put (r : Word × Flags) := (s.writeS d r.1).orFlags r.2
    exec (.div g d a b) s = .next ((put (quotient .x false (x .x) (y .x))).retire 4) ∧
    exec (.div64 g v sat d a b) s = .next ((put (quotient v sat (x v) (y v))).retire 8) ∧
    exec (.div96 g v sat d a lit) s = .next ((put (quotient v sat (x v) l)).retire 12) ∧
    exec (.rem g d a b) s = .next ((put (modulus .x (x .x) (y .x))).retire 4) ∧
    exec (.rem64 g v d a b) s = .next ((put (modulus v (x v) (y v))).retire 8) ∧
    exec (.rem96 g v d a lit) s = .next ((put (modulus v (x v) l)).retire 12))

/-- R120: the bitwise operations, the literal sign-extended. R120: shifts and the rotation by the low bits of the count, in both variants. -/
def Obligations.LogicAndShiftsFollowTheirRule : Prop :=
  (∀ (g : Guard) (k : Bool) (d a b : SReg) (lit : BitVec 32) (s : State), s.guardTrue g = true →
    let x := s.readS a
    let y := s.readS b
    let l := lit.signExtend 64
    exec (.and g k d a b) s = .next ((s.writeS d (x &&& y)).retire 4) ∧
    exec (.and64 g k d a b) s = .next ((s.writeS d (x &&& y)).retire 8) ∧
    exec (.and96 g k d a lit) s = .next ((s.writeS d (x &&& l)).retire 12) ∧
    exec (.or g k d a b) s = .next ((s.writeS d (x ||| y)).retire 4) ∧
    exec (.or64 g k d a b) s = .next ((s.writeS d (x ||| y)).retire 8) ∧
    exec (.or96 g k d a lit) s = .next ((s.writeS d (x ||| l)).retire 12) ∧
    exec (.xor g k d a b) s = .next ((s.writeS d (x ^^^ y)).retire 4) ∧
    exec (.xor64 g k d a b) s = .next ((s.writeS d (x ^^^ y)).retire 8) ∧
    exec (.xor96 g k d a lit) s = .next ((s.writeS d (x ^^^ l)).retire 12) ∧
    exec (.andn g k d a b) s = .next ((s.writeS d (x &&& ~~~y)).retire 4) ∧
    exec (.andn64 g k d a b) s = .next ((s.writeS d (x &&& ~~~y)).retire 8) ∧
    exec (.andn96 g k d a lit) s = .next ((s.writeS d (x &&& ~~~l)).retire 12)) ∧
  (∀ (g : Guard) (k : Bool) (v : WidthVar) (d a b : SReg) (lit : BitVec 32) (s : State), s.guardTrue g = true →
    let put (w : Word) (n : Nat) := (s.writeS d w).retire n
    let wide (op : (w : Nat) → BitVec w → Nat → BitVec w) (v : WidthVar) (y : Word) : Word :=
      match v with
      | .x => op 64 (s.readS a) (y.extractLsb' 0 6).toNat
      | .w => (op 32 ((s.readS a).extractLsb' 0 32) (y.extractLsb' 0 5).toNat).signExtend 64
    let left := wide (fun _ x n => x <<< n)
    let right := wide (fun _ x n => x >>> n)
    let arith := wide (fun _ x n => x.sshiftRight n)
    let turn := wide (fun w x n => (x <<< n) ||| (x >>> (w - n)))
    let y := s.readS b
    let l := lit.signExtend 64
    exec (.shl g k d a b) s = .next (put (left .x y) 4) ∧
    exec (.shl64 g k v d a b) s = .next (put (left v y) 8) ∧
    exec (.shl96 g k v d a lit) s = .next (put (left v l) 12) ∧
    exec (.shr g k d a b) s = .next (put (right .x y) 4) ∧
    exec (.shr64 g k v d a b) s = .next (put (right v y) 8) ∧
    exec (.shr96 g k v d a lit) s = .next (put (right v l) 12) ∧
    exec (.sra g k d a b) s = .next (put (arith .x y) 4) ∧
    exec (.sra64 g k v d a b) s = .next (put (arith v y) 8) ∧
    exec (.sra96 g k v d a lit) s = .next (put (arith v l) 12) ∧
    exec (.rol g d a b) s = .next (put (turn .x y) 4) ∧
    exec (.rol64 g v d a b) s = .next (put (turn v y) 8) ∧
    exec (.rol96 g v d a lit) s = .next (put (turn v l) 12))

/-- R121: the counts and the reversal, told by the bits they must agree with. -/
def Obligations.BitCountsAgreeWithTheBits : Prop :=
  ∀ (g : Guard) (v : WidthVar) (d a : SReg) (s : State), s.guardTrue g = true →
    let w (v : WidthVar) : Nat := match v with | .x => 64 | .w => 32
    let bit (i : Nat) : Bool := (s.readS a).getLsbD i
    let clz (v : WidthVar) (n : Nat) : Prop := n ≤ w v ∧ (∀ i, i < n → bit (w v - 1 - i) = false) ∧ (n < w v → bit (w v - 1 - n) = true)
    let ctz (v : WidthVar) (n : Nat) : Prop := n ≤ w v ∧ (∀ i, i < n → bit i = false) ∧ (n < w v → bit n = true)
    let rev (v : WidthVar) (r : Word) : Prop := ∀ i, i < 64 → r.getLsbD i = (decide (i < w v) && bit (w v - 1 - i))
    (∃ n, clz .x n ∧ exec (.clz g d a) s = .next ((s.writeS d (BitVec.ofNat 64 n)).retire 4)) ∧
    (∃ n, clz v n ∧ exec (.clz64 g v d a) s = .next ((s.writeS d (BitVec.ofNat 64 n)).retire 8)) ∧
    (∃ n, ctz .x n ∧ exec (.ctz g d a) s = .next ((s.writeS d (BitVec.ofNat 64 n)).retire 4)) ∧
    (∃ n, ctz v n ∧ exec (.ctz64 g v d a) s = .next ((s.writeS d (BitVec.ofNat 64 n)).retire 8)) ∧
    exec (.popc g d a) s = .next ((s.writeS d (BitVec.ofNat 64 ((List.range 64).countP bit))).retire 4) ∧
    exec (.popc64 g v d a) s = .next ((s.writeS d (BitVec.ofNat 64 ((List.range (w v)).countP bit))).retire 8) ∧
    (∃ r, rev .x r ∧ exec (.brev g d a) s = .next ((s.writeS d r).retire 4)) ∧
    (∃ r, rev v r ∧ exec (.brev64 g v d a) s = .next ((s.writeS d r).retire 8))

/-- R122: the smaller and the larger operand, and the selection by a predicate, which p0 always decides for sA. R118 and R119: immediates and LEA. -/
def Obligations.MovesAndImmediatesWriteTheirValue : Prop :=
  (∀ (g : Guard) (k : Bool) (v : SignVar) (d a b : SReg) (c : PReg) (lit : BitVec 32) (s : State), s.guardTrue g = true →
    let x := s.readS a
    let y := s.readS b
    let l := lit.signExtend 64
    let less (v : SignVar) (x y : Word) : Prop := match v with | .s => x.toInt < y.toInt | .u => x.toNat < y.toNat
    let put (w : Word) (n : Nat) := (s.writeS d w).retire n
    (∃ m, (m = x ∨ m = y) ∧ ¬ less .s x m ∧ ¬ less .s y m ∧ exec (.min g k d a b) s = .next (put m 4)) ∧
    (∃ m, (m = x ∨ m = y) ∧ ¬ less v x m ∧ ¬ less v y m ∧ exec (.min64 g k v d a b) s = .next (put m 8)) ∧
    (∃ m, (m = x ∨ m = l) ∧ ¬ less v x m ∧ ¬ less v l m ∧ exec (.min96 g k v d a lit) s = .next (put m 12)) ∧
    (∃ m, (m = x ∨ m = y) ∧ ¬ less .s m x ∧ ¬ less .s m y ∧ exec (.max g k d a b) s = .next (put m 4)) ∧
    (∃ m, (m = x ∨ m = y) ∧ ¬ less v m x ∧ ¬ less v m y ∧ exec (.max64 g k v d a b) s = .next (put m 8)) ∧
    (∃ m, (m = x ∨ m = l) ∧ ¬ less v m x ∧ ¬ less v m l ∧ exec (.max96 g k v d a lit) s = .next (put m 12)) ∧
    exec (.sel g k d a b) s = .next (put x 4) ∧
    exec (.sel64 g k d a b c) s = .next (put (if s.readP c then x else y) 8) ∧
    exec (.sel96 g k d a lit c) s = .next (put (if s.readP c then x else l) 12) ∧
    exec (.mov g k d a) s = .next (put x 4) ∧
    exec (.mov64 g k d a) s = .next (put x 8)) ∧
  (∀ (g : Guard) (k : Bool) (d a b : SReg) (c : BitVec 3) (imm : BitVec 12) (lit : BitVec 32) (s : State), s.guardTrue g = true →
    let put (w : Word) (n : Nat) := (s.writeS d w).retire n
    exec (.addi g k d imm) s = .next (put (s.readS d + imm.signExtend 64) 4) ∧
    exec (.movi g k d imm) s = .next (put (imm.signExtend 64) 4) ∧
    exec (.movi96 g k .s d lit) s = .next (put (lit.signExtend 64) 12) ∧
    exec (.movi96 g k .u d lit) s = .next (put (lit.setWidth 64) 12) ∧
    (∃ w : Word, w.extractLsb' 32 32 = lit ∧ w.extractLsb' 0 32 = (s.readS d).extractLsb' 0 32 ∧
      exec (.movi96 g k .hi d lit) s = .next (put w 12)) ∧
    exec (.lea g k d a b) s = .next (put (s.readS a + s.readS b) 4) ∧
    exec (.lea64 g k d a b c) s = .next (put (s.readS a + s.readS b * 2 ^ c.toNat) 8) ∧
    exec (.lea96 g k d a lit c) s = .next (put (s.readS a + lit.signExtend 64 * 2 ^ c.toNat) 12))

/-- R123 and R124: the conditions of CMP as relations of the operands, and predicate logic. -/
def Obligations.ComparesAndPredicateLogic : Prop :=
  ∀ (g : Guard) (k : Bool) (v : Cond) (d a b : PReg) (x y : SReg) (lit : BitVec 32) (s : State), s.guardTrue g = true →
    let holds (v : Cond) (x y : Word) : Prop := match v with
      | .eq => x = y | .ne => x ≠ y | .lt => x.toInt < y.toInt | .ge => y.toInt ≤ x.toInt
      | .ltu => x.toNat < y.toNat | .geu => y.toNat ≤ x.toNat | .le => x.toInt ≤ y.toInt | .gt => y.toInt < x.toInt
      | .leu => x.toNat ≤ y.toNat | .gtu => y.toNat < x.toNat | .any => x &&& y ≠ 0 | .none => x &&& y = 0
    let put (q : Bool) (n : Nat) := (s.writeP d q).retire n
    (∃ q : Bool, (q = true ↔ s.readS x = s.readS y) ∧ exec (.cmp g k d x y) s = .next (put q 4)) ∧
    (∃ q : Bool, (q = true ↔ holds v (s.readS x) (s.readS y)) ∧ exec (.cmp64 g k v d x y) s = .next (put q 8)) ∧
    (∃ q : Bool, (q = true ↔ holds v (s.readS x) (lit.signExtend 64)) ∧ exec (.cmp96 g k v d x lit) s = .next (put q 12)) ∧
    exec (.pand g k d a b) s = .next (put (s.readP a && s.readP b) 4) ∧
    exec (.pand64 g k d a b) s = .next (put (s.readP a && s.readP b) 8) ∧
    exec (.por g k d a b) s = .next (put (s.readP a || s.readP b) 4) ∧
    exec (.por64 g k d a b) s = .next (put (s.readP a || s.readP b) 8) ∧
    exec (.pxor g k d a b) s = .next (put (xor (s.readP a) (s.readP b)) 4) ∧
    exec (.pxor64 g k d a b) s = .next (put (xor (s.readP a) (s.readP b)) 8) ∧
    exec (.pnot g k d a) s = .next (put (!s.readP a) 4) ∧
    exec (.pnot64 g k d a) s = .next (put (!s.readP a) 8)

/-- R125 to R127: where a control transfer with a true guard goes, what CALL and LOOP write, and that NOP goes on. R126: a transfer whose target has a
bit of [63:57] or [1:0] set raises the instruction-address fault, code 3, on itself, on the state before it: s63 and the loop counter keep their
values. -/
def Obligations.ControlTransfersSetThePcOrFault : Prop :=
  (∀ (g : Guard) (k : Bool) (d a : SReg) (o18 : BitVec 18) (o12 : BitVec 12) (lit : BitVec 32) (s : State), s.guardTrue g = true →
    let ok (t : Word) : Prop := t.extractLsb' 57 7 = 0 ∧ t.extractLsb' 0 2 = 0
    let rel18 := s.img.pc + 4 * o18.signExtend 64
    let rel12 := s.img.pc + 4 * o12.signExtend 64
    let off := { s with core := { s.core with link := none } }
    (ok rel18 → exec (.br g o18) s = .next (off.setPc rel18)) ∧
    (ok rel18 → exec (.call g o18) s = .next ((off.writeS 63 (s.img.pc + 4)).setPc rel18)) ∧
    (ok (s.readS a) → exec (.jmp g a) s = .next (off.setPc (s.readS a))) ∧
    (ok (s.readS a) → exec (.jmp64 g a) s = .next (off.setPc (s.readS a))) ∧
    (ok (s.readS a + lit.signExtend 64) → exec (.jmp96 g a lit) s = .next (off.setPc (s.readS a + lit.signExtend 64))) ∧
    (ok (s.readS a) → exec (.ret g a) s = .next (off.setPc (s.readS a))) ∧
    (ok (s.readS a) → exec (.ret64 g a) s = .next (off.setPc (s.readS a))) ∧
    (1 < (s.readS d).toNat → ok rel12 → exec (.loop g d o12) s = .next ((off.writeS d (s.readS d - 1)).setPc rel12)) ∧
    ((s.readS d).toNat ≤ 1 → s.core.rep = none → s.core.m.wait = none →
      exec (.loop g d o12) s = .next ((off.writeS d 0).setPc (s.img.pc + 4))) ∧
    exec (.nop g k) s = .next (s.retire 4) ∧
    exec (.nop64 g k) s = .next (s.retire 8)) ∧
  (∀ (g : Guard) (d a : SReg) (o18 : BitVec 18) (o12 : BitVec 12) (lit : BitVec 32) (s : State), s.guardTrue g = true →
    let bad (t : Word) : Prop := t.extractLsb' 57 7 ≠ 0 ∨ t.extractLsb' 0 2 ≠ 0
    let rel18 := s.img.pc + 4 * o18.signExtend 64
    let rel12 := s.img.pc + 4 * o12.signExtend 64
    let fault (t : Word) := s.deliver unitSQ (.trap { code := 3, faddr := t })
    (bad rel18 → exec (.br g o18) s = .next (fault rel18) ∧ exec (.call g o18) s = .next (fault rel18)) ∧
    (bad (s.readS a) → exec (.jmp g a) s = .next (fault (s.readS a)) ∧ exec (.jmp64 g a) s = .next (fault (s.readS a)) ∧
      exec (.ret g a) s = .next (fault (s.readS a)) ∧ exec (.ret64 g a) s = .next (fault (s.readS a))) ∧
    (bad (s.readS a + lit.signExtend 64) → exec (.jmp96 g a lit) s = .next (fault (s.readS a + lit.signExtend 64))) ∧
    (1 < (s.readS d).toNat → bad rel12 → exec (.loop g d o12) s = .next (fault rel12)))

/-- R37: an encoded instruction whose guard is false does nothing but go on. Going on to the next instruction (R29), or to the next repetition of a
REP unit (R40, R42): the index counts up and the program counter stays until the last repetition, which leaves the index at zero. -/
def Obligations.FalseGuardsAndRetiringGoOn : Prop :=
  (∀ (i : Instr) (r : Raw) (s : State), rawOf i = some r → s.guardTrue ⟨r.g, r.gn⟩ = false → exec i s = .next (s.retire i.bytes)) ∧
  (∀ (s : State) (n : Nat),
    (s.core.rep = none → (s.retire n).img = { s.img with pc := s.img.pc + BitVec.ofNat 64 n } ∧ (s.retire n).core.rep = none) ∧
    (∀ r, s.core.rep = some r → s.repIdx < r.cnt.toNat →
      (s.retire n).repIdx = s.repIdx + 1 ∧ (s.retire n).img.pc = s.img.pc ∧ (s.retire n).core.rep = some r) ∧
    (∀ r, s.core.rep = some r → r.cnt.toNat ≤ s.repIdx →
      (s.retire n).repIdx = 0 ∧ (s.retire n).img.pc = s.img.pc + BitVec.ofNat 64 n ∧ (s.retire n).core.rep = none) ∧
    ScalarOnly s (s.retire n) ∧ (∀ r, (s.retire n).readS r = s.readS r) ∧ (∀ p, (s.retire n).readP p = s.readP p) ∧
    StatusSameBut s (s.retire n) 0)

/-- R62: s0 reads zero, p0 one and m0 all ones, whatever was written to them; every other register holds what was written. R70 to R72, R136, R388:
CSRR writes to sD the fields of each control register, and CSRW gives each register that the level may write its new value, reserved and read-only
bits keeping theirs; cr.frec is for level S alone. -/
def Obligations.NamedAndControlRegistersReadAndWrite : Prop :=
  (∀ s : State,
    s.readS 0 = 0 ∧ s.readP 0 = true ∧ s.readM 0 = BitVec.allOnes 1024 ∧
    (∀ v, s.writeS 0 v = s) ∧ (∀ v, s.writeP 0 v = s) ∧ (∀ v, s.writeM 0 v = s) ∧
    (∀ d r v, d ≠ 0 → (s.writeS d v).readS r = if r = d then v else s.readS r) ∧
    (∀ d r v, d ≠ 0 → (s.writeP d v).readP r = if r = d then v else s.readP r) ∧
    (∀ d r v, d ≠ 0 → (s.writeM d v).readM r = if r = d then v else s.readM r)) ∧
  (∀ (g : Guard) (d : SReg) (c : Csr) (s : State), s.guardTrue g = true →
    let fields (w : Word) : Prop :=
      match c with
      | .status => ∀ i, i < 64 → w.getLsbD i = if i = 1 then s.core.slot else (decide (i < 15) && s.img.status.getLsbD i)
      | .core => w.extractLsb' 0 10 = s.core.id ∧ w.extractLsb' 10 6 = s.core.part ∧ w.extractLsb' 16 3 = s.core.gang ∧
          w.extractLsb' 19 8 = s.core.gidx ∧ w.extractLsb' 27 37 = 0
      | .ctx => (s.self = none → w = 0) ∧ ∀ x, s.self = some x →
          w.extractLsb' 0 32 = x.edie ++ x.index ++ x.gen ∧ w.extractLsb' 32 3 = x.prio ∧ w.extractLsb' 35 29 = 0
      | .viewV => w = s.img.viewV
      | .viewT => w = s.img.viewT
      | .viewAcc => w = s.img.viewAcc
      | .seed => w = s.img.seed
      | .ctr => w = s.img.ctr
      | .frec => w = s.core.frec
      | .dmap => (∀ n, n < 4 → w.getLsbD n = s.dieUp n ∧ w.getLsbD (4 + n) = s.islandUp n ∧ w.getLsbD (8 + n) = s.boundaryUp n) ∧
          w.extractLsb' 12 4 = 0 ∧ w.extractLsb' 16 10 = (if s.podv then s.podid.extractLsb' 0 10 else 0) ∧ w.getLsbD 26 = s.podv ∧
          w.extractLsb' 27 37 = 0
      | .lat => w = s.core.m.lat
    let v := s.readS d
    let img (i : Image) : Prop := exec (.csrw g d c) s = .next ((s.setImg i).retire 4)
    (c = .frec ∧ s.levelS = false →
      exec (.csrr g d c) s = .next (s.deliver unitSQ (.trap { code := 2 })) ∧
      exec (.csrw g d c) s = .next (s.deliver unitSQ (.trap { code := 2 }))) ∧
    (¬ (c = .frec ∧ s.levelS = false) → ∃ w, fields w ∧ exec (.csrr g d c) s = .next ((s.writeS d w).retire 4)) ∧
    (csrReadOnly s.levelS c = false → ¬ (c = .frec ∧ s.levelS = false) →
      match c with
      | .status => ∃ w : Word, img { s.img with status := w } ∧
          ∀ i, i < 64 → w.getLsbD i = if (2 ≤ i ∧ i ≤ 7) ∨ (s.levelS = true ∧ 8 ≤ i ∧ i ≤ 14) then v.getLsbD i else s.img.status.getLsbD i
      | .core | .ctx | .dmap => False
      | .viewV => img { s.img with viewV := v &&& 0x1FE00 }
      | .viewT => img { s.img with viewT := v &&& 0x1F000 }
      | .viewAcc => img { s.img with viewAcc := v &&& 0x1C000 }
      | .seed => img { s.img with seed := v }
      | .ctr => img { s.img with ctr := v }
      | .frec => exec (.csrw g d c) s = .next (({ s with core := { s.core with frec := v - (v &&& 0xFF) } } : State).retire 4)
      | .lat => exec (.csrw g d c) s = .next (({ s with core := { s.core with m := { s.core.m with lat := v } } } : State).retire 4)))

/-- The frame of the register instructions of chapter 05: nothing but the destination, the flags named for it, the program counter and the repetition
index changes, whatever the guard. -/
def Obligations.ScalarInstructionsKeepEverythingElse : Prop :=
  ∀ (i : Instr) (d : Dest) (f : Flags) (s t : State), scalarShape i = some (d, f) → exec i s = .next t →
    ScalarOnly s t ∧ (∀ a, t.mem.read a = s.mem.read a) ∧ StatusSameBut s t f ∧
    (∀ r, d ≠ .scalar r → t.readS r = s.readS r) ∧ (∀ p, d ≠ .pred p → t.readP p = s.readP p)

/-- R131, R148, R155: END at level U leaves the member done, with every stream closed and every queue empty; the accepted entries of its write streams
are written, in order, and nothing else of memory changes. It waits while an SCLD is outstanding (log 31), and a write that waits for its stack holds
the context there (R427, log 74). At level S it raises the privilege trap. R39 to R42: the prefix goes to the instruction after it and begins its unit
where REPIDX stands; nothing else changes. An index past the last repetition leaves none: the unit is passed and the index is zero. A successor that
cannot be fetched, or that REP may not repeat, is reported at the prefix. -/
def Obligations.EndFinishesTheMemberAndRepBegins : Prop :=
  (∀ (g : Guard) (s : State), s.guardTrue g = true →
    let both (t : State) : Prop := exec (.endTask g) s = .next t ∧ exec (.endTask64 g) s = .next t
    (s.levelS = false → s.img.late = [] → s.writesHeld = none → ∃ t, both t ∧ t.core.m.ended = true ∧ t.core.m.wait = none ∧
      (∀ q : Fin 8, t.img.q[q] = Stream.closed ∧ t.core.queues[q] = []) ∧ NamedSame s t ∧ t.img.pc = s.img.pc ∧
      ((∀ q : Fin 8, NoDataError s.img.q[q]) → Lands s (s.pending (fun _ => true)) → t.mem = s.mem.after (s.pending (fun _ => true)))) ∧
    (s.levelS = false → s.img.late ≠ [] → both s) ∧
    (∀ k, s.levelS = false → s.img.late = [] → s.writesHeld = some k → both (s.deliver unitSQ (.hold (.stack k) false))) ∧
    (Lands s (s.pending (fun _ => true)) → s.core.handle.bind s.postedBy = none → s.writesHeld = none) ∧
    (s.levelS = true → both (s.deliver unitSQ (.trap { code := 2 })))) ∧
  (∀ (step : BitVec 4) (mask : BitVec 3) (cnt : BitVec 7) (s : State),
    (∀ ps w, s.fetchAt (s.img.pc + 4) = .ok ps → repLegal s.levelS step mask cnt (rawOfParcels ps) = .ok w →
      (s.repIdx ≤ cnt.toNat → exec (.rep step mask cnt) s = .next { s with core := { s.core with
        rep := some { at_ := s.img.pc, step := step, mask := mask, cnt := cnt, body := ps },
        m := { s.core.m with img := { s.img with pc := s.img.pc + 4 } } } }) ∧
      (cnt.toNat < s.repIdx → ∃ w : Word, (∀ i, i < 64 → w.getLsbD i = (s.img.status.getLsbD i && !(decide (8 ≤ i) && decide (i ≤ 14)))) ∧
        exec (.rep step mask cnt) s =
          .next (s.setImg { s.img with status := w, pc := s.img.pc + 4 + BitVec.ofNat 64 (4 * ps.length) }))) ∧
    (∀ st, s.fetchAt (s.img.pc + 4) = .error st → exec (.rep step mask cnt) s = .next (s.deliver unitSQ st)) ∧
    (∀ ps e, s.fetchAt (s.img.pc + 4) = .ok ps → repLegal s.levelS step mask cnt (rawOfParcels ps) = .error e →
      exec (.rep step mask cnt) s = .next (s.deliver unitSQ (.trap { code := 1, reason := e.code }))))

/-- R132, R133: LDS of an aligned, readable run writes its bytes, sign- or zero-extended, to sD; memory and every other register stay as they were.
R132, R133: STS to an aligned, writable run stores the low bytes of sD there and changes no other byte of memory and no register. -/
def Obligations.LdsAndStsMoveBytes : Prop :=
  (∀ (g : Guard) (v : LdW) (cl : BitVec 4) (sp : Space) (d a b : SReg) (lit : BitVec 32) (s : State) (pa : Nat),
    s.guardTrue g = true → (∀ x ∈ s.core.l1, x.stale = none) →
    let size (v : LdW) : Nat := match v with | .d => 8 | .w | .wu => 4 | .h | .hu => 2 | .b | .bu => 1
    let value (v : LdW) : Word :=
      let bs := s.mem.bytes pa (size v)
      match v with
      | .d => BitVec.ofNat 64 (natOfBytes bs)
      | .w => (BitVec.ofNat 32 (natOfBytes bs)).signExtend 64
      | .wu => (BitVec.ofNat 32 (natOfBytes bs)).setWidth 64
      | .h => (BitVec.ofNat 16 (natOfBytes bs)).signExtend 64
      | .hu => (BitVec.ofNat 16 (natOfBytes bs)).setWidth 64
      | .b => (BitVec.ofNat 8 (natOfBytes bs)).signExtend 64
      | .bu => (BitVec.ofNat 8 (natOfBytes bs)).setWidth 64
    let ready (v : LdW) (sp : Space) (ea : Word) : Prop :=
      ea.toNat % size v = 0 ∧ PlainRun s .read sp ea.toNat (size v) pa ∧ Sound s pa (size v)
    let loads (i : Instr) (n : Nat) (v : LdW) : Prop :=
      ∃ t, exec i s = .next (t.retire n) ∧ Holds t d (value v) ∧ ScalarsSameBut s t d ∧ t.img = { s.img with s := t.img.s } ∧ ReadsOnly s t
    (ready .d .virt (s.readS a + s.readS b) → loads (.lds g d a b) 4 .d) ∧
    (ready v sp (s.readS a + s.readS b) → loads (.lds64 g v cl sp d a b) 8 v) ∧
    (ready v sp (s.readS a + lit.signExtend 64) → loads (.lds96 g v cl sp d a lit) 12 v)) ∧
  (∀ (g : Guard) (v : StW) (cl : BitVec 4) (sp : Space) (d a b : SReg) (lit : BitVec 32) (s : State) (pa : Nat),
    s.guardTrue g = true → Quiet s →
    let size (v : StW) : Nat := match v with | .d => 8 | .w => 4 | .h => 2 | .b => 1
    let ready (v : StW) (sp : Space) (ea : Word) : Prop := ea.toNat % size v = 0 ∧ PlainRun s .write sp ea.toNat (size v) pa
    let stores (i : Instr) (n : Nat) (v : StW) : Prop :=
      ∃ t, exec i s = .next (t.retire n) ∧ (∀ k, k < size v → t.mem.read (pa + k) = (s.readS d).extractLsb' (8 * k) 8) ∧
        MemSameBut s t pa (size v) ∧ t.img = s.img ∧ StoresOnly s t
    (ready .d .virt (s.readS a + s.readS b) → stores (.sts g d a b) 4 .d) ∧
    (ready v sp (s.readS a + s.readS b) → stores (.sts64 g v cl sp d a b) 8 v) ∧
    (ready v sp (s.readS a + lit.signExtend 64) → stores (.sts96 g v cl sp d a lit) 12 v))

/-- R315: the address of a resident page with the permission of the access, which nothing stands in the way of, is the byte of its frame. R133: the
checks of a scalar access in their order: alignment, then the end of the virtual space, of the own vault or of the NS carve-out in force, then the
owner of the tile. The first that fails raises its fault on the state before. -/
def Obligations.ScalarAccessesTranslateOrFault : Prop :=
  (∀ (s : State) (acc : Acc) (va pa : Nat), Mapped s acc va pa → s.translate acc va = .ok (.mem pa)) ∧
  (∀ (g : Guard) (v : LdW) (x : StW) (cl : BitVec 4) (sp : Space) (d a b : SReg) (s : State), s.guardTrue g = true →
    (∀ q : Fin 8, s.img.q[q].dir ≠ .write) →
    let ea := s.readS a + s.readS b
    let fails (n : Nat) (e : Exc) : Prop :=
      (n = v.bytes → exec (.lds64 g v cl sp d a b) s = .next (s.deliver unitSQ (.trap e))) ∧
      (n = x.bytes → exec (.sts64 g x cl sp d a b) s = .next (s.deliver unitSQ (.trap e)))
    ∀ n, n = v.bytes ∨ n = x.bytes →
      (ea.toNat % n ≠ 0 → fails n { code := 4, faddr := ea }) ∧
      (ea.toNat % n = 0 → sp = .virt → 2 ^ 57 ≤ ea.toNat → fails n { code := 5, faddr := ea }) ∧
      (ea.toNat % n = 0 → sp = .vault → 0x10000000 ≤ ea.toNat → fails n { code := 6, faddr := ea }) ∧
      (ea.toNat % n = 0 → sp = .ns → s.core.nsSize < ea.toNat + n → fails n { code := 6, faddr := ea }) ∧
      (ea.toNat % n = 0 → (sp = .vault ∧ ea.toNat < 0x10000000 ∨ sp = .ns ∧ ea.toNat + n ≤ s.core.nsSize) →
        s.ownerOf sp (4096 * (ea.toNat / 4096)) ≠ .thread →
        fails n { code := 7, faddr := BitVec.ofNat 64 (4096 * (ea.toNat / 4096)),
                  info := BitVec.ofNat 64 (s.ownerOf sp (4096 * (ea.toNat / 4096))).code.toNat }))

/-- Words of the spec's worked encodings decode to the instructions they stand for. R43, R47, R70: opcodes with no instruction are illegal with reason
1, a class opcode of length 0 with reason 2, an ADD whose guard is never true with reason 6, and a CSRW to a register that the level may only read
with reason 7. -/
def Obligations.EncodingsDecodeOrAreRefused : Prop :=
  (let bytes (ps : List Parcel) : List Byte := ps.flatMap parcelBytes
  let reads (ps : List Parcel) (i : Instr) : Prop := decode true (bytes ps) = .ok (i, [])
  reads [0x2482000C] (.add ⟨0, false⟩ true 8 8 9) ∧
  reads [0x30B28019, 0x01000001] (.mul64 ⟨0, false⟩ false .w true 10 11 12) ∧
  reads [0x144080D1, 0x00000004] (.cmp64 ⟨0, false⟩ false .ltu 2 4 5) ∧
  reads [0x0041413A, 0x00000101, 0x00000040] (.lds96 ⟨0, false⟩ .w 0 .vault 5 4 64) ∧
  reads [0xFFD24118] (.loop ⟨0, false⟩ 9 (-3)) ∧
  reads [0x03F00110] (.ret ⟨0, false⟩ 63) ∧
  reads [0x00018148] (.csrr ⟨0, false⟩ 6 .status) ∧
  reads [0x1440C1C9, 0x00000600] (.recast ⟨0, false⟩ .ual true 3 4 5)) ∧
  ((∀ (levelS : Bool) (r : Raw), (r.op = 0x00 ∨ r.op = 0x24 ∨ (0x2B ≤ r.op ∧ r.op ≤ 0x2F) ∨ 0x3C ≤ r.op) →
    decodeOne levelS r = .error .opcode ∧ Illegal.opcode.code = 1) ∧
  (∀ (levelS : Bool) (r : Raw), 0x30 ≤ r.op → r.op < 0x3C → r.len = 0 → decodeOne levelS r = .error .length ∧ Illegal.length.code = 2) ∧
  (∀ (levelS : Bool) (g : Guard) (d : SReg) (c : Csr), g.never = false → csrReadOnly levelS c = true →
    ∃ ps, encodeParcels (.csrw g d c) = some ps ∧ decodeParcels levelS ps = .error .operand) ∧
  (∀ (levelS : Bool) (d a b : SReg), ∃ ps, encodeParcels (.add ⟨0, true⟩ false d a b) = some ps ∧
    decodeParcels levelS ps = .error .field))

/-- R29 to R34: the encoder drops no bit of an instruction: what it writes for a well-formed one, at the head of any bytes, decodes to it, with every
operand at every value its field admits, and leaves the bytes after it; at level U all but a CSRW to a register that only level S may write. -/
def Obligations.EncodedInstructionsDecodeToThemselves : Prop :=
  ∀ (levelS : Bool) (i : Instr) (bs rest : List Byte), encode i = some bs → i.wellFormed = true →
    (levelS = true ∨ ∀ g d c, i = .csrw g d c → csrReadOnly false c = false) → decode levelS (bs ++ rest) = .ok (i, rest)

/-- R32, R47: the decoder ignores no bit: parcels that it accepts are the ones that the encoder writes for the instruction it answers, which is well
formed. -/
def Obligations.DecodedParcelsEncodeBack : Prop :=
  ∀ (levelS : Bool) (ps : List Parcel) (d : Decoded), decodeParcels levelS ps = .ok d →
    encodeParcels d.instr = some ps ∧ d.instr.wellFormed = true

/-- A step in which no event is scheduled and the core that has the turn runs, with no REP unit begun, is the instruction that the bytes at its
program counter decode to (R29, R47), on the state after time has passed and the turn was taken; the fetch is noted in the pages' access records and
in the translations that the core holds, and nowhere else. Two things only come before it: an accepted write of its context that waits for its stack,
which holds the context there (R427, log 74), and an error in a register that the instruction reads, code 27 of store 0 (R354, log 59). -/
def Obligations.StepRunsTheDecodedInstruction : Prop :=
  ∀ (s : State) (ps : List Parcel) (d : Decoded) (pa : Nat),
    let t := s.tick
    let u := t.noteFetch
    t.events = [] → t.coreRuns = true → t.core.rep = none → t.translate .fetch t.img.pc.toNat = .ok (.mem pa) → tierHas pa = true →
    t.fetchAt t.img.pc = .ok ps → decodeParcels t.levelS ps = .ok d →
    (t.startError d = none → step s = exec d.instr u) ∧
    (∀ unit e, t.startError d = some (unit, e) → step s = .next (t.deliver unit e)) ∧
    (∀ k, t.writesHeld = some k → t.startError d = some (unitSQ, .hold (.stack k) false)) ∧
    (t.writesHeld = none → t.startError d = t.operandError d) ∧
    ((∀ q : Fin 8, t.img.q[q].dir ≠ .write) → t.core.handle.bind t.postedBy = none → t.writesHeld = none) ∧
    ((∀ x ∈ t.bad, x.1 ≠ 0) → t.operandError d = none) ∧
    u = { t with pages := u.pages, core := { t.core with tlb := u.core.tlb } } ∧
    u.pages.map (fun p => { p with last := 0, heat := 0 }) = t.pages.map (fun p => { p with last := 0, heat := 0 })

/-- The other steps: time passes at each, by ticks that are free (log 5); events come from the schedule (log 38) and cores take turns (log 49); a
scheduled event is performed and leaves the schedule; a core that is not bound, whose die is down or whose member has performed END does nothing; a
REP unit performs its next repetition, whose fields are stepped by its number (R40); a unit that does not decode, and one that cannot be fetched,
raise the trap of R47 or R315. -/
def Obligations.StepPerformsEventsAndRepetitions : Prop :=
  ∀ s : State,
    let t := s.tick
    (t.ptc = s.ptc + BitVec.ofNat 64 s.ticks ∧ t.fresh = s.fresh + 1 ∧ t.clock = s.clock + 5 * Config.stepTicks s.fresh ∧ t.mem = s.mem) ∧
    (∀ i rest, t.events = i :: rest → i.isEvent = true → step s = exec i { t with events := rest }) ∧
    (t.events = [] → t.coreRuns = false → step s = .next t) ∧
    (∀ r w, t.events = [] → t.coreRuns = true → t.core.rep = some r →
      repLegal t.levelS r.step r.mask r.cnt (rawOfParcels r.body) = .ok w →
      let raw := (rawOfParcels r.body).repeated r.step r.mask t.repIdx
      (t.startError (.one w raw) = none → step s = exec (w.instr raw) t) ∧
      ∀ unit e, t.startError (.one w raw) = some (unit, e) → step s = .next (t.deliver unit e)) ∧
    (∀ pa ps e, t.events = [] → t.coreRuns = true → t.core.rep = none → t.translate .fetch t.img.pc.toNat = .ok (.mem pa) →
      tierHas pa = true → t.fetchAt t.img.pc = .ok ps → decodeParcels t.levelS ps = .error e → step s = exec .illegalEncoding t) ∧
    (∀ st, t.events = [] → t.coreRuns = true → t.core.rep = none → t.translate .fetch t.img.pc.toNat = .error st →
      step s = exec .fetchFault t)

/-- Every constructor has its meaning: on any state `exec` answers a next state, never a fault and never a refusal. A step stops only where the page
frame of the unit at the program counter, as the core that has the turn translates it for a fetch, lies in no memory tier. -/
def Obligations.StepsStopOnlyOutsideTheMemoryTiers : Prop :=
  (∀ (i : Instr) (s : State), ∃ t, exec i s = .next t) ∧
  (∀ s : State, (∃ t, step s = .next t) ∨
    ∃ pa, s.tick.translate .fetch s.tick.img.pc.toNat = .ok (.mem pa) ∧ tierHas pa = false ∧ step s = .fault (.noSuchAddress pa))

/-- Memory keeps its canonical form at every step: addresses strictly rising, no entry at the value an unlisted address reads. -/
def Obligations.EveryStepKeepsMemoryCanonical : Prop :=
  ∀ s t : State, s.mem.wf = true → step s = .next t → t.mem.wf = true

/-- R362, R368, R394, R428: what package reset leaves: time zero, memory empty and canonical, reading zero (log 3), no context, page or queue, every
function not ready, every die, island and boundary down (log 2), every group DOWN and Off, and the partition fields at the values of the table of
R362. -/
def Obligations.ResetLeavesTheStatedValues : Prop :=
  let s := State.reset
  s.ptc = 0 ∧ s.mem.wf = true ∧ (∀ a, s.mem.read a = 0) ∧ s.ctxs = [] ∧ s.pages = [] ∧ s.ready = 0 ∧ s.bup = 0 ∧
  (∀ d, s.dieUp d = false ∧ s.islandUp d = false ∧ s.boundaryUp d = false) ∧
  (∀ g : Fin 16, s.groups[g].st = .down ∧ s.groups[g].pers = .off ∧ s.groups[g].win = none) ∧
  (∀ p : BitVec 6, s.partField p 5 = 1000000 ∧ s.partField p 6 = 200000 ∧ s.partField p 7 = 50000 ∧ s.partField p 8 = 64 ∧
    s.partField p 9 = 8192 ∧ s.partField p 15 = 1 ∧ ∀ k : Fin 19, k ∉ [5, 6, 7, 8, 9, 15] → s.partField p k = 0) ∧
  s.core.handle = none ∧ s.podv = false ∧ s.podid = 0 ∧ s.slate.st = .idle

/-- R141, R146, R162: SHSET, SHGET and SHMOV act on the 64-bit words of shape registers, whose reserved bits read zero; a register that an open stream
names may not be written by them or by SHLD: the stream-state fault, code 11, gives the number of a queue that names it, the lowest of several (log
95). R146, R162: SHLD and SHST move the 64 bytes of a shape register, at a multiple of 64, through a space; nothing else changes. Elsewhere they raise
the alignment fault, code 4, SHLD after it has found its register free (log 88). -/
def Obligations.ShapeRegistersAreSetLoadedAndStored : Prop :=
  (∀ (g : Guard) (cl : BitVec 4) (sp : Space) (d a : ShReg) (b r x : SReg) (c : BitVec 3) (lit : BitVec 32) (s : State), s.guardTrue g = true →
    let word (sh : BitVec 512) (k : BitVec 3) : Word := sh.extractLsb' (64 * k.toNat) 64
    let kept (k : BitVec 3) (v : Word) : Word := if k = 1 then v &&& 0x0000FFFFFFFFFFFF else v
    let sets (i : Instr) (n : Nat) (v : Word) : Prop :=
      ∃ t, exec i s = .next (t.retire n) ∧ (∀ k, word (t.readSh d) k = kept k (if k = c then v else word (s.readSh d) k)) ∧
        (∀ e, e ≠ d → t.readSh e = s.readSh e) ∧ t = s.setImg { s.img with sh := t.img.sh }
    exec (.shget g r a c) s = .next ((s.writeS r (word (s.readSh a) c)).retire 8) ∧
    (ShapeFree s d → sets (.shset g d b c) 8 (s.readS b) ∧ sets (.shsetLit g d lit c) 12 (lit.signExtend 64) ∧
      ∃ t, exec (.shmov g d a) s = .next (t.retire 8) ∧ (∀ k, word (t.readSh d) k = kept k (word (s.readSh a) k)) ∧
        (∀ e, e ≠ d → t.readSh e = s.readSh e) ∧ t = s.setImg { s.img with sh := t.img.sh }) ∧
    let names (q : Fin 8) : Prop := s.img.q[q].dir ≠ .closed ∧ (s.img.q[q].sh = d ∨ s.img.q[q].dir = .gather ∧ s.img.q[q].ish = d)
    (∀ q : Fin 8, names q → (∀ p, p < q → ¬ names p) →
      let e : Exc := { code := 11, info := BitVec.ofNat 64 q.val }
      Faults (.shset g d b c) s unitAU e ∧ Faults (.shsetLit g d lit c) s unitAU e ∧ Faults (.shmov g d a) s unitAU e ∧
        Faults (.shld g cl sp d x b) s unitAU e ∧ Faults (.shldLit g cl sp d x lit) s unitAU e)) ∧
  (∀ (g : Guard) (cl : BitVec 4) (sp : Space) (d : ShReg) (a b : SReg) (lit : BitVec 32) (s : State) (pa : Nat), s.guardTrue g = true →
    let loads (ea : Word) (i : Instr) (n : Nat) : Prop :=
      (ShapeFree s d → ea.toNat % 64 ≠ 0 → Faults i s unitAU { code := 4, faddr := ea }) ∧
      (ShapeFree s d → ea.toNat % 64 = 0 → (∀ x ∈ s.core.l1, x.stale = none) → PlainRun s .read sp ea.toNat 64 pa → Sound s pa 64 →
        ∃ t, exec i s = .next (t.retire n) ∧
          (∀ k, k < 512 → (k < 112 ∨ 128 ≤ k) → (t.readSh d).getLsbD k = (s.mem.read (pa + k / 8)).getLsbD (k % 8)) ∧
          (∀ k, 112 ≤ k → k < 128 → (t.readSh d).getLsbD k = false) ∧ (∀ e, e ≠ d → t.readSh e = s.readSh e) ∧
          t.img = { s.img with sh := t.img.sh } ∧ ReadsOnly s t)
    let stores (ea : Word) (i : Instr) (n : Nat) : Prop :=
      ((∀ q : Fin 8, s.img.q[q].dir ≠ .write) → ea.toNat % 64 ≠ 0 → Faults i s unitAU { code := 4, faddr := ea }) ∧
      (ea.toNat % 64 = 0 → Quiet s → PlainRun s .write sp ea.toNat 64 pa →
        ∃ t, exec i s = .next (t.retire n) ∧ (∀ k, k < 64 → t.mem.read (pa + k) = (s.readSh d).extractLsb' (8 * k) 8) ∧
          MemSameBut s t pa 64 ∧ t.img = s.img ∧ StoresOnly s t)
    loads (s.readS a + s.readS b) (.shld g cl sp d a b) 8 ∧ loads (s.readS a + lit.signExtend 64) (.shldLit g cl sp d a lit) 12 ∧
    stores (s.readS a + s.readS b) (.shst g cl sp d a b) 8 ∧ stores (s.readS a + lit.signExtend 64) (.shstLit g cl sp d a lit) 12)

/-- R142, R145, R150, R163: OPEN on a closed queue, with shapes that pass their check, starts a stream at position 0 whose length is the product of
the extents; an open queue is the stream-state fault, code 11, which comes first (log 26), and a bad shape the shape fault, code 10, of OPEN.G the one
of shape A before that of its index shape (log 88). R145, R148, R163, R164: CLOSE and DRAIN write the accepted entries of a write stream, in order,
and CLOSE discards those of a read stream; a write that waits for its stack holds the context there (R427, log 74). The clamped moves of ADV, which
drops the entries that lie whole in what it skips and a held-back fault that it passes; LOOKAHEAD, and what POSR and QCNT read. ADV and LOOKAHEAD on a
closed queue are the stream-state fault; ADV on a read stream that has fetched all and still holds entries skips them (log 91). -/
def Obligations.StreamsOpenMoveAndClose : Prop :=
  (∀ (g : Guard) (cl : BitVec 4) (q : QReg) (a b : ShReg) (s : State), s.guardTrue g = true →
    let sh := s.readSh a
    let ish := s.readSh b
    let opened (i : Instr) (dir : StreamDir) (ib : ShReg) (n : Nat) : Prop :=
      ∃ t : State, exec i s = .next (t.retire 8) ∧ t.queue q = [] ∧ t.core.cpt[q.toFin] = none ∧ t.core.npt[q.toFin] = none ∧
        t.stream q = { dir := dir, sh := a, ish := ib, cl := cl, n := n, com := 0, spec := 0, dist := 4096, held := none } ∧
        (∀ p, p ≠ q → t.stream p = s.stream p ∧ t.queue p = s.queue p) ∧ t = { s with core := { s.core with
          queues := t.core.queues, cpt := t.core.cpt, npt := t.core.npt, m := { s.core.m with img := { s.img with q := t.img.q } } } }
    let fails (i : Instr) (code : Nat) (n : Word) : Prop := exec i s = .next (s.deliver unitAU (.trap { code := code, info := n }))
    ((s.stream q).dir = .closed → s.shapeOk sh = true →
      opened (.openR g cl q a) .read 0 (shLength sh) ∧ opened (.openW g cl q a) .write 0 (shLength sh) ∧
      (s.shapeOk ish = true → shRank ish = 1 → (shFmt ish = some .int32 ∨ shFmt ish = some .uint32) →
        opened (.openG g cl q a b) .gather b (shExt ish 0 * shProduct sh (shRank sh - 1))) ∧
      (s.shapeOk ish = false ∨ shRank ish ≠ 1 ∨ (shFmt ish ≠ some .int32 ∧ shFmt ish ≠ some .uint32) →
        fails (.openG g cl q a b) 10 (b.setWidth 64))) ∧
    ((s.stream q).dir = .closed → s.shapeOk sh = false → fails (.openR g cl q a) 10 (a.setWidth 64) ∧
      fails (.openW g cl q a) 10 (a.setWidth 64) ∧ fails (.openG g cl q a b) 10 (a.setWidth 64)) ∧
    ((s.stream q).dir ≠ .closed → fails (.openR g cl q a) 11 (q.setWidth 64) ∧ fails (.openW g cl q a) 11 (q.setWidth 64) ∧
      fails (.openG g cl q a b) 11 (q.setWidth 64))) ∧
  (∀ (g : Guard) (q : QReg) (d b : SReg) (c : Fin 3) (lit : BitVec 32) (s : State), s.guardTrue g = true →
    let st := s.stream q
    let e := 4096 / (shFmtD (s.readSh st.sh)).width
    let others (t : State) : Prop := NamedSame s t ∧ ∀ p, p ≠ q → t.stream p = s.stream p ∧ t.queue p = s.queue p
    let streamOnly (t : State) : Prop := t = { s with core := { s.core with queues := t.core.queues, cpt := t.core.cpt, npt := t.core.npt,
                                                                            m := { s.core.m with img := { s.img with q := t.img.q } } } }
    let ws := s.pendingOf q.toFin
    let closed : Exc := { code := 11, info := q.setWidth 64 }
    (st.dir = .closed → exec (.close g q) s = .next (s.retire 8)) ∧
    (st.dir ≠ .closed → s.queueSettled q = .ok () → ∃ t, exec (.close g q) s = .next (t.retire 8) ∧ t.stream q = Stream.closed ∧ t.queue q = [] ∧ others t ∧
      (NoDataError st → (st.dir ≠ .write → streamOnly t) ∧ (Lands s ws → t.mem = s.mem.after ws))) ∧
    (st.dir ≠ .write → exec (.drain g q) s = .next (s.retire 8)) ∧
    (∀ e, s.queueSettled q = .error e → exec (.close g q) s = .next (s.deliver unitAU e) ∧ exec (.drain g q) s = .next (s.deliver unitAU e)) ∧
    (st.dir ≠ .write ∨ Lands s ws ∧ s.core.handle.bind s.postedBy = none → s.queueSettled q = .ok ()) ∧
    (st.dir = .write → s.queueSettled q = .ok () → ∃ t, exec (.drain g q) s = .next (t.retire 8) ∧ t.queue q = [] ∧
      t.stream q = { st with com := st.com + ((s.queue q).map (·.count)).sum } ∧ others t ∧ (Lands s ws → t.mem = s.mem.after ws)) ∧
    (∀ (i : Instr) (n k : Nat), (i = .adv g q b ∧ n = 8 ∧ k = (s.readS b).toNat ∨ i = .advLit g q lit ∧ n = 12 ∧ k = lit.toNat) →
      (st.dir = .closed → Faults i s unitAU closed) ∧
      (st.dir = .write → let skip := min (k * e) (st.n - st.spec)
        exec i s = .next ((s.setStream q { st with spec := st.spec + skip, com := st.com + skip }).retire n)) ∧
      (st.dir = .read ∨ st.dir = .gather → let skip := min (k * e) (st.n - st.com)
        ∃ t, exec i s = .next (t.retire n) ∧ (t.stream q).com = st.com + skip ∧ (t.stream q).spec = max st.spec (st.com + skip) ∧
          (t.stream q).held = (if st.spec < st.com + skip then none else st.held) ∧
          (∃ es, s.queue q = es ++ t.queue q ∧ (es.map (·.count)).sum ≤ skip ∧
            ∀ x rest, t.queue q = x :: rest → skip < (es.map (·.count)).sum + x.count) ∧ others t ∧ (NoDataError st → streamOnly t))) ∧
    (∀ (i : Instr) (n k : Nat), (i = .lookahead g q b ∧ n = 8 ∧ k = (s.readS b).toNat ∨ i = .lookaheadLit g q lit ∧ n = 12 ∧ k = lit.toNat) →
      (st.dir = .closed → Faults i s unitAU closed) ∧
      (st.dir ≠ .closed → exec i s = .next ((s.setStream q { st with dist := BitVec.ofNat 32 (min k 0xFFFFFFFF) }).retire n))) ∧
    exec (.posr g d q c) s = .next ((s.writeS d (if st.dir = .closed then 0 else
      BitVec.ofNat 64 (if c = 0 then st.com else if c = 1 then st.spec else st.n))).retire 8) ∧
    exec (.qcnt g d q) s = .next ((s.writeS d (BitVec.ofNat 64 (s.queue q).length)).retire 8))

/-- R66 to R68, R145, R147, R148: a pop takes the oldest entry and counts its elements as consumed; a push appends an entry with the writes that it
will perform; naming a queue against its direction is fault 13, and popping a closed or exhausted one, or pushing to a closed or full-length one,
fault 12; a push that a stack keeps from room holds the context there (R427, log 74). The fault of an entry's fetch, held back or raised by the pop's
own fetch, is raised by the pop and stands against the entry. -/
def Obligations.QueuesPopInOrderAndFaultByDirection : Prop :=
  ∀ (s : State) (q : QReg) (v : Vec),
    let st := s.stream q
    let imbalance : Stop := .trap { code := 12, info := q.setWidth 64 }
    let direction : Stop := .trap { code := 13, info := q.setWidth 64 }
    (st.dir = .write → s.readVOp (.queue q) = .error direction) ∧
    (st.dir = .closed → s.readVOp (.queue q) = .error imbalance ∧ s.writeVOp (.queue q) v = .error imbalance) ∧
    (st.dir = .read ∨ st.dir = .gather → s.writeVOp (.queue q) v = .error direction ∧
      (∀ e rest, s.queue q = e :: rest → ∃ t, s.readVOp (.queue q) = .ok (e.data, t) ∧ t.queue q = rest ∧
        t.stream q = { st with com := st.com + e.count } ∧ NamedSame s t ∧ t.mem = s.mem ∧ t.img.rs = s.img.rs) ∧
      (s.queue q = [] → st.n ≤ st.spec → (∀ e, st.held ≠ some (.trap e)) → s.readVOp (.queue q) = .error imbalance) ∧
      (∀ e, s.queue q = [] → st.held = some (.trap e) → s.readVOp (.queue q) = .error (.pop q st.spec (.trap e))) ∧
      (∀ f, s.queue q = [] → (∀ e, st.held ≠ some (.trap e)) → st.spec < st.n → s.fetchEntry q = .error f →
        s.readVOp (.queue q) = .error (.pop q st.spec f))) ∧
    (∀ unit n e, s.deliver unit (.pop q n (.trap e)) =
      (s.setStream q { st with spec := n, held := some (.pop q n (.trap e)) }).deliver unit (.trap e)) ∧
    (st.dir = .write → st.n ≤ st.spec → s.writeVOp (.queue q) v = .error imbalance) ∧
    (st.dir = .write → st.spec < st.n → (∀ c, s.self = some c → c.journal = none) →
      let sh := s.readSh st.sh
      let k := min (4096 / (shFmtD sh).width) (st.n - st.spec)
      shSpace sh ≠ .reg → ∀ places, ((List.range k).map (st.spec + ·)).mapM (s.streamPlace .write st) = .ok places →
      (∀ n, s.pushHeld q = some n → s.writeVOp (.queue q) v = .error (.hold (.stack n) false)) ∧
      (s.pushHeld q = none → ∃ t e, s.writeVOp (.queue q) v = .ok t ∧ e.data = v ∧ e.count = k ∧
        e.writes = (places.zip (vecElems (shFmtD sh).width v)).flatMap (fun x => maskedBytes sh x.1 x.2) ∧
        t.queue q = (if 8 ≤ (s.queue q).length then (s.queue q).drop 1 else s.queue q) ++ [e] ∧ (t.stream q).spec = st.spec + k ∧ NamedSame s t))

/-- R143: the byte address of an element is the base plus the sum of index times stride, taken in units of half a byte; a virtual address past 2^57,
or an offset past the vault or the NS carve-out in force (an element that begins below the vault's end and passes it too: log 30), is its fault; so is
a tile of another owner. R151: with IND = n, dimension n - 1 takes the word of its entry of the table in NS less one; a zero entry is the
indirect-miss fault, code 14. -/
def Obligations.ElementsStandAtBasePlusStrides : Prop :=
  ∀ (s : State) (acc : Acc) (sh : BitVec 512) (p : Nat), s.shapeOk sh = true →
    let digit (k : Nat) : Nat := p / shProduct sh k % shExt sh k
    let x := digit (shInd sh - 1)
    let off := shItab sh + 4 * x
    let entry := s.nsWord32 off
    let index (k : Nat) : Int := if shInd sh = k + 1 then entry - 1 else digit k
    let sum : Int := 2 * (shBase sh : Int) + ((List.range (shRank sh)).map (fun k => index k * shStride sh k)).sum
    let nib : Nat := (sum % 2 ^ 65).toNat
    let n := max 1 ((shFmtD sh).width / 8)
    (shInd sh ≠ 0 → Sound s (nsBase s.core.id.toNat + off) 4) →
    (shInd sh ≠ 0 → shInd sh ≤ shRank sh → entry = 0 →
      s.elemPlace acc sh (shIndex sh p) = .error (.trap { code := 14, faddr := BitVec.ofNat 64 off, info := BitVec.ofNat 64 x })) ∧
    ((shInd sh ≠ 0 → entry ≠ 0) →
    (shSpace sh = .virt → 2 ^ 57 ≤ nib / 2 → s.elemPlace acc sh (shIndex sh p) = .error (.trap { code := 5, faddr := BitVec.ofNat 64 (nib / 2) })) ∧
    (shSpace sh = .vault → 0x10000000 < nib / 2 + n → s.elemPlace acc sh (shIndex sh p) = .error (.trap { code := 6, faddr := BitVec.ofNat 64 (nib / 2) })) ∧
    (shSpace sh = .ns → s.core.nsSize < nib / 2 + n → s.elemPlace acc sh (shIndex sh p) = .error (.trap { code := 6, faddr := BitVec.ofNat 64 (nib / 2) })) ∧
    (∀ t, shSpace sh = .vault ∧ nib / 2 + n ≤ 0x10000000 ∨ shSpace sh = .ns ∧ nib / 2 + n ≤ s.core.nsSize → 4096 * t < nib / 2 + n →
      nib / 2 < 4096 * t + 4096 → s.ownerOf (shSpace sh) (4096 * t) ≠ .thread → (∀ r, r < t → nib / 2 < 4096 * r + 4096 → s.ownerOf (shSpace sh) (4096 * r) = .thread) →
      s.elemPlace acc sh (shIndex sh p) = .error (.trap { code := 7, faddr := BitVec.ofNat 64 (4096 * t),
                                                          info := BitVec.ofNat 64 (s.ownerOf (shSpace sh) (4096 * t)).code.toNat })) ∧
    (shSpace sh = .reg → s.soundParts acc (nib / 2) (regParts (nib / 2) n) = .ok () →
      s.elemPlace acc sh (shIndex sh p) = .ok { parts := regParts (nib / 2) n, high := nib % 2 == 1 }) ∧
    (∀ pa, shSpace sh = .vault ∧ nib / 2 + n ≤ 0x10000000 ∧ pa = vaultBase s.core.die + nib / 2 ∨
        shSpace sh = .ns ∧ nib / 2 + n ≤ s.core.nsSize ∧ pa = nsBase s.core.id.toNat + nib / 2 →
      (∀ k, k < n → s.ownerOf (shSpace sh) (nib / 2 + k) = .thread) → Sound s pa n →
      s.elemPlace acc sh (shIndex sh p) = .ok { parts := [(.mem pa, n)], high := nib % 2 == 1 }) ∧
    (∀ pa, shSpace sh = .virt → nib / 2 + n ≤ 2 ^ 57 → nib / 2 % 0x10000 + n ≤ 0x10000 → Mapped s acc (nib / 2) pa → Sound s pa n →
      s.elemPlace acc sh (shIndex sh p) = .ok { parts := [(.mem pa, n)], high := nib % 2 == 1 }))

/-- R165: VLD takes each active element inside the walk from its place, zero for an active one past its end, and keeps the others; nothing but the
register and the program counter changes but the L1, the page records and what the package has last seen of pod bytes (log 20). R165: VST stores each
active element inside the walk, in ascending order, so that of two at one place the later stands; no other byte of memory and no named register
changes. A 4-bit element changes its half of its byte. -/
def Obligations.VldAndVstMoveActiveElements : Prop :=
  (∀ (g : Guard) (cl : BitVec 4) (d : VReg) (a : ShReg) (b : SReg) (lit : BitVec 32) (c : MReg) (s : State), s.guardTrue g = true →
    let sh := s.readSh a
    let w := (shFmtD sh).width
    let loads (p : Nat) (i : Instr) (n : Nat) : Prop :=
      ∀ places, s.placesOf .read sh (activePositions sh p (maskBit (s.readM c))) = .ok places →
      ∃ t, exec i s = .next (t.retire n) ∧ t.img = { s.img with rs := t.img.rs } ∧ ReadsOnly { s with bad := t.bad, sent := t.sent } t ∧
        RegSameBut s t (s.offV d.val) 512 ∧
        ∀ k, k < 4096 / w → (vecElems w (t.readV d))[k]? = some (
          if maskBit (s.readM c) k = false then (vecElems w (s.readV d)).getD k 0
          else match places.lookup k with
            | some e => s.elemAt sh e
            | none => 0)
    (∀ x ∈ s.core.l1, x.stale = none) → s.shapeOk sh = true → loads (s.readS b).toNat (.vld g cl d a b c) 8 ∧ loads lit.toNat (.vldLit g cl d a lit c) 12) ∧
  (∀ (g : Guard) (cl : BitVec 4) (d : VReg) (a : ShReg) (b : SReg) (lit : BitVec 32) (c : MReg) (s : State), s.guardTrue g = true →
    Quiet s →
    let sh := s.readSh a
    let w := (shFmtD sh).width
    let stores (p : Nat) (i : Instr) (n : Nat) : Prop :=
      ∀ places, s.placesOf .write sh (activePositions sh p (maskBit (s.readM c))) = .ok places →
      ∃ t, exec i s = .next (t.retire n) ∧ t.img = { s.img with rs := t.img.rs } ∧
        StoresOnly { s with islands := t.islands, groups := t.groups, sent := t.sent } t ∧ (shSpace sh ≠ .reg → t.img.rs = s.img.rs) ∧
        (∀ x, (∀ e ∈ places, ElemPlace.avoids e.2 x) → t.mem.read x = s.mem.read x) ∧
        (∀ x y : List (Nat × ElemPlace), ∀ k e pa, places = x ++ (k, e) :: y → 8 ≤ w → ElemPlace.at e pa (w / 8) →
          ∀ j, j < w / 8 → (∀ f ∈ y, ElemPlace.avoids f.2 (pa + j)) →
            t.mem.read (pa + j) = BitVec.ofNat 8 ((vecElems w (s.readV d)).getD k 0 / 256 ^ j)) ∧
        (∀ x y : List (Nat × ElemPlace), ∀ k e pa, places = x ++ (k, e) :: y → w = 4 → ElemPlace.at e pa 1 →
          (∀ f ∈ x ++ y, ElemPlace.avoids f.2 pa) →
            let half (b : Byte) (high : Bool) : Nat := if high then b.toNat / 16 else b.toNat % 16
            half (t.mem.read pa) e.high = (vecElems w (s.readV d)).getD k 0 ∧ half (t.mem.read pa) (!e.high) = half (s.mem.read pa) (!e.high))
    s.shapeOk sh = true → stores (s.readS b).toNat (.vst g cl d a b c) 8 ∧ stores lit.toNat (.vstLit g cl d a lit c) 12)

/-- R157, R158, R160, R166: PLD reads without parking and marks in its mask the elements whose pages are away; RESIDE counts the distinct pages that
are away and has each recalled; SCLD appends one entry to the scale queue, or stands outstanding behind a full one (log 31); PREF changes nothing. A
shape of another format, or over the register space (log 83), is the shape fault of SCLD. -/
def Obligations.PldResideScldAndPrefFollowTheirRules : Prop :=
  ∀ (g : Guard) (cl : BitVec 4) (v : VReg) (a : ShReg) (d b : SReg) (lit : BitVec 32) (c : MReg) (k : Fin 2) (s : State),
    s.guardTrue g = true → (∀ x ∈ s.core.l1, x.stale = none) →
    let sh := s.readSh a
    let w := (shFmtD sh).width
    s.shapeOk sh = true →
    let pld (p : Nat) (i : Instr) (n : Nat) : Prop :=
      (∀ x ∈ activePositions sh p (fun _ => true), ∃ r, s.probe sh x.2 = .ok r) →
      ∃ t, exec i s = .next (t.retire n) ∧ t.mem = s.mem ∧ NamedSame s t ∧
        (∀ j, j < 4096 / w → (vecElems w (t.readV v))[j]? = some (
          if p + j < shLength sh then (match s.probe sh (p + j) with | .ok (some e) => s.elemAt sh e | _ => 0) else 0)) ∧
        (c ≠ 0 → ∀ j, j < 1024 → (t.readM c).getLsbD j =
          (decide (j < 4096 / w) && decide (p + j < shLength sh) && (match s.probe sh (p + j) with | .ok none => true | _ => false))) ∧
        (∀ m, m ≠ c → t.readM m = s.readM m)
    let reside (p : Nat) (i : Instr) (n : Nat) : Prop :=
      (shSpace sh ≠ .virt → ∃ t : State, exec i s = .next (t.retire n) ∧ t.readS d = 0 ∧ ScalarsSameBut s t d ∧ t.mem = s.mem ∧
        t.moves = s.moves) ∧
      (∀ pages, shSpace sh = .virt → s.absentPages sh (activePositions sh p (maskBit (s.readM c))) = .ok pages →
        ∃ t, exec i s = .next (t.retire n) ∧ t.readS d = (if d = 0 then 0 else BitVec.ofNat 64 pages.length) ∧
          ScalarsSameBut s t d ∧ t.mem = s.mem ∧
          ∀ va ∈ pages, ∀ x, s.pageAt s.core.part va = some x → x.st = .out →
            ∃ m ∈ t.moves, m.part = x.part ∧ m.va = x.va ∧ m.dest = x.target ∧ m.level ≤ 1)
    let scld (p : Nat) (i : Instr) (n : Nat) : Prop :=
      (shSpace sh = .reg ∨ (shFmt sh ≠ some .e8m0 ∧ shFmt sh ≠ some .ue4m3 ∧ shFmt sh ≠ some .bf16) →
        Faults i s unitAU { code := 10, info := a.setWidth 64 }) ∧
      ∀ places, (shFmt sh = some .e8m0 ∨ shFmt sh = some .ue4m3 ∨ shFmt sh = some .bf16) →
        s.placesOf .read sh (((List.range (256 / w)).filter (fun j => decide (p + j < shLength sh))).map (fun j => (j, p + j))) = .ok places →
        shSpace sh ≠ .reg → ∃ (t : State) (x : BitVec 256), exec i s = .next { t.retire n with core := { (t.retire n).core with
            scldAt := if 4 ≤ s.img.scq.length ∧ (s.core.scldAt.isSome ∨ s.img.late = []) then
                some (s.core.scldAt.getD (s.unitAddr, s.img.status.extractLsb' 8 7)) else none } } ∧ ReadsOnly { s with sent := t.sent } t ∧
          t.img = (if s.img.scq.length < 4 then { s.img with scq := s.img.scq ++ [x] } else { s.img with late := s.img.late ++ [x] }) ∧
          ∀ j, j < 256 / w → (x.extractLsb' (w * j) w).toNat = (match places.lookup j with | some e => s.elemAt sh e | none => 0)
    pld (s.readS b).toNat (.pld g cl v a b c) 8 ∧ pld lit.toNat (.pldLit g cl v a lit c) 12 ∧
    reside (s.readS b).toNat (.reside g d a b c) 8 ∧ reside lit.toNat (.resideLit g d a lit c) 12 ∧
    scld (s.readS b).toNat (.scld g cl a b) 8 ∧ scld lit.toNat (.scldLit g cl a lit) 12 ∧
    exec (.pref g a b k) s = .next (s.retire 8) ∧ exec (.prefLit g a lit k) s = .next (s.retire 12)

/-- R177: addition, subtraction, multiplication and the fused forms, lane by lane: the exact integer narrowed by R79, or the exact real rounded once
with the lane's number as rounding index; a literal gives every lane its one value (R173). -/
def Obligations.VectorArithmeticLaneByLane : Prop :=
  ∀ (g : Guard) (f : Fmt) (rm : Rm) (sat : Bool) (d a b : VOp) (r : VReg) (c : MReg) (lit : BitVec 32) (s u w : State) (x y : Vec),
    s.guardTrue g = true → f.classIF = true → s.readVOp a = .ok (x, u) → u.readVOp b = .ok (y, w) →
    let ro := s.rounding rm sat
    let real (v : FVal × Flags) (k : Nat) : Nat × Flags := ((roundTo f ro k v.1).1, v.2 ||| (roundTo f ro k v.1).2)
    let xi (k : Nat) := intOf f (lane f x k)
    let yi (k : Nat) := intOf f (lane f y k)
    let di (k : Nat) := intOf f (lane f (s.readV r) k)
    let xv (k : Nat) := fpDecode f (lane f x k)
    let yv (k : Nat) := fpDecode f (lane f y k)
    let dv (k : Nat) := fpDecode f (lane f (s.readV r) k)
    let li := lit.toInt
    let lv := fpDecode .fp32 lit.toNat
    let pick (n : Int) (v : FVal × Flags) (k : Nat) : Nat × Flags := if f.integer then narrowInt f sat n else real v k
    (Takes w d →
      LaneWise (.vadd g f rm sat d a b c) 8 s w f rm d c (fun k => pick (xi k + yi k) (FVal.add rm (xv k) (yv k)) k) ∧
      LaneWise (.vsub g f rm sat d a b c) 8 s w f rm d c (fun k => pick (xi k - yi k) (FVal.add rm (xv k) (yv k).neg) k) ∧
      LaneWise (.vmul g f rm sat d a b c) 8 s w f rm d c (fun k => pick (xi k * yi k) (FVal.mul (xv k) (yv k)) k)) ∧
    (Takes u d →
      LaneWise (.vaddLit g f rm sat d a lit c) 12 s u f rm d c (fun k => pick (xi k + li) (FVal.add rm (xv k) lv) k) ∧
      LaneWise (.vsubLit g f rm sat d a lit c) 12 s u f rm d c (fun k => pick (xi k - li) (FVal.add rm (xv k) lv.neg) k) ∧
      LaneWise (.vmulLit g f rm sat d a lit c) 12 s u f rm d c (fun k => pick (xi k * li) (FVal.mul (xv k) lv) k)) ∧
    LaneWise (.vfma g f rm sat r a b c) 8 s w f rm (.reg r) c (fun k => pick (xi k * yi k + di k) (FVal.mulAdd rm (xv k) (yv k) (dv k)) k) ∧
    LaneWise (.vfms g f rm sat r a b c) 8 s w f rm (.reg r) c (fun k => pick (xi k * yi k - di k) (FVal.mulAdd rm (xv k) (yv k) (dv k).neg) k) ∧
    LaneWise (.vnfma g f rm sat r a b c) 8 s w f rm (.reg r) c (fun k => pick (di k - xi k * yi k) (FVal.mulAdd rm (xv k).neg (yv k) (dv k)) k)

/-- R107, R177: minimum, maximum, absolute value, negation and the high half of a product, lane by lane. What a floating-point literal outside the
format becomes in VMIN and VMAX is the model's choice (log 33): the nearest value of the format. R177, R178: the bitwise operations and the shifts,
lane by lane on bit patterns; the amount is the low bits of the other lane, or of the literal. -/
def Obligations.VectorExtremesBitsAndShiftsLaneByLane : Prop :=
  (∀ (g : Guard) (f : Fmt) (sat : Bool) (d a b : VOp) (c : MReg) (lit : BitVec 32) (s u w : State) (x y : Vec),
    s.guardTrue g = true → f.classIF = true → s.readVOp a = .ok (x, u) → u.readVOp b = .ok (y, w) →
    let ro := s.rounding .rne sat
    let xi (k : Nat) := intOf f (lane f x k)
    let yi (k : Nat) := intOf f (lane f y k)
    let xv (k : Nat) := fpDecode f (lane f x k)
    let yv (k : Nat) := fpDecode f (lane f y k)
    let li := lit.toInt
    let lv := fpDecode .fp32 lit.toNat
    let pick (n : Int) (v : FVal) : Nat × Flags := if f.integer then ((n % 2 ^ f.width).toNat, 0) else (encodeExact f v, 0)
    let high (n : Int) : Nat × Flags := ((n / 2 ^ f.width % 2 ^ f.width).toNat, 0)
    (Takes w d →
      LaneWise (.vmin g f d a b c) 8 s w f .rne d c (fun k => pick (min (xi k) (yi k)) (fpMin (xv k) (yv k))) ∧
      LaneWise (.vmax g f d a b c) 8 s w f .rne d c (fun k => pick (max (xi k) (yi k)) (fpMax (xv k) (yv k))) ∧
      (f.classI = true → LaneWise (.vmulhi g f d a b c) 8 s w f .rne d c (fun k => high (xi k * yi k)))) ∧
    (Takes u d →
      LaneWise (.vminLit g f d a lit c) 12 s u f .rne d c (fun k => pick (min (xi k) li) (fpMin (xv k) lv)) ∧
      LaneWise (.vmaxLit g f d a lit c) 12 s u f .rne d c (fun k => pick (max (xi k) li) (fpMax (xv k) lv)) ∧
      (f.classI = true → LaneWise (.vmulhiLit g f d a lit c) 12 s u f .rne d c (fun k => high (xi k * li))) ∧
      LaneWise (.vabs g f sat d a c) 8 s u f .rne d c
        (fun k => if f.integer then narrowInt f sat (xi k).natAbs else roundTo f ro k (xv k).abs) ∧
      LaneWise (.vneg g f sat d a c) 8 s u f .rne d c
        (fun k => if f.integer then narrowInt f sat (-(xi k)) else roundTo f ro k (xv k).neg))) ∧
  (∀ (g : Guard) (f : Fmt) (d a b : VOp) (c : MReg) (lit : BitVec 32) (s u w : State) (x y : Vec),
    s.guardTrue g = true → f.classV = true → s.readVOp a = .ok (x, u) → u.readVOp b = .ok (y, w) →
    let n := f.width
    let xs (k : Nat) : BitVec n := x.extractLsb' (n * k) n
    let ys (k : Nat) : BitVec n := y.extractLsb' (n * k) n
    let l : BitVec n := lit.setWidth n
    let by2 (i : Instr) (op : BitVec n → BitVec n → BitVec n) : Prop := LaneWise i 8 s w f .rne d c (fun k => ((op (xs k) (ys k)).toNat, 0))
    let by1 (i : Instr) (op : BitVec n → BitVec n → BitVec n) : Prop := LaneWise i 12 s u f .rne d c (fun k => ((op (xs k) l).toNat, 0))
    (Takes w d →
      by2 (.vand g f d a b c) (· &&& ·) ∧ by2 (.vor g f d a b c) (· ||| ·) ∧ by2 (.vxor g f d a b c) (· ^^^ ·) ∧
      (f.classI = true →
        by2 (.vshl g f d a b c) (fun p q => p <<< (q.toNat % n)) ∧ by2 (.vshr g f d a b c) (fun p q => p >>> (q.toNat % n)) ∧
        by2 (.vsra g f d a b c) (fun p q => p.sshiftRight (q.toNat % n)) ∧
        by2 (.vrol g f d a b c) (fun p q => (p <<< (q.toNat % n)) ||| (p >>> (n - q.toNat % n))))) ∧
    (Takes u d →
      by1 (.vandLit g f d a lit c) (· &&& ·) ∧ by1 (.vorLit g f d a lit c) (· ||| ·) ∧ by1 (.vxorLit g f d a lit c) (· ^^^ ·) ∧
      LaneWise (.vnot g f d a c) 8 s u f .rne d c (fun k => ((~~~(xs k)).toNat, 0)) ∧
      (f.classI = true →
        by1 (.vshlLit g f d a lit c) (fun p q => p <<< (q.toNat % n)) ∧ by1 (.vshrLit g f d a lit c) (fun p q => p >>> (q.toNat % n)) ∧
        by1 (.vsraLit g f d a lit c) (fun p q => p.sshiftRight (q.toNat % n)) ∧
        by1 (.vrolLit g f d a lit c) (fun p q => (p <<< (q.toNat % n)) ||| (p >>> (n - q.toNat % n))))))

/-- R180: VCMP writes a mask bit for each lane by the order of the exact values, none where one is NaN, and zero above them. R190: the mask
instructions, on all 1,024 bits. -/
def Obligations.VectorComparesAndMasks : Prop :=
  (∀ (g : Guard) (f : Fmt) (d : MReg) (a b : VOp) (c : VCond) (lit : BitVec 32) (s u w : State) (x y : Vec),
    s.guardTrue g = true → f.classV = true → s.readVOp a = .ok (x, u) → u.readVOp b = .ok (y, w) →
    let order (k : Nat) (yi : Int) (yv : FVal) : Option Ordering :=
      if f.integer then some (compare (intOf f (lane f x k)) yi)
      else if (fpDecode f (lane f x k)).isNan = true ∨ yv.isNan = true then none else some ((fpDecode f (lane f x k)).compare yv)
    let holds (o : Option Ordering) : Prop := match c with
      | .eq => o = some .eq | .ne => o ≠ some .eq | .lt => o = some .lt | .le => o = some .lt ∨ o = some .eq
      | .gt => o = some .gt | .ge => o = some .gt ∨ o = some .eq | .un => o = none | .ord => o ≠ none
    let tells (m : BitVec 1024) (yi : Nat → Int) (yv : Nat → FVal) : Prop :=
      ∀ k, k < 1024 → (m.getLsbD k = true ↔ k < 4096 / f.width ∧ holds (order k (yi k) (yv k)))
    (∃ m, tells m (fun k => intOf f (lane f y k)) (fun k => fpDecode f (lane f y k)) ∧
      exec (.vcmp g f d a b c) s = .next ((w.writeM d m).retire 8)) ∧
    (∃ m, tells m (fun _ => lit.toInt) (fun _ => fpDecode .fp32 lit.toNat) ∧
      exec (.vcmpLit g f d a lit c) s = .next ((u.writeM d m).retire 12))) ∧
  (∀ (g : Guard) (d a b : MReg) (r : SReg) (s : State), s.guardTrue g = true →
    let m := s.readM a
    exec (.mand g d a b) s = .next ((s.writeM d (m &&& s.readM b)).retire 8) ∧
    exec (.mor g d a b) s = .next ((s.writeM d (m ||| s.readM b)).retire 8) ∧
    exec (.mxor g d a b) s = .next ((s.writeM d (m ^^^ s.readM b)).retire 8) ∧
    exec (.mnot g d a) s = .next ((s.writeM d (~~~m)).retire 8) ∧
    exec (.mpopc g r a) s = .next ((s.writeS r (BitVec.ofNat 64 ((List.range 1024).countP m.getLsbD))).retire 8) ∧
    (∃ n, n ≤ 1024 ∧ (∀ k, k < n → m.getLsbD k = false) ∧ (n < 1024 → m.getLsbD n = true) ∧
      exec (.mfirst g r a) s = .next ((s.writeS r (BitVec.ofNat 64 n)).retire 8)))

/-- R177, R181: VMOV, VSEL, VSPLAT and VIOTA. R188, R189: the permutations, insertions and extractions, by the number of each element. -/
def Obligations.VectorMovesAndPermutations : Prop :=
  (∀ (g : Guard) (f : Fmt) (rm : Rm) (sat : Bool) (d a b : VOp) (r : SReg) (c : MReg) (lit : BitVec 32) (s u w : State) (x y : Vec),
    s.guardTrue g = true → f.classV = true → s.readVOp a = .ok (x, u) → u.readVOp b = .ok (y, w) →
    (Takes u d → LaneWise (.vmov g f d a c) 8 s u f .rne d c (fun k => (lane f x k, 0))) ∧
    (Takes w d → Writes (.vsel g f d a b c) 8 s w f d (fun k => if maskBit (s.readM c) k then lane f x k else lane f y k)) ∧
    (Takes s d →
      LaneWise (.vsplat g f d r c) 8 s s f .rne d c (fun _ => ((s.readS r).toNat, 0)) ∧
      LaneWise (.vsplatLit g f rm sat d lit c) 12 s s f rm d c
        (fun k => if f.integer then narrowInt f sat lit.toInt else roundTo f (s.rounding rm sat) k (fpDecode .fp32 lit.toNat)) ∧
      LaneWise (.viota g f d r c) 8 s s f .rne d c (fun k => ((s.readS r).toNat + k, 0)) ∧
      LaneWise (.viotaLit g f d lit c) 12 s s f .rne d c (fun k => ((lit.signExtend 64).toNat + k, 0)))) ∧
  (∀ (g : Guard) (f : Fmt) (d a b : VOp) (r : VReg) (o p q : SReg) (c : MReg) (lit : BitVec 32) (s u w : State) (x y : Vec),
    s.guardTrue g = true → f.classV = true → s.readVOp a = .ok (x, u) → u.readVOp b = .ok (y, w) →
    let n := 4096 / f.width
    let m := s.readM c
    let slide (v : Word) (k : Nat) : Nat × Flags :=
      (if 0 ≤ (k : Int) + v.toInt ∧ (k : Int) + v.toInt < n then lane f x ((k : Int) + v.toInt).toNat else 0, 0)
    let both (k : Nat) : Nat := if k < n then lane f x k else lane f y (k - n)
    let pair (i : Instr) (h : Nat → Nat) : Prop :=
      (∀ v v', ∃ t, w.writeWide d [v, v'] = .ok t) →
      ∃ (v v' : Vec) (t : State), w.writeWide d [v, v'] = .ok t ∧ exec i s = .next (t.retire 8) ∧
        ∀ k, k < n → lane f v k = h k ∧ lane f v' k = h (n + k)
    let ext (k : Nat) : Word := if k < n then (if f.signed then BitVec.ofInt 64 (sextNat f.width (lane f x k)) else BitVec.ofNat 64 (lane f x k)) else 0
    let ins (k : Nat) (v : Word) (i : Instr) (len : Nat) : Prop := ∃ t, exec i s = .next (t.retire len) ∧ RegSameBut s t (s.offV r.val) 512 ∧
      CoreOnly s t ∧ NamedSame s t ∧ ∀ j, j < n → lane f (t.readV r) j = if j = k then v.toNat % 2 ^ f.width else lane f (s.readV r) j
    (Takes u d →
      LaneWise (.vslide g f d a p c) 8 s u f .rne d c (slide (s.readS p)) ∧
      LaneWise (.vslideLit g f d a lit c) 12 s u f .rne d c (slide (lit.signExtend 64)) ∧
      Writes (.vcompress g f d a c) 8 s u f d
        (fun k => (((List.range n).filter (maskBit m)).map (lane f x)).getD k 0) ∧
      Writes (.vexpand g f d a c) 8 s u f d
        (fun k => if maskBit m k then lane f x ((List.range k).countP (maskBit m)) else 0)) ∧
    pair (.vzip g f d a b) (fun k => if k % 2 = 0 then lane f x (k / 2) else lane f y (k / 2)) ∧
    pair (.vunzip g f d a b) (fun k => if k < n then both (2 * k) else both (2 * (k - n) + 1)) ∧
    (vpermAligned f b = true → ∀ ix t, u.readWide b (vpermRegs f) = .ok (ix, t) → Takes t d →
      LaneWise (.vperm g f d a b c) 8 s t f .rne d c (fun k =>
        let at_ := ((ix.getD (k / 256) 0).extractLsb' (16 * (k % 256)) 16).toNat
        (if at_ < n then lane f x at_ else 0, 0))) ∧
    exec (.vext g f o a p) s = .next ((u.writeS o (ext (s.readS p).toNat)).retire 8) ∧
    exec (.vextLit g f o a lit) s = .next ((u.writeS o (ext lit.toNat)).retire 12) ∧
    ins (s.readS q).toNat (s.readS p) (.vins g f r p q) 8 ∧ ins lit.toNat (s.readS p) (.vinsLit g f r p lit) 12)

/-- R182 to R185: conversions take element k of the narrower and the wider side alike (element k of r registers is in register k mod r at position k
div r), each converted with rounding index k. -/
def Obligations.ConversionsTakeElementsInOrder : Prop :=
  ∀ (g : Guard) (f sf : Fmt) (rm : Rm) (sat : Bool) (d a b : VOp) (r : SReg) (lit : BitVec 32) (s : State),
    s.guardTrue g = true → f.classV = true → sf.classV = true →
    let ro := s.rounding rm sat
    let n := max (4096 / f.width) (4096 / sf.width)
    let made (i : Instr) (len : Nat) (u : State) (h : Nat → Nat × Flags) : Prop :=
      (∀ rs, ∃ t, u.writeElems d f sf rs = .ok t) →
      ∃ (rs : List Nat) (fl : Flags) (t : State), rs.length = n ∧ (∀ k, k < n → rs[k]? = some (h k).1) ∧
        FlagsOf n (BitVec.allOnes 1024) h fl ∧ u.writeElems d f sf rs = .ok t ∧
        exec i s = .next (((t.orFlags fl).drawFor rm).retire len)
    (∀ xs u, s.readElems a sf f = .ok (xs, u) →
      (vcvtPair f sf = true → made (.vcvt g f sf rm sat d a) 8 u (fun k => convertElem f sf ro k (xs.getD k 0))) ∧
      (f.classI = true → sf.classI = true → vnarrowPair f sf = true →
        let shift (v : Word) (k : Nat) : Nat × Flags := narrowInt f sat (quotRound ro k (intOf sf (xs.getD k 0)) (min v.toNat 63))
        made (.vnarrow g f sf rm sat d a r) 8 u (shift (s.readS r)) ∧ made (.vnarrowLit g f sf rm sat d a lit) 12 u (shift (lit.setWidth 64)))) ∧
    (∀ x y u w, s.readVOp a = .ok (x, u) → u.readVOp b = .ok (y, w) → vwidenPair f sf = true →
      let by2 (fi : Int → Int → Int) (fv : FVal → FVal → FVal × Flags) (k : Nat) : Nat × Flags :=
        if f.integer then narrowInt f sat (fi (intOf sf (lane sf x k)) (intOf sf (lane sf y k)))
        else
          let v := fv (fpDecode sf (lane sf x k)) (fpDecode sf (lane sf y k))
          ((roundTo f ro k v.1).1, v.2 ||| (roundTo f ro k v.1).2)
      made (.vwadd g f sf rm sat d a b) 8 w (by2 (· + ·) (FVal.add rm)) ∧ made (.vwmul g f sf rm sat d a b) 8 w (by2 (· * ·) FVal.mul)) ∧
    (∀ v : VReg, ∃ xs, s.readElems (.reg v) sf f = .ok (xs, s) ∧
      ∀ k, k < n → xs[k]? = some (
        let q := max 1 (sf.width / f.width)
        lane sf (vecOfBytes (s.regBytesAt (s.offV (v.val + k % q)) 512)) (k / q))) ∧
    (∀ (v : VReg) (rs : List Nat), rs.length = n → ∃ t, s.writeElems (.reg v) f sf rs = .ok t ∧
      ∀ k, k < n →
        let q := max 1 (f.width / sf.width)
        lane f (vecOfBytes (t.regBytesAt (t.offV (v.val + k % q)) 512)) (k / q) = rs.getD k 0 % 2 ^ f.width)

/-- R105, R106, R186, R187: reductions and prefix sums. Of integers: the sum of the active elements, their greatest and least, and the running sums,
modulo the format; of floating-point elements, the tree and the chain that the rules fix. -/
def Obligations.ReductionsAndScansCombineActiveElements : Prop :=
  ∀ (g : Guard) (f : Fmt) (rm : Rm) (sat : Bool) (d a : VOp) (c : MReg) (s u : State) (x : Vec),
    s.guardTrue g = true → f.classIF = true → s.readVOp a = .ok (x, u) → Takes u d →
    let n := 4096 / f.width
    let m := s.readM c
    let act (k : Nat) : List Int := ((List.range k).filter (maskBit m)).map (fun j => intOf f (lane f x j))
    let first (i : Instr) (p : Nat → Prop) : Prop := ∃ (v : Vec) (fl : Flags) (t : State), u.writeVOp d v = .ok t ∧
      exec i s = .next (((t.orFlags fl).drawFor rm).retire 8) ∧ p (lane f v 0) ∧ ∀ k, 0 < k → k < n → lane f v k = 0
    let most (beats : FVal → FVal → Prop) (r : Nat) : Prop :=
      let vs := ((List.range n).filter (maskBit m)).map (fun j => fpDecode f (lane f x j))
      if vs = [] then r = 0 else if FVal.nan ∈ vs then r = f.canonNan else fpDecode f r ∈ vs ∧ ∀ w ∈ vs, beats (fpDecode f r) w
    (f.integer = true → rm = .rne →
      first (.vredsum g f rm false d a c) (fun r => (r : Int) = (act n).sum % 2 ^ f.width) ∧
      first (.vredmax g f d a c) (fun r => if act n = [] then r = 0 else ∃ e ∈ act n, (r : Int) = e % 2 ^ f.width ∧ ∀ y ∈ act n, y ≤ e) ∧
      first (.vredmin g f d a c) (fun r => if act n = [] then r = 0 else ∃ e ∈ act n, (r : Int) = e % 2 ^ f.width ∧ ∀ y ∈ act n, e ≤ y) ∧
      ∃ (v : Vec) (t : State), u.writeVOp d v = .ok t ∧ exec (.vscan g f rm false d a c) s = .next (t.retire 8) ∧
        ∀ k, k < n → (lane f v k : Int) = (act (k + 1)).sum % 2 ^ f.width) ∧
    (f.integer = false →
      first (.vredsum g f rm sat d a c) (fun r => r = (redsumFloat f (s.rounding rm sat) m (fmtElems f x)).1 % 2 ^ f.width) ∧
      (rm = .rne → first (.vredmax g f d a c) (most (fun v w => v.compare w ≠ .lt ∧ (v.compare w = .eq → v.negative = true → w.negative = true))) ∧
        first (.vredmin g f d a c) (most (fun v w => v.compare w ≠ .gt ∧ (v.compare w = .eq → w.negative = true → v.negative = true)))) ∧
      ∃ (v : Vec) (fl : Flags) (t : State), u.writeVOp d v = .ok t ∧ exec (.vscan g f rm sat d a c) s = .next (((t.orFlags fl).drawFor rm).retire 8) ∧
        ∀ k, k < n → lane f v k = ((scanLoop m (scanStep f (s.rounding rm sat)) 0 none (fmtElems f x)).1).getD k 0 % 2 ^ f.width)

/-- R179: the special functions lane by lane, and their table of special inputs. -/
def Obligations.SpecialFunctionsFollowTheirTable : Prop :=
  (∀ (g : Guard) (f : Fmt) (rm : Rm) (sat : Bool) (d a : VOp) (c : MReg) (s u : State) (x : Vec),
    s.guardTrue g = true → f.classF = true → s.readVOp a = .ok (x, u) → Takes u d →
    let by1 (i : Instr) (fn : SpecialFn) : Prop :=
      LaneWise i 8 s u f rm d c (fun k =>
        let v := specialVal fn f (fpDecode f (lane f x k))
        ((roundTo f (s.rounding rm sat) k v.1).1, v.2 ||| (roundTo f (s.rounding rm sat) k v.1).2))
    by1 (.vrcp g f rm sat d a c) .rcp ∧ by1 (.vrsq g f rm sat d a c) .rsq ∧ by1 (.vsqrt g f rm sat d a c) .sqrt ∧
    by1 (.vexp2 g f rm sat d a c) .exp2 ∧ by1 (.vlog2 g f rm sat d a c) .log2 ∧ by1 (.vtanh g f rm sat d a c) .tanh) ∧
  (∀ (f : Fmt) (fn : SpecialFn) (n : Bool) (m : Nat) (e : Int), f.classF = true →
    let zero (v : FVal) (n : Bool) : Prop := ∃ e, v = .fin n 0 e
    let one (v : FVal) (n : Bool) : Prop := ∃ m e, v = .fin n m e ∧ magCompare m e 1 0 = .eq
    let at_ (v : FVal) := specialVal fn f v
    at_ .nan = (.nan, 0) ∧
    (match fn with
      | .rcp => zero (at_ (.inf n)).1 n ∧ at_ (.fin n 0 e) = (.inf n, flagDZ)
      | .rsq => zero (at_ (.inf false)).1 false ∧ at_ (.inf true) = (.nan, flagNV) ∧ at_ (.fin n 0 e) = (.inf n, flagDZ) ∧
          (0 < m → at_ (.fin true m e) = (.nan, flagNV))
      | .sqrt => at_ (.inf false) = (.inf false, 0) ∧ at_ (.inf true) = (.nan, flagNV) ∧ zero (at_ (.fin n 0 e)).1 n ∧
          (0 < m → at_ (.fin true m e) = (.nan, flagNV))
      | .exp2 => at_ (.inf false) = (.inf false, 0) ∧ zero (at_ (.inf true)).1 false ∧ one (at_ (.fin n 0 e)).1 false
      | .log2 => at_ (.inf false) = (.inf false, 0) ∧ at_ (.inf true) = (.nan, flagNV) ∧ at_ (.fin n 0 e) = (.inf true, flagDZ) ∧
          (0 < m → at_ (.fin true m e) = (.nan, flagNV))
      | .tanh => one (at_ (.inf n)).1 n ∧ zero (at_ (.fin n 0 e)).1 n))

/-- The frame of the vector instructions whose operands are registers: memory, the other registers and the streams stay, the register space changes
only in the window of the destination, the status only in its flags, and the SRG counter only under the stochastic mode. -/
def Obligations.VectorInstructionsKeepEverythingElse : Prop :=
  ∀ (i : Instr) (v : VReg) (r : Nat) (rm : Rm) (s t : State), vectorShape i = some (v, r, rm) → exec i s = .next t →
    CoreOnly s t ∧ t.core = { s.core with rep := t.core.rep, link := none, scldAt := none,
                                          m := { s.core.m with img := { s.img with rs := t.img.rs, status := t.img.status, ctr := t.img.ctr,
                                                                                   pc := t.img.pc } } } ∧
    RegSameBut s t (s.offV v.val) (512 * r) ∧ StatusSameBut s t (BitVec.allOnes 6) ∧
    (rm ≠ .sr → t.img.ctr = s.img.ctr) ∧ (rm = .sr → t.img.ctr = s.img.ctr ∨ t.img.ctr = s.img.ctr + 1)

/-- R194, R195, R198, R209: SCPUSH and QDCVT, SCPOP fill and consume the scale queue oldest first; with no entry, or with four unconsumed, the
queue-imbalance fault of queue number 8 is raised. An entry that leaves lets the oldest outstanding SCLD fill (log 31). R91, R207, R208: RNGSEED sets
the seed and zeroes the counter; RNGGET writes the top bits of the draw of each active element and takes one counter value. -/
def Obligations.ScaleQueueAndRandomNumbers : Prop :=
  (∀ (g : Guard) (f sf : Fmt) (rm : Rm) (sat : Bool) (d a : VOp) (v : VReg) (b : SReg) (k : BitVec 1) (lit : BitVec 32) (s u : State) (x : Vec),
    s.guardTrue g = true →
    let full : Stop := .trap { code := 12, info := 8 }
    let part (w : Word) (y : Vec) : BitVec 256 := y.extractLsb' (256 * (w.extractLsb' 0 4).toNat) 256
    let push (w : Word) (i : Instr) (n : Nat) : Prop := s.readVOp a = .ok (x, u) →
      (u.img.scq.length < 4 → exec i s = .next ((u.setImg { u.img with scq := u.img.scq ++ [part w x] }).retire n)) ∧
      (4 ≤ u.img.scq.length → exec i s = .next (s.deliver unitVU full))
    let pop (w : Word) (i : Instr) (n : Nat) : Prop :=
      (s.img.scq = [] → exec i s = .next (s.deliver unitVU full)) ∧
      (∀ e rest, s.img.scq = e :: rest → ∃ t : State, exec i s = .next (t.retire n) ∧ CoreOnly s t ∧ NamedSame s t ∧ t.img.scq = rest ++ s.img.late.take 1 ∧
        t.img.late = s.img.late.drop 1 ∧ RegSameBut s t (s.offV v.val) 512 ∧ part w (t.readV v) = e ∧
        ∀ j, j < 512 → (j < 32 * (w.extractLsb' 0 4).toNat ∨ 32 * (w.extractLsb' 0 4).toNat + 32 ≤ j) →
          (t.readV v).extractLsb' (8 * j) 8 = (s.readV v).extractLsb' (8 * j) 8)
    push (s.readS b) (.scpush g a b) 8 ∧ push (lit.setWidth 64) (.scpushLit g a lit) 12 ∧
    pop (s.readS b) (.scpop g v b) 8 ∧ pop (lit.setWidth 64) (.scpopLit g v lit) 12 ∧
    (s.readVOp a = .ok (x, u) → u.img.scq = [] → exec (.qdcvt g f sf rm sat d a k) s = .next (s.deliver unitVU full)) ∧
    (sf = .e2m1 ∨ sf = .e4m3 ∨ sf = .e5m2 ∨ sf = .int8 → s.readVOp a = .ok (x, u) → ∀ e rest, u.img.scq = e :: rest →
      let w := u.setImg { u.img with scq := rest ++ u.img.late.take 1, late := u.img.late.drop 1 }
      let sc (i : Nat) : FVal := scaleVal (k == 1) (e.extractLsb' (8 * (i / 32)) 8).toNat
      let h (i : Nat) : Nat × Flags :=
        let r := roundTo f (s.rounding rm sat) i (mxVal sf (sc i) (lane sf x i))
        (r.1, if (sc i).isZero = true ∧ ∃ n, mxElem sf (lane sf x i) = .inf n then r.2 ||| flagNV else r.2)
      (∀ rs, ∃ t, w.writeElems d f sf rs = .ok t) → ∃ (rs : List Nat) (fl : Flags) (t : State),
        rs.length = 4096 / sf.width ∧ (∀ i, i < 4096 / sf.width → rs[i]? = some (h i).1) ∧ FlagsOf (4096 / sf.width) (BitVec.allOnes 1024) h fl ∧
        w.writeElems d f sf rs = .ok t ∧ exec (.qdcvt g f sf rm sat d a k) s = .next (((t.orFlags fl).drawFor rm).retire 8))) ∧
  (∀ (g : Guard) (f : Fmt) (d : VOp) (c : MReg) (b : SReg) (lit : BitVec 32) (s : State), s.guardTrue g = true →
    exec (.rngseed g b) s = .next ((s.setImg { s.img with seed := s.readS b, ctr := 0 }).retire 8) ∧
    exec (.rngseedLit g lit) s = .next ((s.setImg { s.img with seed := lit.setWidth 64, ctr := 0 }).retire 12) ∧
    ((f = .uint8 ∨ f = .uint16 ∨ f = .uint32) → Takes s d → ∃ (v : Vec) (t : State), s.writeVOp d v = .ok t ∧
      exec (.rngget g f d c) s = .next ((t.setImg { t.img with ctr := t.img.ctr + 1 }).retire 8) ∧
      ∀ k, k < 4096 / f.width → lane f v k =
        if maskBit (s.readM c) k then ((srg s.img.seed s.img.ctr k).extractLsb' (64 - f.width) f.width).toNat
        else match d with | .reg x => lane f (s.readV x) k | .queue _ => 0))

/-- R196, R197: QCVT quantises each block of 32 elements under one scale: the scale byte of the rule that its field selects, the elements divided by
it, rounded and saturated; a block with a NaN or an infinity takes the NaN scale, zero elements and NV. -/
def Obligations.QcvtQuantisesEachBlockUnderOneScale : Prop :=
  ∀ (g : Guard) (f sf : Fmt) (rm : Rm) (d a : VOp) (k : BitVec 2) (s u : State) (xs : List Nat),
    s.guardTrue g = true → (f = .e2m1 ∨ f = .e4m3 ∨ f = .e5m2 ∨ f = .int8) → s.readElems a sf f = .ok (xs, u) → xs.length = 4096 / f.width →
    (∀ v, ∃ t, u.writeVOp d v = .ok t ∧ t.img.scq.length < 4) →
    let val (i : Nat) : FVal := fpDecode sf (xs.getD i 0)
    let bad (b : Nat) : Prop := ∃ i, 32 * b ≤ i ∧ i < 32 * b + 32 ∧ (val i).special = true
    let largest (b : Nat) : FVal := blockMax ((List.range 32).map (fun i => val (32 * b + i)))
    ∃ (v : Vec) (e : BitVec 256) (fl : Flags) (t : State), u.writeVOp d v = .ok t ∧
      exec (.qcvt g f sf rm d a k) s = .next (((((t.setImg { t.img with scq := t.img.scq ++ [e] }).orFlags fl).drawFor rm)).retire 8) ∧
      ∀ b, b < 128 / f.width →
        let sc := (e.extractLsb' (8 * b) 8).toNat
        (bad b → sc = (if k.getLsbD 0 then 0x7F else 0xFF) ∧ fl.getLsbD 0 = true ∧ ∀ i, i < 32 → lane f v (32 * b + i) = 0) ∧
        (¬ bad b → sc = blockScale f k (largest b) ∧
          (k = 0 → ∀ m x, largest b = .fin false m x → 0 < m → (sc : Int) = max 0 (min 254 (floorLog2 m x - mxEmax f + 127))) ∧
          ∀ i, i < 32 → lane f v (32 * b + i) =
            (qcvtElem f (s.rounding rm true) (scaleVal (k.getLsbD 0) sc) (32 * b + i) (val (32 * b + i))).1 % 2 ^ f.width)

/-- R199 to R206: the lattice instructions, between L16 and a format of class F. LQ writes the 16 words of its group, LQREP those whose mask selects a
coordinate, and neither touches another word; LDQ writes the decoded, rounded coordinates of its half; LSTAT reports the conditions of each point. -/
def Obligations.LatticeInstructionsQuantiseAndDecode : Prop :=
  ∀ (g : Guard) (f : Fmt) (rm : Rm) (sat : Bool) (d : VReg) (a : VOp) (o b : SReg) (lit : BitVec 32) (s u : State) (x : Vec),
    s.guardTrue g = true → f.classF = true → s.readVOp a = .ok (x, u) →
    let scale (l : Word) : FVal := fpDecode .bf16 (l.extractLsb' 0 16).toNat
    let G (l : Word) : Nat := (l.extractLsb' 17 4).toNat
    let half (l : Word) (q : Fmt) : Nat := if q.width = 16 then 128 * (l.extractLsb' 16 1).toNat else 0
    let pads (l : Word) : Nat := (l.extractLsb' 21 7).toNat
    let word (v : Vec) (k : Nat) : Nat := (v.extractLsb' (16 * k) 16).toNat
    let elem (l : Word) (t : Nat) : Target := .elem (fpDecode f (lane f x (half l f + t)))
    let point (l : Word) (p : Nat) : PointRes :=
      quantPoint (scale l) ((List.range 8).map (fun k => if 128 - pads l ≤ 8 * p + k then .pad else elem l (8 * p + k)))
    let others (l : Word) (v : Vec) : Prop := ∀ k, k < 256 → (k < 16 * G l ∨ 16 * G l + 16 ≤ k) → word v k = word (s.readV d) k
    let lq (l : Word) (i : Instr) (n : Nat) : Prop := ∃ (v : Vec) (fl : Flags), exec i s = .next (((u.writeV d v).orFlags fl).retire n) ∧
      others l v ∧ (∀ p, p < 16 → word v (16 * G l + p) = (point l p).word % 65536) ∧
      ∀ j, j < 6 → (fl.getLsbD j = true ↔ ∃ p, p < 16 ∧ ((point l p).flags sat).getLsbD j = true)
    let rep (l : Word) (i : Instr) (n : Nat) : Prop := ∃ (v : Vec) (fl : Flags), exec i s = .next (((u.writeV d v).orFlags fl).retire n) ∧
      let m := s.readM (l.extractLsb' 28 4)
      let old (p : Nat) : Nat := word (s.readV d) (16 * G l + p)
      let kept (p : Nat) : Prop := ∀ k, k < 8 → maskBit m (8 * p + k) = false
      let again (p : Nat) : PointRes := quantPoint (scale l) ((List.range 8).map (fun k =>
        if maskBit m (8 * p + k) then elem l (8 * p + k) else .keep (l16Coord2 (old p) k)))
      others l v ∧ (∀ p, p < 16 → word v (16 * G l + p) = if kept p then old p else (again p).word % 65536) ∧
      ∀ j, j < 6 → (fl.getLsbD j = true ↔ ∃ p, p < 16 ∧ ¬ kept p ∧ ((again p).flags sat).getLsbD j = true)
    let ldq (l : Word) (i : Instr) (n : Nat) : Prop := ∃ (v : Vec) (fl : Flags),
      exec i s = .next (((((u.writeV d v).orFlags fl)).drawFor rm).retire n) ∧
      let coord (t : Nat) : Nat × Flags := ldqElem f (s.rounding rm sat) (scale l) (half l f + t) (word x (16 * G l + t / 8)) (t % 8)
      (∀ k, k < 4096 / f.width → lane f v k =
        if half l f ≤ k ∧ k < half l f + 128 then (coord (k - half l f)).1 % 2 ^ f.width else lane f (s.readV d) k) ∧
      ∀ j, j < 6 → (fl.getLsbD j = true ↔ ∃ t, t < 128 ∧ (coord t).2.getLsbD j = true)
    let lstat (l : Word) (i : Instr) (n : Nat) : Prop := ∃ w : Word, exec i s = .next ((u.writeS o w).retire n) ∧
      (∀ p, p < 16 → w.getLsbD p = (point l p).overflow ∧ w.getLsbD (16 + p) = (point l p).inexact ∧ w.getLsbD (32 + p) = (point l p).invalid) ∧
      (w.extractLsb' 48 16).toNat = (List.range 16).countP (fun p => (point l p).overflow)
    lq (s.readS b) (.lq g .l16 f sat d a b) 8 ∧ lq (lit.setWidth 64) (.lqLit g .l16 f sat d a lit) 12 ∧
    rep (s.readS b) (.lqrep g .l16 f sat d a b) 8 ∧ rep (lit.setWidth 64) (.lqrepLit g .l16 f sat d a lit) 12 ∧
    ldq (s.readS b) (.ldq g f .l16 rm sat d a b) 8 ∧ ldq (lit.setWidth 64) (.ldqLit g f .l16 rm sat d a lit) 12 ∧
    lstat (s.readS b) (.lstat g .l16 f o a b) 8 ∧ lstat (lit.setWidth 64) (.lstatLit g .l16 f o a lit) 12

/-- R201: what `near` without bounds answers is a point of E8 (all integers, or all halves, with an even sum of the integer parts), and no point of E8
is nearer. Coordinates are in units of 1/d, d even. -/
def Obligations.LatticeQuantiserFindsANearestPoint : Prop :=
  ∀ (d : Nat) (y : List Int), 0 < d → d % 2 = 0 → y.length = 8 →
    let dist (p : List Int) (c : Nat) : Int := (List.zipWith (fun (a n : Int) => (a - n * (d : Int) - (c : Int) * ((d / 2 : Nat) : Int)) ^ 2) y p).sum
    (near false d y).1.length = 8 ∧ (near false d y).1.sum % 2 = 0 ∧ (near false d y).2 < 2 ∧
    ∀ (q : List Int) (c : Nat), q.length = 8 → q.sum % 2 = 0 → c < 2 → dist (near false d y).1 (near false d y).2 ≤ dist q c

/-- R109, R211, R216, R221: MMA of integer formats on a tile and a valid slot of its class adds to every element of the accumulator the exact sum of
products over the depth, narrowed to INT32; nothing else of the register space changes. -/
def Obligations.IntegerMmaAddsTheDotProducts : Prop :=
  ∀ (g : Guard) (f : Fmt) (sat : Bool) (d : AccReg) (a : TileReg) (b : WSlot) (s : State), s.guardTrue g = true →
    let r := s.slotRec b
    (f = .int8 ∨ f = .uint8 ∨ f = .int4 ∨ f = .uint4) → r.st = .valid → s.slotFail b = none →
    matrixClass r.format = matrixClass f → runsOverlap (s.offAcc d.toNat) 16384 (s.offT a.toNat) 4096 = false → r.c.getLsbD 2 = false →
    let n := 512 / f.width
    let elem (q : Fmt) (bs : List Byte) (k : Nat) : Int := intOf q (natOfBytes bs / 2 ^ (q.width * k) % 2 ^ q.width)
    let A (i k : Nat) : Int := elem f (s.regBytesAt (s.offT a.toNat + 64 * i) 64) k
    let B (k j : Nat) : Int := elem r.format (((s.slotBytes b).drop (64 * j)).take 64) k
    let acc (t : State) (i j : Nat) : Nat := natOfBytes (t.regBytesAt (t.offAcc d.toNat + 4 * (64 * i + j)) 4)
    let new (i j : Nat) : Nat × Flags := narrowInt .int32 sat (sextNat 32 (acc s i j) + ((List.range n).map (fun k => A i k * B k j)).sum)
    ∃ (u : State) (fl : Flags), exec (.mma g f sat d (.tile a) b) s = .next (u.retire 8) ∧ (∀ i j, i < 64 → j < 64 → acc u i j = (new i j).1) ∧
      RegSameBut s u (s.offAcc d.toNat) 16384 ∧ u.mem = s.mem ∧ (∀ x, u.readS x = s.readS x) ∧ (∀ p, u.readP p = s.readP p) ∧
      u.img.status = s.img.status ||| (fl.setWidth 64 <<< 2) ∧
      ∀ k, k < 6 → (fl.getLsbD k = true ↔ ∃ i j, i < 64 ∧ j < 64 ∧ (new i j).2.getLsbD k = true)

/-- R216 to R223: the other matrix instructions on operands whose checks pass: the rows they take (a tile or eight entries, rebuilt dense rows,
gathered rows, coset columns) are accumulated by R108 or R109; a NaN that decoding makes of other values raises NV (log 93). R108: MMA of
floating-point formats without scales: each element of the accumulator takes the products of the depth in chunks of 16, 32 or 64. A chunk is the NaN
or infinity of its products, or their exact sum rounded to FP32 (+0 for zero), and is added to the element with one more rounding. R220, R227: a
matrix instruction whose slot is Invalid, or holds a format of another class, raises the weight-slot fault, code 15; one whose tile overlaps its
accumulator the accumulator-view fault, code 16. -/
def Obligations.MatrixInstructionsAccumulateOrFault : Prop :=
  (∀ (g : Guard) (f : Fmt) (sat : Bool) (d : AccReg) (a : TOp) (e c : TileReg) (b : WSlot) (o : VOp) (s : State), s.guardTrue g = true →
    let rowsOf (bs : List Byte) : List (List Nat) := (slices 64 64 bs).map (rowElems f)
    (∀ (tile : List Byte) (u w x : State) (r : SlotRec) (sc : Option (List (List Nat))) (lat : Bool),
      s.readTile a = .ok (tile, u) → u.slotFor f lat b = .ok (r, w) →
      w.viewClear d (match a with | .tile t => [(w.offT t.toNat, 4096)] | .queue _ => []) = .ok () →
      w.takeScales f (matrixDepth f) = .ok (sc, x) →
      exec (if lat then .mmal g f sat d a b else .mma g f sat d a b) s =
        .next (((x.accumulate f sat d (matrixCycles f) (isQueue a) sc.isSome (x.rowVals f sc (rowsOf tile)) (x.slotColumns r b)).orFlags
          (x.rowFlags f sc (rowsOf tile))).retire 8)) ∧
    (∀ (tile : List Byte) (u w w' x : State) (r r' : SlotRec) (sc : Option (List (List Nat))),
      s.readTile a = .ok (tile, u) → u.slotFor f false b = .ok (r, w) → w.slotFor f false (b + 1) = .ok (r', w') → r.format = r'.format →
      w'.viewClear d (w'.tileRuns a c) = .ok () → w'.takeScales f (2 * matrixDepth f) = .ok (sc, x) →
      let metas := patternsOf (2 * matrixDepth f / 8) 64 (x.regBytesAt (x.offT c.toNat) 4096)
      let cols := List.zipWith (fun p q => (p.1 ++ q.1, p.2 ||| q.2)) (x.slotColumns r b) (x.slotColumns r' (b + 1))
      let rows := List.zipWith denseRow (rowsOf tile) metas
      exec (.mmas g f sat d a b c) s =
        .next (((x.accumulate f sat d (matrixCycles f) (isQueue a) sc.isSome (x.rowVals f sc rows) cols).orFlags (x.rowFlags f sc rows)).retire 8)) ∧
    (∀ (v : Vec) (u w x : State) (r : SlotRec) (sc : Option (List (List Nat))),
      (match o with
        | .reg n => v = s.readV n ∧ u = s
        | .queue q => s.popEntries q 1 = .ok ([v], u)) →
      u.slotFor f false b = .ok (r, w) →
      let index (i : Nat) : Nat := (v.extractLsb' (16 * i) 16).toNat
      let limit := (w.mr.mcw.extractLsb' 16 12).toNat
      let at_ (i : Nat) : Nat := (w.offT e.toNat + 64 * index i) % regBytes
      let out (i : Nat) : Bool := limit != 0 && decide (limit ≤ index i)
      w.viewClear d (((List.range 64).filter (fun i => !out i)).map (fun i => (at_ i, 64))) = .ok () →
      (∀ i, i < 64 → out i = false → w.soundReg (at_ i) 64 = .ok ()) →
      w.takeScales f (matrixDepth f) = .ok (sc, x) →
      let rows := (List.range 64).map (fun i => rowElems f (if out i then List.replicate 64 0 else x.regBytesAt (at_ i) 64))
      exec (.mmag g f sat d e b o) s =
        .next (((x.accumulate f sat d (matrixCycles f + 8) (match o with | .reg _ => false | .queue _ => true) sc.isSome
          (x.rowVals f sc rows) (x.slotColumns r b)).orFlags (x.rowFlags f sc rows)).retire 8))) ∧
  (∀ (g : Guard) (f : Fmt) (sat : Bool) (d : AccReg) (a : TileReg) (b : WSlot) (s : State), s.guardTrue g = true →
    let r := s.slotRec b
    f ∈ [.bf16, .fp16, .e4m3, .e5m2, .e2m1] → r.format ∈ [.bf16, .fp16, .e4m3, .e5m2, .e2m1] → r.st = .valid → s.slotFail b = none →
    matrixClass r.format = matrixClass f → r.depth = matrixDepth f → r.c.getLsbD 2 = false → s.scalesA f = false →
    runsOverlap (s.offAcc d.toNat) 16384 (s.offT a.toNat) 4096 = false →
    let n := 512 / f.width
    let cs := if f.width = 16 then 16 else if f.width = 8 then 32 else 64
    let elem (q : Fmt) (bs : List Byte) (k : Nat) : FVal := fpDecode q (natOfBytes bs / 2 ^ (q.width * k) % 2 ^ q.width)
    let A (i k : Nat) : FVal := elem f (s.regBytesAt (s.offT a.toNat + 64 * i) 64) k
    let B (k j : Nat) : FVal := elem r.format (((s.slotBytes b).drop (64 * j)).take 64) k
    let prod (i j k : Nat) : FVal := ((A i k).mul (B k j)).1
    let acc (t : State) (i j : Nat) : Nat := natOfBytes (t.regBytesAt (t.offAcc d.toNat + 4 * (64 * i + j)) 4)
    let value (v : FVal) : Rat := match v with | .fin neg m e => (if neg then -1 else 1) * m * (2 : Rat) ^ e | _ => 0
    let chunk (i j c t : Nat) : Prop :=
      let In (k : Nat) : Prop := cs * c ≤ k ∧ k < cs * c + cs
      let isNan : Prop := (∃ k, In k ∧ prod i j k = .nan) ∨ (∃ k, In k ∧ prod i j k = .inf false) ∧ ∃ k, In k ∧ prod i j k = .inf true
      let exact : Rat := ((List.range cs).map (fun k => value (prod i j (cs * c + k)))).sum
      (isNan → t = (roundTo .fp32 (Rounding.rne false) 0 .nan).1) ∧
      (¬ isNan → ∀ neg k, In k → prod i j k = .inf neg → t = (roundTo .fp32 (Rounding.rne false) 0 (.inf neg)).1) ∧
      (¬ isNan → (∀ k, In k → (prod i j k).isInf = false) →
        (exact = 0 → t = 0) ∧ (exact ≠ 0 → ∃ neg m e, value (.fin neg m e) = exact ∧ t = (roundTo .fp32 (Rounding.rne false) 0 (.fin neg m e)).1))
    ∃ (u : State) (x t : Nat → Nat → Nat → Nat), exec (.mma g f sat d (.tile a) b) s = .next (u.retire 8) ∧
      (∀ i j, i < 64 → j < 64 → x i j 0 = acc s i j ∧ acc u i j = x i j (n / cs) ∧ ∀ c, c < n / cs → chunk i j c (t i j c) ∧
        x i j (c + 1) = (roundTo .fp32 (Rounding.rne sat) 0 (FVal.add .rne (fpDecode .fp32 (x i j c)) (fpDecode .fp32 (t i j c))).1).1) ∧
      RegSameBut s u (s.offAcc d.toNat) 16384 ∧ u.mem = s.mem ∧ (∀ r, u.readS r = s.readS r) ∧ ∀ p, u.readP p = s.readP p) ∧
  (∀ (g : Guard) (f : Fmt) (sat : Bool) (d : AccReg) (a : TileReg) (b : WSlot) (s : State), s.guardTrue g = true →
    let r := s.slotRec b
    let slot : Stop := .trap { code := 15, info := b.setWidth 64 }
    (r.st = .invalid → s.slotFail b = none → exec (.mma g f sat d (.tile a) b) s = .next (s.deliver unitMU slot) ∧
      exec (.mmal g f sat d (.tile a) b) s = .next (s.deliver unitMU slot)) ∧
    (r.st = .valid → s.slotFail b = none → (r.format = .l16 ∨ matrixClass r.format ≠ matrixClass f) →
      exec (.mma g f sat d (.tile a) b) s = .next (s.deliver unitMU slot)) ∧
    (r.st = .valid → s.slotFail b = none → r.format ≠ .l16 → matrixClass r.format = matrixClass f → r.depth = matrixDepth f →
      runsOverlap (s.offAcc d.toNat) 16384 (s.offT a.toNat) 4096 = true →
      exec (.mma g f sat d (.tile a) b) s = .next (s.deliver unitMU (.trap { code := 16, info := d.setWidth 64 }))))

/-- R224 to R226: MZERO zeroes its accumulator; MDRAIN writes it converted to a tile window, or pushes it to a queue in entries, zeroes it when it is
told to, and raises the word of the largest magnitude that it is given, as an integer or as an FP32 value by the maximum of R107. -/
def Obligations.MzeroAndMdrainEmptyTheAccumulator : Prop :=
  ∀ (g : Guard) (f : Fmt) (rm : Rm) (sat : Bool) (sc : Scope) (cl : BitVec 4) (sp : Space) (z : Bool) (d : TileReg) (a : AccReg) (b : SReg)
      (lit : BitVec 32) (s : State), s.guardTrue g = true →
    let acc (t : State) (k : Nat) : Nat := natOfBytes (t.regBytesAt (t.offAcc a.toNat + 4 * k) 4)
    let out (k : Nat) : Nat × Flags := if f.integer then narrowInt f sat (sextNat 32 (acc s k)) else roundTo f (s.rounding rm sat) k (fpDecode .fp32 (acc s k))
    let drains (ea : Word) (i : Instr) (n : Nat) : Prop :=
      f ∈ [.fp32, .bf16, .fp16, .e4m3, .e5m2, .int32, .int16, .int8] →
      runsOverlap (s.offAcc a.toNat) 16384 (s.offT d.toNat) (512 * f.width) = false →
      (sp = .virt ∨ ((sp = .vault ∨ sp = .ns) ∧ ea.toNat % 4 = 0 ∧ ea.toNat + 4 ≤ (if sp = .ns then s.core.nsSize else 0x10000000) ∧
        Sound s (s.padBase sp + ea.toNat) 4 ∧ ∀ c, s.self = some c → c.journal = none)) →
      ∃ (t : State) (fl : Flags), exec i s = .next (t.retire n) ∧
        (∀ k, k < 4096 → natOfBytes (t.regBytesAt (t.offT d.toNat + f.width * k / 8) (f.width / 8)) = (out k).1) ∧
        (∀ k, k < 4096 → acc t k = if z then 0 else acc s k) ∧ t.img.status = s.img.status ||| (fl.setWidth 64 <<< 2) ∧
        (∀ j, j < 6 → (fl.getLsbD j = true ↔ ∃ k, k < 4096 ∧ (out k).2.getLsbD j = true)) ∧
        (∀ r, t.readS r = s.readS r) ∧ (∀ p, t.readP p = s.readP p) ∧
        (sp = .virt → t.mem = s.mem) ∧ (sp ≠ .virt → MemSameBut s t (s.padBase sp + ea.toNat) 4) ∧
        (sp ≠ .virt → f.integer = true →
          natOfBytes (t.mem.bytes (s.padBase sp + ea.toNat) 4) % 2 ^ 32 =
            ((List.range 4096).foldl (fun m k => max m (sextNat 32 (acc s k)).natAbs) (natOfBytes (s.mem.bytes (s.padBase sp + ea.toNat) 4))) % 2 ^ 32) ∧
        (sp ≠ .virt → f.integer = false →
          natOfBytes (t.mem.bytes (s.padBase sp + ea.toNat) 4) = (encodeExact .fp32 ((List.range 4096).foldl
            (fun m k => fpMax m (fpDecode .fp32 (acc s k)).abs) (fpDecode .fp32 (natOfBytes (s.mem.bytes (s.padBase sp + ea.toNat) 4))))) % 2 ^ 32)
    let pushes (q : QReg) (i : Instr) (n : Nat) : Prop :=
      f ∈ [.fp32, .bf16, .fp16, .e4m3, .e5m2, .int32, .int16, .int8] →
      let e := 4096 / f.width
      let vs := (List.range f.width).map (fun j => vecOfElems f.width ((List.range e).map (fun k => (out (e * j + k)).1)))
      match s.writeWide (.queue q) vs with
      | .error st => exec i s = .next (s.deliver unitMU st)
      | .ok u => ∃ (t : State) (fl : Flags), exec i s = .next (t.retire n) ∧ t.core.queues = u.core.queues ∧ t.img.q = u.img.q ∧ t.mem = u.mem ∧
          (∀ k, k < 4096 → acc t k = if z then 0 else acc u k) ∧ t.img.status = u.img.status ||| (fl.setWidth 64 <<< 2) ∧
          (∀ j, j < 6 → (fl.getLsbD j = true ↔ ∃ k, k < 4096 ∧ (out k).2.getLsbD j = true)) ∧
          (∀ r, t.readS r = s.readS r) ∧ ∀ p, t.readP p = s.readP p
    (∀ q, pushes q (.mdrain g f rm sat sc cl .virt z (.queue q) a b) 8 ∧ pushes q (.mdrainLit g f rm sat sc cl .virt z (.queue q) a lit) 12) ∧
    GoesOn (.mzero g a) 8 s (fun u => (∀ k, k < 4096 → acc u k = 0) ∧ RegSameBut s u (s.offAcc a.toNat) 16384 ∧ u.mem = s.mem) ∧
    drains (s.readS b) (.mdrain g f rm sat sc cl sp z (.tile d) a b) 8 ∧
    drains (lit.setWidth 64) (.mdrainLit g f rm sat sc cl sp z (.tile d) a lit) 12

/-- R215, R227, R229, R231, R233: MCFG writes the control word or raises fault 17; WLOAD fills its slot and makes it Valid, moving the table pointer
past the tables it used; WTAB sets the table pointer; WSTAT and MSTAT read the record. -/
def Obligations.WeightSlotsLoadAndReport : Prop :=
  ∀ (g : Guard) (f : Fmt) (cl : BitVec 4) (sp : Space) (mx ue k32 : Bool) (d : WSlot) (o a b : SReg) (k : BitVec 2) (j : Fin 5)
      (lit : BitVec 32) (s : State), s.guardTrue g = true →
    let cfg (v : Word) (i : Instr) (n : Nat) : Prop :=
      (v.extractLsb' 0 2 ≠ 3 → v &&& ~~~0x0FFF0003#64 = 0 → exec i s = .next ((s.setMr { s.mr with mcw := v }).retire n)) ∧
      (v.extractLsb' 0 2 = 3 ∨ v &&& ~~~0x0FFF0003#64 ≠ 0 → exec i s = .next (s.deliver unitSQ (.trap { code := 17, info := v })))
    let c : BitVec 6 := 0#1 ++ BitVec.ofBool k32 ++ BitVec.ofBool ue ++ BitVec.ofBool mx ++ sp.code
    let load (ea : Word) (i : Instr) (n : Nat) : Prop :=
      ∀ v, s.slotImage f c ea s.mr.tv (Space.ofCode s.mr.ts) s.mr.t.toNat = .ok v → ∃ t : State, exec i s = .next (t.retire n) ∧
        (t.slotRec d).st = .valid ∧ (t.slotRec d).format = (if f = .cb3 then .bf16 else f) ∧ (t.slotRec d).ea = ea ∧ (t.slotRec d).c = c ∧
        t.slotFail d = none ∧ t.core.wbuf[d.toFin] = v ∧ t.mr.t = (if f = .cb3 then s.mr.t + 256 else s.mr.t) ∧ t.mr.mcw = s.mr.mcw ∧
        t.mr.read = s.mr.read + BitVec.ofNat 64 (imageBytes f c + if f = .cb3 then 256 else 0) ∧
        (∀ e, e ≠ d → t.slotRec e = s.slotRec e ∧ t.core.wbuf[e.toFin] = s.core.wbuf[e.toFin]) ∧ t.mem = s.mem ∧ t.img = s.img
    let tab (ea : Word) (i : Instr) (n : Nat) : Prop :=
      (ea.toNat % 16 ≠ 0 → exec i s = .next (s.deliver unitWSU (.trap { code := 4, faddr := ea }))) ∧
      (ea.toNat % 16 = 0 → s.checkRun sp (some .wsu) ea.toNat 16 = .ok () →
        ∃ t : State, exec i s = .next (t.retire n) ∧ t.mr = { s.mr with t := ea.setWidth 57, ts := sp.code, tv := true } ∧
          t = { s with core := { s.core with wtab := t.core.wtab, m := { s.core.m with mr := t.mr } } })
    let bits (st : SlotState) (w : Word) (at_ : Nat) : Prop := ∀ x : WSlot, w.getLsbD (at_ + x.toNat) = decide ((s.slotRec x).st = st)
    cfg (s.readS b) (.mcfg g b) 8 ∧ cfg (lit.setWidth 64) (.mcfgLit g lit) 12 ∧
    load (s.readS a + s.readS b) (.wload g f cl sp mx ue k32 d a b) 8 ∧
    load (s.readS a + lit.signExtend 64) (.wloadLit g f cl sp mx ue k32 d a lit) 12 ∧
    tab (s.readS a + s.readS b) (.wtab g cl sp a b) 8 ∧ tab (s.readS a + lit.signExtend 64) (.wtabLit g cl sp a lit) 12 ∧
    (∃ w, exec (.wstat g o k) s = .next ((s.writeS o w).retire 8) ∧
      (k = 0 → bits .valid w 0 ∧ bits .loading w 16 ∧ w.getLsbD 32 = s.mr.tv ∧ w.extractLsb' 33 2 = s.mr.ts) ∧
      (k = 1 → w = s.mr.late) ∧ (k = 2 → w = s.mr.t.setWidth 64) ∧ (k = 3 → w = s.mr.read)) ∧
    (∃ w, exec (.mstat g o j) s = .next ((s.writeS o w).retire 8) ∧
      (j = 0 → w = s.mr.mcw) ∧ (j = 1 → w = s.mr.instrs) ∧ (j = 2 → w = s.mr.waitA) ∧ (j = 3 → w = s.mr.waitS) ∧ (j = 4 → w = s.mr.busy))

/-- R240, R242, R244, R247: COPY, CFILL and XPOSE on runs that pass their checks: every source byte is read before any is written, a fill repeats its
pattern, a transpose puts element (i, j) at (j, i); nothing else of memory and no named register changes. That XPOSE's literal form ignores bits 31 to
16 is the model's choice (log 96). R243, R245, R246: COPYN, GATHER and SCATTER on walks that pass their checks (`ps` and `pd` are the parts of each
element read and written): element by element in order, a later write of one place standing; GATHER reads each element after it has put the one before
it, and packs them. That SCATTER reads every source element from the state before, also under overlap, is the model's choice (log 96), and so is how
elements count against the size limit (log 104). R240: the checks of COPY and COPYN in their order, on the state before and with no byte written:
shape (code 10), size (6), place (5 for a virtual address, else 6, at the first byte outside), then the owner of the tiles (7); the source comes
before the destination, and COPYN's disagreeing shapes name the destination's (log 52). -/
def Obligations.CopiesFillsAndWalksMoveElements : Prop :=
  (∀ (g : Guard) (f : Fmt) (sc : Scope) (cl : BitVec 4) (dsp ssp : Space) (d a b : SReg) (lit : BitVec 32) (s : State) (ld ls : Loc),
    s.guardTrue g = true → Clean s →
    let dst := (s.readS d).toNat
    let src := (s.readS a).toNat
    let moved (i : Instr) (len n : Nat) (p : State → Prop) : Prop := GoesOn i len s (fun u => SameOutside s u ld n ∧ p u)
    let copies (n : Nat) (i : Instr) (len : Nat) : Prop :=
      n ≤ 1048576 → EngineRun s .ce .read ssp src n ls → EngineRun s .ce .write dsp dst n ld →
      moved i len n (fun u => ∀ k, k < n → u.byteAt ld k = s.byteAt ls k)
    let fills (n : Nat) (i : Instr) (len : Nat) : Prop :=
      n ≤ 1048576 → f.width % 4 = 0 → 8 * n % f.width = 0 → EngineRun s .ce .write dsp dst n ld →
      moved i len n (fun u => ∀ k, k < 2 * n → u.nibbleAt ld k = (s.readS a).toNat / 16 ^ (k % (f.width / 4)) % 16)
    let turns (geom : Word) (i : Instr) (len : Nat) : Prop :=
      let rows := (geom.extractLsb' 0 8).toNat + 1
      let cols := (geom.extractLsb' 8 8).toNat + 1
      let n := (rows * cols * f.width + 7) / 8
      f.width % 4 = 0 → EngineRun s .xe .read ssp src n ls → EngineRun s .xe .write dsp dst n ld →
      moved i len n (fun u =>
        (∀ x y q, x < rows → y < cols → q < f.width / 4 →
          u.nibbleAt ld ((y * rows + x) * (f.width / 4) + q) = s.nibbleAt ls ((x * cols + y) * (f.width / 4) + q)) ∧
        ∀ k, rows * cols * (f.width / 4) ≤ k → k < 2 * n → u.nibbleAt ld k = s.nibbleAt ld k)
    copies (s.readS b).toNat (.copy g sc cl dsp ssp d a b) 8 ∧ copies lit.toNat (.copyLit g sc cl dsp ssp d a lit) 12 ∧
    fills (s.readS b).toNat (.cfill g f sc cl dsp d a b) 8 ∧ fills lit.toNat (.cfillLit g f sc cl dsp d a lit) 12 ∧
    turns (s.readS b) (.xpose g f sc cl dsp ssp d a b) 8 ∧ turns (lit.setWidth 64) (.xposeLit g f sc cl dsp ssp d a lit) 12) ∧
  (∀ (g : Guard) (sc : Scope) (cl : BitVec 4) (sp : Space) (d a b : ShReg) (r : SReg) (s : State), s.guardTrue g = true → Clean s →
    let lastWins (u : State) (w : Nat) (pd : List (List (Loc × Nat))) (v : Nat → Nat) : Prop :=
      (∀ x, (∀ p ∈ pd, ∀ pa n, (Loc.mem pa, n) ∈ p → x < pa ∨ pa + n ≤ x) → u.mem.read x = s.mem.read x) ∧
      ∀ k pa, 8 ≤ w → pd[k]? = some [(.mem pa, w / 8)] → ∀ j, j < w / 8 →
        (∀ k' p, k < k' → pd[k']? = some p → ∀ qa n, (Loc.mem qa, n) ∈ p → pa + j < qa ∨ qa + n ≤ pa + j) →
        u.mem.read (pa + j) = BitVec.ofNat 8 (v k / 256 ^ j)
    (∀ sa sd ps pd, s.plainShape a = .ok sa → s.plainShape d = .ok sd → (shFmtD sa).width = (shFmtD sd).width →
      shLength sa = shLength sd → elemBytes (shFmtD sa).width (shLength sa) ≤ 1048576 →
      s.checkSides .ce [{ sp := shSpace sa, acc := .read, runs := elemRuns sa (walkElems sa) },
                        { sp := shSpace sd, acc := .write, runs := elemRuns sd (walkElems sd) }] = .ok [ps, pd] →
      GoesOn (.copyn g sc cl d a) 8 s (fun u => lastWins u (shFmtD sa).width pd
        (fun k => s.engineGet (shFmtD sa).width ((walkElems sa).getD k (0, false)).2 (ps.getD k [])))) ∧
    (∀ sh es t ps pa, s.gatherSetup a b = .ok (sh, es, t) → sp ≠ .reg → 8 ≤ (shFmtD sh).width →
      let w := (shFmtD sh).width / 8
      t.checkSides .xe [{ sp := shSpace sh, acc := .read, runs := elemRuns sh es },
                        { sp := sp, acc := .write, runs := [((s.readS r).toNat, w * es.length)] }] = .ok [ps, [[(.mem pa, w * es.length)]]] →
      GoesOn (.gather g sc cl sp r a b) 8 s (fun u => MemSameBut s u pa (w * es.length) ∧ ∃ m : Nat → Memory,
        m 0 = s.mem ∧ u.mem = m es.length ∧ ∀ k, k < es.length →
          (∀ x, x < pa + k * w ∨ pa + k * w + w ≤ x → (m (k + 1)).read x = (m k).read x) ∧
          ∀ qa, ps[k]? = some [(.mem qa, w)] → ∀ j, j < w → (m (k + 1)).read (pa + k * w + j) = (m k).read (qa + j))) ∧
    (∀ sh es t pa pd, s.gatherSetup d b = .ok (sh, es, t) → sp ≠ .reg → 8 ≤ (shFmtD sh).width →
      let n := elemBytes (shFmtD sh).width es.length
      t.checkSides .xe [{ sp := sp, acc := .read, runs := [((s.readS r).toNat, n)] },
                        { sp := shSpace sh, acc := .write, runs := elemRuns sh es }] = .ok [[[(.mem pa, n)]], pd] →
      GoesOn (.scatter g sc cl sp d r b) 8 s (fun u => lastWins u (shFmtD sh).width pd
        (fun k => natOfBytes (s.mem.bytes (pa + k * ((shFmtD sh).width / 8)) ((shFmtD sh).width / 8)))))) ∧
  (∀ (g : Guard) (sc : Scope) (cl : BitVec 4) (dsp ssp : Space) (d a b : SReg) (x y : ShReg) (s : State), s.guardTrue g = true →
    let n := (s.readS b).toNat
    let src := (s.readS a).toNat
    let dst := (s.readS d).toNat
    let copy : Instr := .copy g sc cl dsp ssp d a b
    let copyn : Instr := .copyn g sc cl x y
    let top (sp : Space) : Nat := match sp with | .virt => 2 ^ 57 | .vault => 0x10000000 | .ns => s.core.nsSize | .reg => 131072
    let inside (sp : Space) (p : Nat) : Prop := n = 0 ∨ p + n ≤ top sp
    let outside (sp : Space) (p : Nat) : Exc := { code := if sp = .virt then 5 else 6, faddr := BitVec.ofNat 64 (max p (top sp)) }
    let tile (sp : Space) (p k : Nat) : Prop := (sp = .vault ∨ sp = .ns) ∧ 0 < n ∧ p < 4096 * k + 4096 ∧ 4096 * k < p + n
    let foreign (sp : Space) (p k : Nat) : Prop := tile sp p k ∧ s.ownerOf sp (4096 * k) ≠ .ce
    let first (sp : Space) (p k : Nat) : Prop := foreign sp p k ∧ ∀ j, j < k → ¬ foreign sp p j
    let owned (sp : Space) (k : Nat) : Exc := { code := 7, faddr := BitVec.ofNat 64 (4096 * k),
                                                info := BitVec.ofNat 64 ((s.ownerOf sp (4096 * k)).code.toNat + 8 * Owner.ce.code.toNat) }
    let bad (z : ShReg) : Prop := s.shapeOk (s.readSh z) = false ∨ shInd (s.readSh z) ≠ 0
    (1048576 < n → Faults copy s unitCE { code := 6, faddr := BitVec.ofNat 64 n }) ∧
    (n ≤ 1048576 → ¬ inside ssp src → Faults copy s unitCE (outside ssp src)) ∧
    (n ≤ 1048576 → inside ssp src → ¬ inside dsp dst → Faults copy s unitCE (outside dsp dst)) ∧
    (n ≤ 1048576 → inside ssp src → inside dsp dst → ∀ k, first ssp src k → Faults copy s unitCE (owned ssp k)) ∧
    (n ≤ 1048576 → inside ssp src → inside dsp dst → (∀ j, ¬ foreign ssp src j) → ∀ k, first dsp dst k → Faults copy s unitCE (owned dsp k)) ∧
    (bad y → Faults copyn s unitCE { code := 10, info := y.setWidth 64 }) ∧
    (¬ bad y → bad x → Faults copyn s unitCE { code := 10, info := x.setWidth 64 }) ∧
    (¬ bad y → ¬ bad x → (shFmtD (s.readSh y)).width ≠ (shFmtD (s.readSh x)).width ∨ shLength (s.readSh y) ≠ shLength (s.readSh x) →
      Faults copyn s unitCE { code := 10, info := x.setWidth 64 }))

/-- R250, R251, R254: VPUSH stores its vector's 512 bytes in a vault of the package; CWB and CINV write the dirty lines that they cover back to L2,
which changes no byte of memory (log 35) and marks their units of HBM4E for Slate, and CINV drops them; a line is covered by any address of the
partition that maps it. PHASE waits for outstanding SCLDs, answers 2 or 1 for a bad size, faults on an open stream of SPACE NS (log 95) or a departing
tile of another owner, and otherwise moves the boundary between NS and L1. The physical places of vault and NS are the model's (log 4). -/
def Obligations.PushesLinesAndTheCarveOut : Prop :=
  ∀ (g : Guard) (cl : BitVec 4) (v : VReg) (d a b : SReg) (lit : BitVec 32) (s : State), s.guardTrue g = true →
    let push (ea : Word) (i : Instr) (len : Nat) : Prop :=
      let die := (ea.extractLsb' 28 2).toNat
      let pa := 2 ^ 40 + 2 ^ 28 * die + (ea.extractLsb' 0 28).toNat
      (ea.toNat % 512 ≠ 0 → Faults i s unitCE { code := 4, faddr := ea }) ∧
      (ea.toNat % 512 = 0 → 2 ^ 30 ≤ ea.toNat → Faults i s unitCE { code := 6, faddr := ea }) ∧
      (ea.toNat % 512 = 0 → ea.toNat < 2 ^ 30 → (s.dieUp die && s.pathUp s.core.die die) = false → Faults i s unitCE { code := 25, faddr := ea, info := BitVec.ofNat 64 die }) ∧
      (ea.toNat % 512 = 0 → ea.toNat < 2 ^ 30 → s.dieUp die = true → s.pathUp s.core.die die = true → Clean s →
        GoesOn i len s (fun u => MemSameBut s u pa 512 ∧ ∀ k, k < 512 → u.mem.read (pa + k) = (s.readV v).extractLsb' (8 * k) 8))
    let cleans (n : Word) (drop : Bool) (i : Instr) (len : Nat) : Prop :=
      (2 ^ 57 ≤ (s.readS a).toNat → Faults i s unitCE { code := 5, faddr := s.readS a }) ∧
      let covered (x : L1Line) : Bool := s.lineCovered (s.readS a).toNat n.toNat x
      (∀ x, covered x = true ↔ n = 0 ∨ ∃ p ∈ s.pages, p.part = s.core.part ∧ p.st = .resident ∧ p.frame ≤ 128 * x.line ∧
        128 * x.line < p.frame + p.bytes ∧ (s.readS a).toNat < p.va + (128 * x.line - p.frame) + 128 ∧
        p.va + (128 * x.line - p.frame) < (s.readS a).toNat + n.toNat) ∧
      ((s.readS a).toNat < 2 ^ 57 → GoesOn i len s (fun u => u.img = s.img ∧ u.mem = s.mem ∧
        u.core.l1 = (if drop then s.core.l1.filter (fun x => !covered x) else s.core.l1.map (fun x => if covered x then { x with below := none } else x)) ∧
        ∀ x ∈ s.core.l1, covered x = true → x.below ≠ none → 128 * x.line < hbmTop →
          u.slate.allDirty = 3 ∨ (128 * x.line / 0x200000, 3) ∈ u.slate.dirty))
    let phase (v : Word) (i : Instr) (len : Nat) : Prop :=
      let answers (x : Word) : Prop := GoesOnTo i len s d (fun u => Holds u d x ∧ u.mem = s.mem ∧ u.core.nsSize = s.core.nsSize ∧ u.core.l1 = s.core.l1)
      let inNs (q : Fin 8) : Prop := s.img.q[q].dir ≠ .closed ∧
        (shSpace (s.readSh s.img.q[q].sh) = .ns ∨ s.img.q[q].dir = .gather ∧ shSpace (s.readSh s.img.q[q].ish) = .ns)
      let departs (k : Nat) : Prop := v.toNat < 4096 * k + 4096 ∧ 4096 * k < s.core.nsSize ∧ v.toNat < s.core.nsSize
      let foreign (k : Nat) : Prop := departs k ∧ s.ownerOf .ns (4096 * k) ≠ .thread
      (s.img.late ≠ [] → exec i s = .next s) ∧
      (s.img.late = [] →
        (311296 < v.toNat → answers 2) ∧ (v.toNat ≤ 311296 → v.toNat % 8192 ≠ 0 → answers 1) ∧
        (v.toNat ≤ 311296 → v.toNat % 8192 = 0 →
          (∀ q, inNs q → (∀ p, p < q → ¬ inNs p) → Faults i s unitSQ { code := 11, info := BitVec.ofNat 64 q.val }) ∧
          ((∀ q, ¬ inNs q) → ∀ k, foreign k → (∀ j, j < k → ¬ foreign j) → Faults i s unitSQ
            { code := 7, faddr := BitVec.ofNat 64 (4096 * k), info := BitVec.ofNat 64 (s.ownerOf .ns (4096 * k)).code.toNat }) ∧
          ((∀ q, ¬ inNs q) → (∀ k, ¬ foreign k) → GoesOnTo i len s d (fun u => Holds u d 0 ∧ u.core.nsSize = v.toNat ∧
            u.core.l1 = s.core.l1.filter (fun x => decide (v.toNat / 8192 ≤ x.way)) ∧
            ∀ k, u.mem.read k = if 2 ^ 41 + 2 ^ 20 * s.core.id.toNat + min s.core.nsSize v.toNat ≤ k ∧
              k < 2 ^ 41 + 2 ^ 20 * s.core.id.toNat + max s.core.nsSize v.toNat then 0 else s.mem.read k))))
    push (s.readS a + s.readS b) (.vpush g cl v a b) 8 ∧ push (s.readS a + lit.signExtend 64) (.vpushLit g cl v a lit) 12 ∧
    cleans (s.readS b) false (.cwb g a b) 8 ∧ cleans (lit.setWidth 64) false (.cwbLit g a lit) 12 ∧
    cleans (s.readS b) true (.cinv g a b) 8 ∧ cleans (lit.setWidth 64) true (.cinvLit g a lit) 12 ∧
    phase (s.readS b) (.phase g d b) 8 ∧ phase (lit.setWidth 64) (.phaseLit g d lit) 12

/-- R263, R272 to R274, R280: FENCE writes the accepted entries of the streams of its mask's classes, queue by queue and oldest first, and leaves the
others waiting; one that waits for its stack holds the context (R427, log 74). An atomic replaces its word by the operation's result and gives the old
value to sD; a vector atomic does so for each active element in order, its offsets from a register or a queue; SIGNAL writes or adds and makes ready
the contexts that a WAITM parked on the word: one that watches the same place, at any width, in the domain of the SIGNAL's scope (log 9). -/
def Obligations.FencesAtomicsAndSignals : Prop :=
  ∀ (g : Guard) (f : Fmt) (rm : Rm) (sc : Scope) (cl : BitVec 4) (sp : Space) (ord : Order) (d a b : SReg) (lit : BitVec 32) (s : State) (pa : Nat),
    s.guardTrue g = true →
    let fence (m : Word) (i : Instr) (len : Nat) : Prop :=
      let sel (st : Stream) : Bool := st.dir == .write && m.getLsbD st.cl.toNat
      let held := s.writesHeld (m.setWidth 16)
      (∀ k, held = some k → exec i s = .next (s.deliver unitSQ (.hold (.stack k) false))) ∧
      (m.setWidth 16 = 0#16 ∨ Lands s (s.pending sel) ∧ s.core.handle.bind s.postedBy = none → held = none) ∧
      (held = none → GoesOn i len s (fun u =>
      (∀ q : Fin 8, sel s.img.q[q] = true → u.core.queues[q] = [] ∧
        u.img.q[q] = { s.img.q[q] with com := s.img.q[q].com + ((s.core.queues[q]).map (·.count)).sum }) ∧
      (∀ q : Fin 8, sel s.img.q[q] = false → u.core.queues[q] = s.core.queues[q] ∧ u.img.q[q] = s.img.q[q]) ∧
      (Lands s (s.pending sel) → u.mem = s.mem.after (s.pending sel)) ∧
      ((∀ q : Fin 8, sel s.img.q[q] = false) → u = s)))
    let n := f.width / 8
    let old := natOfBytes (s.mem.bytes pa n)
    let fp (x : Nat) : FVal := fpDecode .fp32 x
    let add (f : Fmt) (rm : Rm) (x y : Nat) : Nat × Flags :=
      if f = .fp32 then
        let v := FVal.add rm (fp x) (fp y)
        let r := roundTo .fp32 { Rounding.rne false with rm := rm } 0 v.1
        (r.1, v.2 ||| r.2)
      else ((x + y) % 2 ^ f.width, 0)
    let least (x y : Nat) : Nat := if f = .fp32 then encodeExact .fp32 (fpMin (fp x) (fp y)) else if intOf f y < intOf f x then y else x
    let most (x y : Nat) : Nat := if f = .fp32 then encodeExact .fp32 (fpMax (fp x) (fp y)) else if intOf f x < intOf f y then y else x
    let does (v : Word) (op : Nat → Nat → Nat × Flags) (i : Instr) (len : Nat) : Prop :=
      (f = .int32 ∨ f = .uint32 ∨ f = .int64 ∨ f = .fp32) → Quiet s → WordRun s .atomic sp (s.readS a) n pa →
      let r := op old (v.toNat % 2 ^ f.width)
      ∃ u : State, exec i s = .next (u.retire len) ∧ natOfBytes (u.mem.bytes pa n) = r.1 ∧ MemSameBut s u pa n ∧
        Holds u d (if f = .int32 then (BitVec.ofNat 32 old).signExtend 64 else BitVec.ofNat 64 old) ∧ ScalarsSameBut s u d ∧
        (∀ p, u.readP p = s.readP p) ∧ u.img.status = s.img.status ||| (r.2.setWidth 64 <<< 2)
    let v := s.readS b
    let l := lit.signExtend 64
    let plain (op : Nat → Nat → Nat) (x y : Nat) : Nat × Flags := (op x y, 0)
    let cas (x y : Nat) : Nat := if x = (s.readS d).toNat % 2 ^ f.width then y else x
    let vector (m : MReg) (r : VReg) (o : VOp) (op : Nat → Nat → Nat × Flags) (i : Instr) : Prop :=
      ∀ (x : Vec) (w : State) (place : Nat → Nat), s.readVOp o = .ok (x, w) → (f = .int32 ∨ f = .uint32 ∨ f = .fp32) → Quiet w →
      let act := (List.range 128).filter (maskBit (s.readM m))
      (∀ k ∈ act, WordRun w .atomic sp (s.readS a + BitVec.ofNat 64 (4 * lane .uint32 x k)) 4 (place k)) →
      ∃ u : State, exec i s = .next (u.retire 8) ∧ (∀ x, u.readS x = s.readS x) ∧ (∀ p, u.readP p = s.readP p) ∧
        (∀ x, u.readV x = s.readV x) ∧ u.mem = act.foldl (fun mm k => mm.splice (place k) (bytesOfNat 4 (op (natOfBytes (mm.bytes (place k) 4)) (lane .uint32 (s.readV r) k)).1)) w.mem ∧ u.core.queues = w.core.queues
    let signals (v : Word) (ad : Bool) (i : Instr) (len : Nat) : Prop :=
      (f = .uint32 ∨ f = .int64) → Quiet s → WordRun s (if ad then .atomic else .write) sp (s.readS a) n pa →
      GoesOn i len s (fun u => MemSameBut s u pa n ∧ natOfBytes (u.mem.bytes pa n) = ((if ad then old else 0) + v.toNat) % 2 ^ f.width ∧
        ∀ c, s.findCtx c.handle = some c → c.st = .parked → c.moving = false →
          (∃ x ∈ c.watch, domainOf sc x.core = domainOf sc s.core.id ∧ (match x.sp with | .virt => s.wordPlace c.part x.addr | _ => some (.mem x.addr)) = some (.mem pa)) →
          ∃ c', u.findCtx c.handle = some c' ∧ c'.st = .ready)
    fence v (.fence g sc b) 8 ∧ fence (lit.setWidth 64) (.fenceLit g sc lit) 12 ∧
    does v (add f rm) (.aadd g f rm sc cl sp ord d a b) 8 ∧ does l (add f rm) (.aaddLit g f rm sc cl sp ord d a lit) 12 ∧
    does v (plain (· &&& ·)) (.aand g f sc cl sp ord d a b) 8 ∧ does l (plain (· &&& ·)) (.aandLit g f sc cl sp ord d a lit) 12 ∧
    does v (plain (· ||| ·)) (.aor g f sc cl sp ord d a b) 8 ∧ does l (plain (· ||| ·)) (.aorLit g f sc cl sp ord d a lit) 12 ∧
    does v (plain (· ^^^ ·)) (.axor g f sc cl sp ord d a b) 8 ∧ does l (plain (· ^^^ ·)) (.axorLit g f sc cl sp ord d a lit) 12 ∧
    does v (plain least) (.amin g f sc cl sp ord d a b) 8 ∧ does l (plain least) (.aminLit g f sc cl sp ord d a lit) 12 ∧
    does v (plain most) (.amax g f sc cl sp ord d a b) 8 ∧ does l (plain most) (.amaxLit g f sc cl sp ord d a lit) 12 ∧
    does v (plain (fun _ y => y)) (.axchg g f sc cl sp ord d a b) 8 ∧ does l (plain (fun _ y => y)) (.axchgLit g f sc cl sp ord d a lit) 12 ∧
    does v (plain cas) (.acas g f sc cl sp ord d a b) 8 ∧ does l (plain cas) (.acasLit g f sc cl sp ord d a lit) 12 ∧
    (∀ m r o, vector m r o (plain (· ||| ·)) (.vaor g f sc cl sp m r a o) ∧
      vector m r o (add f .rne) (.vaadd g f sc cl sp m r a o) ∧ vector m r o (plain most) (.vamax g f sc cl sp m r a o)) ∧
    signals v false (.signal g f sc cl sp false a b) 8 ∧ signals v true (.signal g f sc cl sp true a b) 8 ∧
    signals l false (.signalLit g f sc cl sp false a lit) 12 ∧ signals l true (.signalLit g f sc cl sp true a lit) 12

/-- R267 to R271: OWN.GIVE makes the tiles of a range, all of which the giver owns, the receiver's; OWN.TAKE of tiles that their owner has given goes
on; OWN.TEST reads the owner codes, three bits a tile. A misaligned range is fault 4, one past its space fault 6, and one that meets a tile of another
owner fault 7. That the faults of OWN.GIVE from SYS come from the SQ is the model's choice (log 97). R276 to R279: an arrival that completes its round
flips the phase, leaves no arrival and goes on with 0; another one waits, its channel counting it; a count that differs, or a channel that is not
assigned, is fault 21. WAITM whose condition holds takes the word; otherwise it waits at its place. SSTEP is said for a package in no Slate cut; the
largest count of a pod channel is the model's (log 8). -/
def Obligations.TilesChangeHandsAndWaitsEnd : Prop :=
  (∀ (g : Guard) (sc : Scope) (sp : Space) (frm dst : Owner) (d a : SReg) (b : BitVec 6) (c : BitVec 4) (s : State), s.guardTrue g = true →
    sp = .ns ∨ sp = .vault → (∀ q : Fin 8, s.img.q[q].dir ≠ .write) → s.core.handle.bind s.postedBy = none →
    let ea := s.readS a
    let base := if sp = .ns then 0 else 0x100000 * (s.core.id.toNat % 256)
    let top := if sp = .ns then s.core.nsSize else 0x100000
    let fits (n : Nat) : Prop := ea.toNat % 4096 = 0 ∧ ea.toNat + 4096 * n ≤ top
    let tile (k : Nat) : Nat := base + ea.toNat + 4096 * k
    let all (o : Owner) (n : Nat) : Prop := ∀ k, k < n → s.ownerOf sp (tile k) = o
    let may : Prop := (frm = .sys ∨ dst = .sys) → s.levelS = true
    let give : Instr := .ownGive g sc sp frm dst a b
    let frmUnit : Nat := match frm with | .ce | .xe => unitCE | .wsu => unitWSU | _ => unitSQ
    (may → fits (b.toNat + 1) → all frm (b.toNat + 1) → GoesOn give 8 s (fun u => u.mem = s.mem ∧
      ∀ x, u.ownerOf sp x = if tile 0 ≤ x ∧ x < tile (b.toNat + 1) then dst else s.ownerOf sp x)) ∧
    (fits (b.toNat + 1) → all frm (b.toNat + 1) → exec (.ownTake g sp frm a b) s = .next (s.retire 8)) ∧
    (fits (c.toNat + 1) → ∃ w : Word, exec (.ownTest g sp d a c) s = .next ((s.writeS d w).retire 8) ∧
      (∀ k, k ≤ c.toNat → w.extractLsb' (3 * k) 3 = (s.ownerOf sp (tile k)).code) ∧ w.toNat < 8 ^ (c.toNat + 1)) ∧
    (may → ea.toNat % 4096 ≠ 0 → Faults give s frmUnit { code := 4, faddr := ea }) ∧
    (may → ea.toNat % 4096 = 0 → top < ea.toNat + 4096 * (b.toNat + 1) → Faults give s frmUnit { code := 6, faddr := ea }) ∧
    (may → fits (b.toNat + 1) → ∀ k, k ≤ b.toNat → all frm k → s.ownerOf sp (tile k) ≠ frm →
      Faults give s frmUnit { code := 7, faddr := BitVec.ofNat 64 (tile k),
                                     info := BitVec.ofNat 64 ((s.ownerOf sp (tile k)).code.toNat + 8 * frm.code.toNat) }) ∧
    (¬ may → Faults give s unitSQ { code := 2 })) ∧
  (∀ (g : Guard) (f : Fmt) (sc : Scope) (cl : BitVec 4) (sp : Space) (cond : WCond) (park : Bool) (d a b : SReg) (k : BitVec 4) (lit : BitVec 32)
      (s : State) (pa : Nat), s.guardTrue g = true → Quiet s →
    let dom := domainOf sc s.core.id
    let c := s.channelAt sc dom k.toNat
    let arrives (v : Word) (i : Instr) (len : Nat) : Prop :=
      let n := if v = 0 then s.gangInDomain sc else v.toNat % 2 ^ 32
      let open_ : Prop := s.core.m.bar = none ∧ s.channelGranted s.core.part sc k.toNat = true ∧ n ≤ domainCores s sc
      (open_ → (c.arrived = 0 ∨ n = c.count) → c.arrived + 1 = n → GoesOnTo i len s d (fun u => Holds u d 0 ∧ u.mem = s.mem ∧
        u.core.m.bar = none ∧ (u.channelAt sc dom k.toNat).phase = !c.phase ∧ (u.channelAt sc dom k.toNat).arrived = 0)) ∧
      (open_ → (c.arrived = 0 ∨ n = c.count) → c.arrived + 1 ≠ n → ∃ u, exec i s = .next u ∧ u.img = s.img ∧ u.mem = s.mem ∧
        u.core.m.bar = some { sc := sc, domain := dom, k := k.toNat, phase := c.phase, out := none } ∧
        u.channelAt sc dom k.toNat = { c with count := n, arrived := c.arrived + 1 }) ∧
      (open_ → c.arrived ≠ 0 → n ≠ c.count → Faults i s unitSQ { code := 21, info := k.setWidth 64 }) ∧
      (s.core.m.bar = none → s.channelGranted s.core.part sc k.toNat = false → Faults i s unitSQ { code := 21, info := k.setWidth 64 }) ∧
      (∀ r st, s.core.m.bar = some r → r.out = some st → GoesOnTo i len s d (fun u => Holds u d (BitVec.ofNat 64 st) ∧ u.core.m.bar = none))
    let waits (v : Word) (i : Instr) (len : Nat) : Prop :=
      let n := f.width / 8
      let now := natOfBytes (s.mem.bytes pa n)
      let y := v.toNat % 2 ^ f.width
      let holds : Prop := match cond with
        | .eq => now = y | .ne => now ≠ y | .geu => y ≤ now | .ltu => now < y | .any => now &&& y ≠ 0 | .none => now &&& y = 0
      (f = .uint32 ∨ f = .int64) → WordRun s .read sp (s.readS a) n pa →
      (holds → GoesOnTo i len s d (fun u => Holds u d (BitVec.ofNat 64 now) ∧ u.mem = s.mem)) ∧
      (¬ holds → s.core.m.wait = none → ∃ u, exec i s = .next u ∧ u.img = s.img ∧ u.mem = s.mem ∧
        u.core.m.wait = some (.waitm s.ptc false { f := f, sc := sc, sp := sp, cond := cond, park := park, d := d, ea := s.readS a, b := v, len := len }))
    let calm : Prop := s.slate.st = .idle
    arrives (s.readS b) (.bar g sc d k b) 8 ∧ arrives (lit.setWidth 64) (.barLit g sc d k lit) 12 ∧
    (calm → arrives (s.readS b) (.sstep g sc d k b) 8 ∧ arrives (lit.setWidth 64) (.sstepLit g sc d k lit) 12) ∧
    waits (s.readS b) (.waitm g f sc cl sp cond park d a b) 8 ∧ waits (lit.signExtend 64) (.waitmLit g f sc cl sp cond park d a lit) 12)

/-- R290 to R295, R304 to R306: CSWAP, YIELD and PARK at level U, once every member of the gang performs it: with nothing to give the cores to, or
with a condition of PARK that holds, each member goes on; otherwise the context leaves, Ready or Parked. WAKEAT sets the wake time. Whether someone
else can use the cores is log 14, condition R with no RESIDE open log 10; an outstanding SCLD holds each of the three (log 31). No member has accepted
writes that are not performed. At level S the three are the privilege trap. -/
def Obligations.GangsSwapYieldAndParkTogether : Prop :=
  ∀ (g : Guard) (wr wt wk inn : Bool) (d b : SReg) (lit : BitVec 32) (s : State) (c : Ctx), s.guardTrue g = true →
    (∀ q : Fin 8, s.img.q[q].dir ≠ .write) → s.core.handle.bind s.postedBy = none → s.self = some c → s.slate.st = .idle →
    let ids := gangCores c.base c.gang
    (∀ id ∈ ids, ∀ q : Fin 8, (s.coreAt id).m.img.q[q].dir ≠ .write) →
    let mask : BitVec 3 := BitVec.ofBool wk ++ BitVec.ofBool wt ++ BitVec.ofBool wr
    let cswap : Instr := .cswap g d
    let yield_ : Instr := .yield g
    let park : Instr := .park g wr wt wk d
    let together (k : Collective) : Prop := s.levelS = false ∧ s.img.late = [] ∧ s.core.id ∈ ids ∧ ∀ id ∈ ids, id ≠ s.core.id → (s.coreAt id).m.waitsFor k = true
    let goOn (i : Instr) (r : SReg) (v : Word) : Prop := ∃ u, exec i s = .next u ∧ Holds u r v ∧ u.mem = s.mem ∧
      ∀ id ∈ ids, (s.coreAt id).rep = none → (u.coreAt id).m.img.pc = (s.coreAt id).m.img.pc + 8 ∧ (u.coreAt id).m.wait = none
    let leaves (i : Instr) (p : Ctx → Prop) : Prop := ∃ u c', exec i s = .next u ∧ u.findCtx c.handle = some c' ∧ p c'
    let conds : BitVec 3 := (BitVec.ofBool c.kp ++ BitVec.ofBool (decide (c.wake ≠ BitVec.allOnes 64 ∧ c.wake.toNat ≤ s.ptc.toNat))
      ++ BitVec.ofBool c.resides.isEmpty) &&& mask
    let wakes (v : Word) (i : Instr) (len : Nat) : Prop :=
      GoesOn i len s (fun u => ∃ c', u.findCtx c.handle = some c' ∧ c'.wake = if inn then s.ptc + v else v)
    (together .cswap → s.standbysOn ids = [] → goOn cswap d 0) ∧
    (together .cswap → s.standbysOn ids ≠ [] → (∀ x ∈ s.standbysOn ids, s.standbyLoaded x = true ∧ x.1.handle ≠ c.handle) →
      leaves cswap (fun c' => c'.st = .ready)) ∧
    (together .yield → s.someoneCanUse c.handle ids s.core.die = false → goOn yield_ 0 0) ∧
    (together .yield → s.someoneCanUse c.handle ids s.core.die = true → leaves yield_ (fun c' => c'.st = .ready)) ∧
    (together (.park mask) → conds ≠ 0 → goOn park d (conds.setWidth 64)) ∧
    (together (.park mask) → conds = 0 → leaves park (fun c' => c'.st = .parked ∧ c'.cause = .park ∧ c'.mask = mask)) ∧
    (s.levelS = false → s.img.late ≠ [] → exec cswap s = .next s ∧ exec yield_ s = .next s ∧ exec park s = .next s) ∧
    (s.levelS = true → Faults cswap s unitSQ { code := 2 } ∧ Faults yield_ s unitSQ { code := 2 } ∧ Faults park s unitSQ { code := 2 }) ∧
    wakes (s.readS b) (.wakeat g inn b) 8 ∧ wakes (lit.setWidth 64) (.wakeatLit g inn lit) 12

/-- R287 to R289, R294, R307 to R310, R313: CTXNEW makes a Parked context where the partition's quota and the die have room for one and answers 0
otherwise, CTXFREE frees one that is neither the issuer nor Running nor Frozen (the INFO of naming the issuer by 0 is log 13) and is held while the
island of a slice with an entry of its pages is down, CTXQ and CTXSET read and set its fields, a kick makes a context Ready that PARK with K parked
and is kept for any other, and LAUNCH puts a record into the ring of a queue of the partition, as a write of the issuing context (the model's reading,
log 40). A handle of more than 32 bits, a stale one and one of another partition are fault 18, one whose Steward does not answer fault 25 (for CTXFREE
the model's reading, log 12), a bad attribute word fault 20. -/
def Obligations.ContextsAreMadeQueriedSetAndLaunched : Prop :=
  ∀ (g : Guard) (d a b : SReg) (k : Fin 7) (j : BitVec 3) (lit : BitVec 32) (s : State) (c : Ctx), s.guardTrue g = true →
    let attr := s.readS a
    let die : BitVec 2 := if attr.getLsbD 8 then BitVec.ofNat 2 s.core.die else attr.extractLsb' 6 2
    let good : Prop := attr.extractLsb' 9 55 = 0 ∧ (attr.extractLsb' 0 3).toNat ≤ 4
    let made (u : State) (h : BitVec 32) (seed : Word) : Prop := ∃ x, u.findCtx h = some x ∧ x.st = .parked ∧ x.cause = .idle ∧ x.part = s.core.part ∧
      x.edie = die ∧ x.rundie = die ∧ x.gang = attr.extractLsb' 0 3 ∧ x.prio = attr.extractLsb' 3 3 ∧ x.wake = BitVec.allOnes 64 ∧ x.seed = seed
    let news (seed : Word) (i : Instr) (len : Nat) : Prop :=
      (¬ good → Faults i s unitSQ { code := 20, info := attr }) ∧
      (good → s.stewardUp die.toNat = true → GoesOnTo i len s d (fun u => ∃ h : BitVec 32, Holds u d (h.setWidth 64) ∧
        (u.ctxs = s.ctxs ∧ h = 0 ∨ made u h seed) ∧
        ((s.partField s.core.part 4).toNat ≤ s.ctxCount s.core.part → u.ctxs = s.ctxs ∧ h = 0) ∧
        (s.ctxCount s.core.part < (s.partField s.core.part 4).toNat →
          (∃ ix : BitVec 14, ∀ x ∈ s.ctxs, x.edie = die → x.index = ix → x.st = .free) → made u h seed)))
    let named : Prop := s.target (s.readS a) = .ok c
    let sets (v : Word) (i : Instr) (len : Nat) : Prop := GoesOn i len s (fun u => ∃ c', u.findCtx c.handle = some c' ∧
      (j = 1 → c'.prio = v.setWidth 3) ∧ (j = 2 → c'.wake = v) ∧ (j = 3 → c'.rundie = v.extractLsb' 5 2) ∧
      (j = 6 → c.st = .parked → c.pendReady = false → c.moving = false → c.cause = .park → c.mask.getLsbD 2 = true → c'.st = .ready) ∧
      (j = 6 → c.st = .running ∧ c.pendReady = false ∨ c.cause ≠ .park ∨ c.mask.getLsbD 2 = false → c'.st = c.st ∧ c'.kp = true))
    let unnamed (e : Exc) : Prop := Faults (.ctxq g d a k) s unitSQ e ∧ Faults (.ctxset g a b j) s unitSQ e ∧
      Faults (.ctxsetLit g a lit j) s unitSQ e ∧ (s.readS a ≠ 0 → Faults (.ctxfree g a) s unitSQ e)
    let issuer : BitVec 32 := if s.readS a = 0 then s.core.handle.getD 0 else (s.readS a).setWidth 32
    let steward : Nat := issuer.toNat / 2 ^ 30
    let launches (v : Word) (i : Instr) (len : Nat) : Prop :=
      let q := v.toNat
      let x := s.queueAt q
      let mine : Prop := q < 1024 ∧ x.part = s.core.part ∧ x.en = true
      (¬ mine → exec i s = .next ((s.writeS d 2).retire len)) ∧
      (mine → ∀ ps, (s.readS a).toNat % 64 = 0 → PlainRun s .read .virt (s.readS a).toNat 64 ps → Sound s ps 64 → Clean s →
        (2 ^ x.log2n.toNat ≤ (x.tail - x.head).toNat → GoesOnTo i len s d (fun u => Holds u d 1 ∧ u.mem = s.mem ∧ u.queues = s.queues)) ∧
        ((x.tail - x.head).toNat < 2 ^ x.log2n.toNat → ∀ pd,
          let va := (x.base.toNat + 64 * (x.tail.toNat % 2 ^ x.log2n.toNat)) % 2 ^ 64
          va % 64 = 0 → va + 64 ≤ 2 ^ 57 → Mapped s .write va pd →
          GoesOnTo i len s d (fun u => Holds u d 0 ∧ u.queueAt q = { x with tail := x.tail + 1 } ∧ MemSameBut s u pd 64 ∧
            ∀ n, n < 64 → u.mem.read (pd + n) = s.mem.read (ps + n))))
    news (s.readS b) (.ctxnew g d a b) 8 ∧ news (lit.signExtend 64) (.ctxnewLit g d a lit) 12 ∧
    (s.readS a = 0 → Faults (.ctxfree g a) s unitSQ { code := 19, info := (s.core.handle.getD 0).setWidth 64 }) ∧
    (named → s.readS a ≠ 0 → c.st ≠ .running → c.st ≠ .frozen →
      ((∀ p ∈ s.pages, p.owner = c.handle →
          (∀ e ∈ entrySlices p.size p.va, s.islandUp e = true ∧ s.pathUp (c.handle.extractLsb' 30 2).toNat e = true) ∧
          (p.kv = true → p.st = .resident → s.settleAll.waitsAt p.frame p.bytes = none)) →
        GoesOn (.ctxfree g a) 8 s (fun u => u.findCtx c.handle = none)) ∧
      (∀ p ∈ s.pages, p.owner = c.handle → ∀ e ∈ entrySlices p.size p.va, s.islandUp e = false →
        ∃ e', s.islandUp e' = false ∧ exec (.ctxfree g a) s = .next (s.deliver unitSQ (.hold (.island e') false)))) ∧
    (named → c.st = .running ∨ c.st = .frozen → Faults (.ctxfree g a) s unitSQ { code := 19, info := c.handle.setWidth 64 }) ∧
    (named → ∃ w, exec (.ctxq g d a k) s = .next ((s.writeS d w).retire 8) ∧
      (k = 0 → (w.extractLsb' 0 3).toNat = c.st.code ∧ (w.extractLsb' 8 4).toNat = c.cause.code ∧ w.extractLsb' 12 3 = c.mask ∧
        w.getLsbD 15 = c.kp ∧ w.extractLsb' 24 2 = c.rundie) ∧
      (k = 1 → w.extractLsb' 0 3 = c.prio ∧ w.extractLsb' 3 3 = s.effective c) ∧ (k = 2 → w = c.wake) ∧
      (k = 3 → w.extractLsb' 0 3 = c.gang ∧ w.extractLsb' 3 2 = c.edie ∧ w.extractLsb' 5 2 = c.rundie ∧ w.extractLsb' 8 6 = c.part) ∧
      (k = 4 → c.st ≠ .running → w = c.runtime) ∧ (k = 5 → c.task = none → w = 0) ∧ (k = 5 → ∀ t, c.task = some t → w = t.tag)) ∧
    (named → sets (s.readS b) (.ctxset g a b j) 8 ∧ sets (lit.signExtend 64) (.ctxsetLit g a lit j) 12) ∧
    (2 ^ 32 ≤ (s.readS a).toNat → unnamed { code := 18, info := s.readS a }) ∧
    ((s.readS a).toNat < 2 ^ 32 → s.stewardUp steward = false → unnamed { code := 25, info := BitVec.ofNat 64 steward }) ∧
    ((s.readS a).toNat < 2 ^ 32 → s.stewardUp steward = true → (∀ x ∈ s.ctxs, x.handle = issuer → x.st = .free ∨ x.part ≠ s.core.part) →
      unnamed { code := 18, info := issuer.setWidth 64 }) ∧
    launches (s.readS b) (.launch g d a b) 8 ∧ launches (lit.setWidth 64) (.launchLit g d a lit) 12

/-- R338 to R340: PGMAP maps a page whose word, place and address are good (status 1 where it overlaps another page or a window, 2 where its slice is
full, 3 for a bad word) with the owner that sC names, or grants THREAD tiles to the vault tier; a stale handle is fault 18, a frame outside the
partition's HBM4E or a grant past the vault fault 6, a tile of another owner fault 7. What PGMAP calls a window counts one that a RECAST is about to
give (the model's choice, log 46). PGUNMAP removes a page (1 pinned, 2 KV, 3 unmapped); PGUNMAP.grant gives empty frames back. All three are for level
S alone. R341 to R343: PGPIN and PGUNPIN count pins, PGMOVE and PGHINT answer the first status that applies or queue their move, and the two queries
of PGHINT read. An address that no page maps is fault 8 for the first two, with the INFO of a read (the model's choice, log 105). PGHINT k = 2 answers
0 for a RESIDENT page away from its target and queues nothing new, but raises the second leg of a recall that is queued (log 54); PGMOVE and PGHINT
answer 0 where the page's move is queued already (log 77). The counters of PGHINT k = 5 are not said. -/
def Obligations.PagesAreMappedPinnedAndMoved : Prop :=
  (∀ (g : Guard) (d a b c : SReg) (lit : BitVec 32) (s : State), s.guardTrue g = true → s.quiet = .ok s →
    let ea := s.readS a
    let ready : Prop := s.levelS = true ∧ SlicesServe s
    let answers (v : Word) (i : Instr) (len : Nat) : Prop := exec i s = .next ((s.writeS d v).retire len)
    let maps (w : Word) (i : Instr) (len : Nat) : Prop :=
      let n := pageBytes (pdwSize w)
      let owned (h : BitVec 32) : Prop := ready ∧ pdwBad ea w = false ∧ pdwKind w ≤ 1 ∧ ea.toNat + n ≤ 2 ^ 57 ∧
        (s.readS c = 0 ∧ h = 0 ∨ ∃ x, s.target (s.readS c) = .ok x ∧ s.readS c ≠ 0 ∧ h = x.handle)
      let named : BitVec 32 := (s.readS c).setWidth 32
      let plain : Prop := ∃ h, owned h
      let tiles : Nat := 0x10000 * pdwFrames w
      let grants : Prop := ready ∧ pdwBad ea w = false ∧ pdwKind w = 2
      let framed : Prop := (s.hbmRange s.core.part).1 ≤ pdwPa w ∧ pdwPa w + n ≤ (s.hbmRange s.core.part).2
      let page (u : State) (p : Page → Prop) : Prop := ∃ x, u.pages = x :: s.pages ∧ x.part = s.core.part ∧ x.va = ea.toNat ∧ x.size = pdwSize w ∧
        x.r = w.getLsbD 8 ∧ x.w = w.getLsbD 9 ∧ x.x = w.getLsbD 10 ∧ x.kv = false ∧ x.pin = 0 ∧
        x.tgtVault = w.getLsbD 6 ∧ p x
      let meets : Prop := Meets s s.core.part ea.toNat n
      let fine : Prop := ¬ meets ∧ s.sliceFull (pdwSize w) [ea.toNat] = false
      (s.levelS = false → Faults i s unitSQ { code := 2 }) ∧
      (ready → pdwBad ea w = true → answers 3 i len) ∧
      (∀ h, owned h → pdwKind w = 0 → framed → fine → GoesOnTo i len s d (fun u => Holds u d 0 ∧ u.mem = s.mem ∧
        page u (fun x => x.owner = h ∧ x.st = .resident ∧ x.tier = .hbm ∧ x.frame = pdwPa w ∧ x.demand = false))) ∧
      (∀ h, owned h → pdwKind w = 1 → fine → GoesOnTo i len s d (fun u => Holds u d 0 ∧ u.mem = s.mem ∧ page u (fun x => x.owner = h ∧ x.st = .out ∧ x.demand = true))) ∧
      (plain → pdwKind w = 1 ∨ pdwKind w = 0 ∧ framed → meets → answers 1 i len) ∧
      (plain → pdwKind w = 1 ∨ pdwKind w = 0 ∧ framed → ¬ meets → s.sliceFull (pdwSize w) [ea.toNat] = true →
        answers 2 i len) ∧
      (plain → pdwKind w = 0 → ¬ framed → Faults i s unitSQ { code := 6, faddr := BitVec.ofNat 64 (pdwPa w) }) ∧
      (ready → pdwBad ea w = false → pdwKind w ≤ 1 → ea.toNat + n ≤ 2 ^ 57 →
        (2 ^ 32 ≤ (s.readS c).toNat → Faults i s unitSQ { code := 18, info := s.readS c }) ∧
        (s.readS c ≠ 0 → (s.readS c).toNat < 2 ^ 32 → s.stewardUp (named.toNat / 2 ^ 30) = true →
          (∀ x ∈ s.ctxs, x.handle = named → x.st = .free ∨ x.part ≠ s.core.part) → Faults i s unitSQ { code := 18, info := named.setWidth 64 })) ∧
      (grants → 0x10000000 < ea.toNat + tiles → Faults i s unitSQ { code := 6, faddr := ea }) ∧
      (grants → ea.toNat + tiles ≤ 0x10000000 → ∀ k, 4096 * k < tiles → (∀ j, j < k → s.ownerOf .vault (ea.toNat + 4096 * j) = .thread) →
        s.ownerOf .vault (ea.toNat + 4096 * k) ≠ .thread → Faults i s unitSQ { code := 7, faddr := ea + BitVec.ofNat 64 (4096 * k), info := (s.ownerOf .vault (ea.toNat + 4096 * k)).code.setWidth 64 + 8 * Owner.thread.code.setWidth 64 }) ∧
      (grants → ea.toNat + tiles ≤ 0x10000000 → (∀ t, ea.toNat ≤ t → t < ea.toNat + tiles → s.ownerOf .vault t = .thread) →
        GoesOnTo i len s d (fun u => Holds u d 0 ∧ u.mem = s.mem ∧
          (∀ k, k < pdwFrames w → (vaultBase s.core.die + ea.toNat + 0x10000 * k, s.core.part) ∈ u.frames) ∧
          ∀ t, u.ownerOf .vault t = if ea.toNat ≤ t ∧ t < ea.toNat + tiles then .res else s.ownerOf .vault t))
    let unmap : Instr := .pgunmap g d a
    let grant (n : Nat) (i : Instr) (len : Nat) : Prop :=
      let frame (k : Nat) : Nat := vaultBase s.core.die + ea.toNat + 0x10000 * k
      (s.levelS = false → Faults i s unitSQ { code := 2 }) ∧
      (s.levelS = true → ea.toNat + 0x10000 * n ≤ 0x10000000 → (∀ k, k < n → (frame k, s.core.part) ∈ s.frames) →
        (∀ p ∈ s.pages, ∀ k, k < n → ∀ x ∈ p.runs .vault, x.1 ≠ frame k) →
        GoesOnTo i len s d (fun u => Holds u d (BitVec.ofNat 64 n) ∧ u.mem = s.mem ∧ (∀ k, k < n → ∀ x ∈ u.frames, x.1 ≠ frame k) ∧
          ∀ k t, k < n → ea.toNat + 0x10000 * k ≤ t → t < ea.toNat + 0x10000 * (k + 1) → ea.toNat % 4096 = 0 → u.ownerOf .vault t = .thread))
    maps (s.readS b) (.pgmap g d a b c) 8 ∧ maps (lit.setWidth 64) (.pgmapLit g d a lit c) 12 ∧
    (s.levelS = false → Faults unmap s unitSQ { code := 2 }) ∧
    (ready → ea.toNat < 2 ^ 57 → s.pageAt s.core.part ea.toNat = none → answers 3 unmap 8) ∧
    (∀ p, ready → ea.toNat < 2 ^ 57 → s.pageAt s.core.part ea.toNat = some p →
      (p.pin ≠ 0 → answers 1 unmap 8) ∧ (p.pin = 0 → p.kv = true → answers 2 unmap 8) ∧
      (p.pin = 0 → p.kv = false → (p.st = .resident → s.settleAll.waitsAt p.frame p.bytes = none) → GoesOnTo unmap 8 s d (fun u => Holds u d 0 ∧
        (p.st ≠ .moving → ∀ x ∈ u.pages, ¬ (x.part = p.part ∧ x.va = p.va)) ∧
        (p.st = .moving → ∀ x ∈ u.pages, x.part = p.part → x.va = p.va → x.gone = .remove)))) ∧
    grant (s.readS b).toNat (.pgunmapGrant g d a b) 8 ∧ grant lit.toNat (.pgunmapGrantLit g d a lit) 12) ∧
  (∀ (g : Guard) (d a : SReg) (t : Fin 3) (k : Fin 6) (s : State) (p : Page), s.guardTrue g = true → s.quiet = .ok s →
    SlicesServe s → (s.readS a).toNat < 2 ^ 57 →
    let ea := s.readS a
    let here : Prop := s.pageAt s.core.part ea.toNat = some p
    let none_ : Prop := s.pageAt s.core.part ea.toNat = none
    let tier : Tier := if t = 0 then .vault else if t = 1 then .hbm else .pool
    let pin : Instr := .pgpin g d a
    let unpin : Instr := .pgunpin g d a
    let move : Instr := .pgmove g d a t
    let hint : Instr := .pghint g d a k
    let answers (v : Word) (i : Instr) : Prop := exec i s = .next ((s.writeS d v).retire 8)
    let pins (i : Instr) (n : Nat) : Prop := GoesOnTo i 8 s d (fun u => Holds u d 0 ∧ u.mem = s.mem ∧
      ∃ q, u.pageAt s.core.part ea.toNat = some q ∧ q = { p with pin := n })
    let cannot : Prop := p.st = .empty ∨ t = 0 ∧ p.size ≠ 0 ∨ t = 1 ∧ p.kv = true
    let queued (i : Instr) (level : Nat) (dst : Tier) : Prop := GoesOnTo i 8 s d (fun u => Holds u d 0 ∧ u.mem = s.mem ∧ u.pages = s.pages ∧
      ∃ m ∈ u.moves, m.part = p.part ∧ m.va = p.va ∧ m.dest = dst ∧ m.level ≤ level)
    (here → p.st = .resident → p.pin < 255 → pins pin (p.pin + 1)) ∧ (here → p.st = .resident → p.pin = 255 → answers 2 pin) ∧
    (here → p.st = .out ∨ p.st = .moving → exec pin s = .next (s.deliver unitSQ (.park ea.toNat))) ∧
    (here → p.st ≠ .empty → p.pin ≠ 0 → pins unpin (p.pin - 1)) ∧ (here → p.st ≠ .empty → p.pin = 0 → answers 1 unpin) ∧
    (none_ → Faults pin s unitSQ { code := 8, faddr := ea, info := 1 } ∧ Faults unpin s unitSQ { code := 8, faddr := ea, info := 1 }) ∧
    (here → p.st = .empty → Faults pin s unitSQ { code := 8, faddr := ea, info := 1, empty := true }) ∧
    (none_ → answers 4 move) ∧ (here → cannot → answers 2 move) ∧ (here → ¬ cannot → p.bound = tier → answers 3 move) ∧
    (here → ¬ cannot → p.bound ≠ tier → p.pin ≠ 0 → answers 1 move) ∧ (here → ¬ cannot → p.bound ≠ tier → p.pin = 0 → queued move 1 tier) ∧
    (none_ → k ≠ 5 → answers (if k = 4 then 3 else 4) hint) ∧
    (here → k = 0 → p.kv = true → answers 2 hint) ∧ (here → k = 1 → p.size ≠ 0 → answers 2 hint) ∧
    (here → k = 0 ∧ p.kv = false ∨ k = 1 ∧ p.size = 0 → GoesOnTo hint 8 s d (fun u => Holds u d 0 ∧
      ∃ q, u.pageAt s.core.part ea.toNat = some q ∧ q = { p with tgtVault := k == 1 })) ∧
    (here → k = 2 ∨ k = 3 → p.st = .empty → answers 2 hint) ∧
    (here → p.st ≠ .empty → k = 2 ∧ p.bound = p.target ∨ k = 3 ∧ p.bound = .pool → answers 3 hint) ∧
    (here → p.st ≠ .empty → p.pin ≠ 0 → k = 2 ∧ p.bound ≠ p.target ∨ k = 3 ∧ p.bound ≠ .pool → answers 1 hint) ∧
    (here → p.st = .resident ∨ p.st = .out → p.pin = 0 → k = 3 → p.tier ≠ .pool → queued hint 3 (if p.tier = .vault then .hbm else .pool)) ∧
    (here → p.st = .moving → p.pin = 0 → k = 3 → p.dest ≠ .pool → answers 0 hint) ∧
    (here → p.st = .out ∧ p.tier ≠ p.target ∨ p.st = .moving ∧ p.dest ≠ p.target → p.pin = 0 → k = 2 → queued hint 1 p.target) ∧
    (here → p.st = .resident → p.pin = 0 → k = 2 → p.tier ≠ p.target →
      ((∀ m ∈ s.moves, m.part = p.part → m.va = p.va → m.kind ≠ .recall) → answers 0 hint) ∧
      ((∃ m ∈ s.moves, m.part = p.part ∧ m.va = p.va ∧ m.kind = .recall ∧ m.dest = p.target ∧ m.started = false) → queued hint 1 p.target)) ∧
    (here → k = 4 → ∃ w, answers w hint ∧ w.extractLsb' 0 3 = (match p.st with | .empty => 1 | .resident => 2 | .out => 3 | .moving => 4) ∧
      (w.extractLsb' 3 2).toNat = (if p.st = .empty then 0 else p.tier.code) ∧ (w.extractLsb' 5 2).toNat = (if p.st = .moving then p.dest.code else 0) ∧
      w.getLsbD 7 = p.kv ∧ (w.extractLsb' 8 2).toNat = p.size % 4 ∧ w.extractLsb' 10 2 = (if p.kv = true ∨ p.tgtVault = true then 1 else 0) ∧
      (w.extractLsb' 12 2).toNat = (if p.kv = true ∧ p.st = .out then p.cls % 4 else 0) ∧ (w.extractLsb' 14 2).toNat = homeOfVa p.va ∧
      (w.extractLsb' 16 8).toNat = p.pin % 256 ∧ w.extractLsb' 24 32 = p.owner ∧ w.extractLsb' 56 8 = 0) ∧
    (k = 5 → ∃ w, answers w hint))

/-- R326, R330 to R333, R344, R345: KVALLOC makes a region of EMPTY pages (1 on overlap, 2 on a full slice; faults 4 and 6), KVFREE empties unpinned
pages and counts those that change, leaves pinned ones, and with .unmap takes away a region that holds none (else fault 22); KVAPPEND sets validity
bits and advances LEN, takes the lowest EMPTY pages of the region into zeroed free vault frames and enters them in the list, and ends a batch with 1
at a sequence that lacks a frame and with 2 at one that lacks an EMPTY page; KVINVAL clears the selected validity bits, counts those that were set,
and with .z zeroes their positions. R334, R337: JBEGIN opens a journal over pages that are no KV pages (fault 23 when one is open; 22 over KV pages,
and over unmapped ones: log 56), JCOMMIT closes it and answers the bytes used, JREWIND writes back the lines and dwords of its records from the last
to the first (the list begins with the last), makes a page record's page EMPTY and answers the number of records; it waits while such a page is in
flight or an SCLD is outstanding; both are fault 23 with no journal open, and KVFREE with one open. R335, R336: with a journal open, the first store
to a line of a KV page puts a line record with the old bytes into the buffer, later ones none, and one without room is fault 24 with nothing written;
KVAPPEND records the old LEN, and for a page that it takes a page record, then the list entry's old dword, then LEN's. -/
def Obligations.KvRegionsAndJournals : Prop :=
  (∀ (g : Guard) (cl : BitVec 4) (unm : Bool) (d a b : SReg) (lit : BitVec 32) (s : State) (c : Ctx), s.guardTrue g = true → Clean s → s.quiet = .ok s →
    SlicesServe s → s.self = some c →
    let ea := s.readS a
    let part := s.core.part
    let alloc (v : Word) (i : Instr) (len : Nat) : Prop :=
      let n := v.toNat
      let good : Prop := ea.toNat % 0x10000 = 0 ∧ 1 ≤ n ∧ n ≤ 65536 ∧ ea.toNat + 0x10000 * n ≤ 2 ^ 57
      let vas := (List.range n).map (fun k => ea.toNat + 0x10000 * k)
      (ea.toNat % 0x10000 ≠ 0 → Faults i s unitSQ { code := 4, faddr := ea }) ∧
      (ea.toNat % 0x10000 = 0 → n = 0 ∨ 65536 < n → Faults i s unitSQ { code := 6, faddr := v }) ∧
      (good → Meets s part ea.toNat (0x10000 * n) → exec i s = .next ((s.writeS d 1).retire len)) ∧
      (good → ¬ Meets s part ea.toNat (0x10000 * n) → s.sliceFull 0 vas = true → exec i s = .next ((s.writeS d 2).retire len)) ∧
      (good → ¬ Meets s part ea.toNat (0x10000 * n) → s.sliceFull 0 vas = false → GoesOnTo i len s d (fun u => Holds u d 0 ∧ u.mem = s.mem ∧
        u.regions = { part := part, base := ea.toNat, count := n, owner := c.handle, die := c.rundie } :: s.regions ∧
        ∃ ps, u.pages = ps ++ s.pages ∧ ps.map (·.va) = vas ∧
          ∀ p ∈ ps, p.part = part ∧ p.size = 0 ∧ p.st = .empty ∧ p.kv = true ∧ p.owner = c.handle ∧ p.r = true ∧ p.w = true ∧ p.x = false ∧ p.pin = 0))
    let frees (v : Word) (i : Instr) (len : Nat) : Prop :=
      let first := ea.toNat / 0x10000 * 0x10000
      let inRun (p : Page) : Bool := p.part == part && decide (first ≤ p.va) && decide (p.va < first + 0x10000 * v.toNat)
      (s.regionAt ea.toNat = none → ea.toNat < 2 ^ 57 → Faults i s unitSQ { code := 22, faddr := ea }) ∧
      (∀ r, s.regionAt ea.toNat = some r → ea.toNat < 2 ^ 57 → r.owner = c.handle → first + 0x10000 * v.toNat ≤ r.base + 0x10000 * r.count →
        (unm = true → ea.toNat = r.base ∧ v.toNat = r.count) →
        (∀ p ∈ s.pages, inRun p = true → p.pin = 0 → p.st = .resident → s.settleAll.waitsAt p.frame p.bytes = none) → GoesOnTo i len s d (fun u =>
          Holds u d (BitVec.ofNat 64 (s.pages.countP (fun p => inRun p && p.pin == 0 && p.st != .empty && p.gone == .none))) ∧
          (∀ p ∈ u.pages, inRun p = true → p.pin = 0 → p.st ≠ .moving → p.st = .empty) ∧
          (∀ p ∈ s.pages, inRun p = true → p.pin ≠ 0 → (∀ y ∈ s.pages, y.part = part → y.va = p.va → y = p) →
            ∃ y ∈ u.pages, y.part = part ∧ y.va = p.va ∧ y.pin = p.pin ∧ y.st = p.st ∧ y.tier = p.tier ∧ y.frame = p.frame) ∧
          (unm = false ∨ (∃ p ∈ s.pages, inRun p = true ∧ p.pin ≠ 0) → u.regions = s.regions) ∧
          (unm = true → (∀ p ∈ s.pages, inRun p = true → p.pin = 0) → (∀ x ∈ u.regions, x.part = part → x.base ≠ r.base) ∧
            ∀ p ∈ u.pages, inRun p = true → p.st = .moving ∧ p.gone = .remove))) ∧
      (∀ r, s.regionAt ea.toNat = some r → ea.toNat < 2 ^ 57 →
        r.owner ≠ c.handle ∨ r.base + 0x10000 * r.count < first + 0x10000 * v.toNat ∨ unm = true ∧ (ea.toNat ≠ r.base ∨ v.toNat ≠ r.count) →
        Faults i s unitSQ { code := 22, faddr := ea })
    let inval (z : Bool) (v : Word) (i : Instr) (len : Nat) : Prop := ∀ (q : SeqDesc) (pb pv : Nat) (at_ : Nat → Nat), s.seqDesc ea = .ok q → q.pagesFor q.len ≤ q.maxp → q.vmap ≠ 0 → v.toNat % 8 = 0 →
      let nb := (q.len + 7) / 8
      VirtRun s .read v.toNat nb pb → VirtRun s .read q.vmap nb pv → VirtRun s .write q.vmap nb pv →
      let sel (k : Nat) : Bool := (natOfBytes (s.mem.bytes pb nb)).testBit k
      let old (k : Nat) : Bool := (natOfBytes (s.mem.bytes pv nb)).testBit k
      let cleared (k : Nat) : Prop := k < q.len ∧ sel k = true ∧ old k = true
      (z = true → ∀ k, k < q.len → sel k = true → ∃ pe, VirtRun s .read (q.plist + 4 * (k / q.tpp)) 4 pe ∧ natOfBytes (s.mem.bytes pe 4) ≠ 0 ∧
        VirtRun s .write (q.posAddr (natOfBytes (s.mem.bytes pe 4)) k) (2 ^ q.tlog) (at_ k) ∧ (at_ k + 2 ^ q.tlog ≤ pv ∨ pv + nb ≤ at_ k)) →
      GoesOnTo i len s d (fun u => Holds u d (BitVec.ofNat 64 ((List.range q.len).countP (fun k => sel k && old k))) ∧
        (∀ k, k < q.len → (natOfBytes (u.mem.bytes pv nb)).testBit k = (old k && !sel k)) ∧
        (z = true → ∀ k y, cleared k → at_ k ≤ y → y < at_ k + 2 ^ q.tlog → u.mem.read y = 0) ∧
        ∀ y, y < pv ∨ pv + nb ≤ y → (z = true → ∀ k, cleared k → y < at_ k ∨ at_ k + 2 ^ q.tlog ≤ y) → u.mem.read y = s.mem.read y)
    let append : Instr := .kvappend g cl d a
    let batch (n : Nat) (q : Nat → SeqDesc) (pb : Nat) (pl add : Nat → Nat) : Prop := ea.toNat % 64 = 0 ∧ 1 ≤ n ∧ n ≤ 256 ∧
      VirtRun s .read ea.toNat (16 + 16 * n) pb ∧ s.dwordAt pb = BitVec.ofNat 64 n ∧ s.dwordAt (pb + 8) = 0 ∧
      ∀ k, k < n → s.dwordAt (pb + 24 + 16 * k) = BitVec.ofNat 64 (add k) ∧ 0 < add k ∧ s.seqDesc (s.dwordAt (pb + 16 + 16 * k)) = .ok (q k) ∧
        (q k).len + add k < 2 ^ 32 ∧ (q k).pagesFor ((q k).len + add k) ≤ (q k).maxp ∧
        VirtRun s .read (q k).addr 8 (pl k) ∧ VirtRun s .write (q k).addr 8 (pl k)
    let needs (q : SeqDesc) (add : Nat) : Nat := q.pagesFor (q.len + add) - q.pagesFor q.len
    alloc (s.readS b) (.kvalloc g d a b) 8 ∧ alloc (lit.setWidth 64) (.kvallocLit g d a lit) 12 ∧
    frees (s.readS b) (.kvfree g unm d a b) 8 ∧ frees (lit.setWidth 64) (.kvfreeLit g unm d a lit) 12 ∧
    (∀ n q pb pl add j, batch n q pb pl add → (∀ k, k < n → (q k).vmap = 0) → j ≤ n → (∀ k, k < j → needs (q k) (add k) = 0) →
      (∀ k l, k < n → l < n → k ≠ l → (q k).addr ≠ (q l).addr ∧ (pl k + 8 ≤ pl l ∨ pl l + 8 ≤ pl k)) →
      (j < n → ∃ r, s.regions.find? (fun x => x.part == part && x.base == (q j).base) = some r ∧ (s.freeVault part r.die.toNat).length < needs (q j) (add j)) →
      (∀ k, k < n → 0 < needs (q k) (add k) → ∃ pe, VirtRun s .write ((q k).plist + 4 * (q k).pagesFor (q k).len) (4 * needs (q k) (add k)) pe) →
      GoesOnTo append 8 s d (fun u => Holds u d (BitVec.ofNat 64 ((if j < n then 2 ^ 32 else 0) + j)) ∧
        (∀ k, k < j → u.dwordAt (pl k) = BitVec.ofNat 64 ((q k).len + add k)) ∧
        ∀ y, (∀ k, k < j → y < pl k ∨ pl k + 8 ≤ y) → u.mem.read y = s.mem.read y)) ∧
    (∀ q pb pl add pv, batch 1 (fun _ => q) pb (fun _ => pl) (fun _ => add) → needs q add = 0 → q.vmap ≠ 0 →
      let nb := (q.len + add - 1) / 8 + 1 - q.len / 8
      VirtRun s .write (q.vmap + q.len / 8) nb pv → pv + nb ≤ pl ∨ pl + 8 ≤ pv →
      GoesOnTo append 8 s d (fun u => Holds u d 1 ∧ u.dwordAt pl = BitVec.ofNat 64 (q.len + add) ∧
        (∀ k, k < 8 * nb → (natOfBytes (u.mem.bytes pv nb)).testBit k =
          ((natOfBytes (s.mem.bytes pv nb)).testBit k || decide (q.len ≤ q.len / 8 * 8 + k ∧ q.len / 8 * 8 + k < q.len + add))) ∧
        ∀ y, y < pl ∨ pl + 8 ≤ y → y < pv ∨ pv + nb ≤ y → u.mem.read y = s.mem.read y)) ∧
    (∀ q pb pl pe add r, let m := needs q add
      batch 1 (fun _ => q) pb (fun _ => pl) (fun _ => add) → q.vmap = 0 → 0 < m →
      VirtRun s .write (q.plist + 4 * q.pagesFor q.len) (4 * m) pe → s.regions.find? (fun x => x.part == part && x.base == q.base) = some r →
      let free := s.freeVault part r.die.toNat
      let empty (k : Nat) : Option Page := s.pages.find? (fun y => y.part == part && y.va == r.base + 0x10000 * k && y.st == .empty)
      let empties := s.pages.countP (fun y => y.part == part && y.st == .empty && decide (r.base ≤ y.va) && decide (y.va < r.base + 0x10000 * r.count))
      let stops (why : Word) : Prop := GoesOnTo append 8 s d (fun u => Holds u d (why <<< 32) ∧ u.mem = s.mem ∧ u.frames = s.frames ∧
        ∀ k, k < r.count → (u.pages.find? (fun y => y.part == part && y.va == r.base + 0x10000 * k && y.st == .empty)).isSome = (empty k).isSome)
      (free.length < m → stops 1) ∧ (m ≤ free.length → empties < m → stops 2) ∧
      ∀ i : Nat → Nat, m ≤ free.length → s.dieUp r.die.toNat = true → s.pathUp s.core.die r.die.toNat = true →
        (∀ k, k < m → i k < r.count ∧ (empty (i k)).isSome = true ∧ ∀ y ∈ s.pages, y.part = part → y.va = r.base + 0x10000 * i k → y.st = .empty) →
        (∀ k, k + 1 < m → i k < i (k + 1)) → (∀ l, l < i (m - 1) → (empty l).isSome = true → ∃ k, k < m ∧ i k = l) →
        (∀ v ∈ free, v % 0x10000 = 0 ∧ (pe + 4 * m ≤ v ∨ v + 0x10000 ≤ pe)) →
        GoesOnTo append 8 s d (fun u => Holds u d 1 ∧ ∃ v : Nat → Nat,
          (∀ k, k < m → v k ∈ free ∧ (∀ l, l < k → v l ≠ v k) ∧
            ∃ y ∈ u.pages, y.part = part ∧ y.va = r.base + 0x10000 * i k ∧ y.st = .resident ∧ y.tier = .vault ∧ y.frame = v k) ∧
          ∀ y, (pl ≤ y → y < pl + 8 → u.mem.read y = (bytesOfNat 8 (q.len + add)).getD (y - pl) 0) ∧
            (y < pl ∨ pl + 8 ≤ y → pe ≤ y → y < pe + 4 * m → u.mem.read y = (bytesOfNat 4 (i ((y - pe) / 4) + 1)).getD ((y - pe) % 4) 0) ∧
            (y < pl ∨ pl + 8 ≤ y → y < pe ∨ pe + 4 * m ≤ y →
              (∀ k, k < m → v k ≤ y → y < v k + 0x10000 → u.mem.read y = 0) ∧
              ((∀ k, k < m → y < v k ∨ v k + 0x10000 ≤ y) → u.mem.read y = s.mem.read y)))) ∧
    ∀ z, inval z (s.readS b) (.kvinval g cl z d a b) 8 ∧ inval z (lit.setWidth 64) (.kvinvalLit g cl z d a lit) 12) ∧
  (∀ (g : Guard) (unm : Bool) (d a b : SReg) (lit : BitVec 32) (s : State) (c : Ctx), s.guardTrue g = true → s.quiet = .ok s →
    SlicesServe s → s.self = some c →
    let ea := s.readS a
    let closed (u : State) : Prop := ∃ x, u.self = some x ∧ x.journal = none
    let begins (v : Word) (i : Instr) (len : Nat) : Prop :=
      let good : Prop := ea.toNat % 64 = 0 ∧ v.toNat % 64 = 0 ∧ 1024 ≤ v.toNat ∧ v.toNat ≤ 2 ^ 32 ∧ ea.toNat + v.toNat ≤ 2 ^ 57
      (ea.toNat % 64 ≠ 0 → Faults i s unitSQ { code := 4, faddr := ea }) ∧
      (ea.toNat % 64 = 0 → v.toNat % 64 ≠ 0 ∨ v.toNat < 1024 ∨ 2 ^ 32 < v.toNat → Faults i s unitSQ { code := 6, faddr := v }) ∧
      (good → c.journal.isSome = true → Faults i s unitSQ { code := 23 }) ∧
      (good → c.journal = none → (∃ x ∈ cut ea.toNat v.toNat, ∀ p, s.pageAt s.core.part x.1 = some p → p.kv = true) →
        Faults i s unitSQ { code := 22, faddr := ea }) ∧
      (good → c.journal = none → (∀ x ∈ cut ea.toNat v.toNat, ∃ p, s.pageAt s.core.part x.1 = some p ∧ p.kv = false) →
        GoesOn i len s (fun u => u.mem = s.mem ∧ ∃ x, u.self = some x ∧
          x.journal = some { buf := ea.toNat, size := v.toNat, used := 0, recs := [], lines := [], reserved := [] }))
    begins (s.readS b) (.jbegin g a b) 8 ∧ begins (lit.setWidth 64) (.jbeginLit g a lit) 12 ∧
    (c.journal.isSome = true → Faults (.kvfree g unm d a b) s unitSQ { code := 23 } ∧ Faults (.kvfreeLit g unm d a lit) s unitSQ { code := 23 }) ∧
    (c.journal = none → Faults (.jcommit g d) s unitSQ { code := 23 } ∧ Faults (.jrewind g d) s unitSQ { code := 23 }) ∧
    (∀ j, c.journal = some j → GoesOnTo (.jcommit g d) 8 s d (fun u => Holds u d (BitVec.ofNat 64 j.used) ∧ u.mem = s.mem ∧ closed u)) ∧
    (∀ j, c.journal = some j → j.recs = [] → s.img.late = [] → GoesOnTo (.jrewind g d) 8 s d (fun u => Holds u d 0 ∧ u.mem = s.mem ∧ closed u)) ∧
    (∀ j (rd wr : Nat → Nat), c.journal = some j → s.img.late = [] → (∀ x ∈ s.core.l1, x.stale = none) →
      let n (type : Nat) : Nat := if type = 1 then 128 else 8
      (∀ x ∈ j.recs, (x.2 = 1 ∨ x.2 = 2) ∧ VirtRun s .read (j.buf + x.1) (16 + n x.2) (rd x.1) ∧ VirtRun s .write (s.dwordAt (rd x.1)).toNat (n x.2) (wr x.1)) →
      (∀ x ∈ j.recs, ∀ y ∈ j.recs, wr x.1 + n x.2 ≤ rd y.1 ∨ rd y.1 + 16 + n y.2 ≤ wr x.1) →
      GoesOnTo (.jrewind g d) 8 s d (fun u => Holds u d (BitVec.ofNat 64 j.recs.length) ∧ closed u ∧
        u.mem = j.recs.foldl (fun m x => m.splice (wr x.1) (s.mem.bytes (rd x.1 + 16) (n x.2))) s.mem)) ∧
    (∀ j off pb p, c.journal = some j → j.recs = [(off, 3)] → VirtRun s .read (j.buf + off) 8 pb → (s.dwordAt pb).toNat < 2 ^ 57 →
      s.pageAt s.core.part (s.dwordAt pb).toNat = some p →
      (p.st ≠ .moving → s.img.late = [] → (p.st = .resident → (s.noteReads [(j.buf + off, 16)]).settleAll.waitsAt p.frame p.bytes = none) →
        GoesOnTo (.jrewind g d) 8 s d (fun u => Holds u d 1 ∧ closed u ∧
        ∃ q, u.pageAt s.core.part (s.dwordAt pb).toNat = some q ∧ q.st = .empty)) ∧
      (p.st = .moving → exec (.jrewind g d) s = .next s)) ∧
    (c.journal.isSome = true → (∀ j, c.journal = some j → j.recs = []) → s.img.late ≠ [] → exec (.jrewind g d) s = .next s)) ∧
  (∀ (g : Guard) (cl : BitVec 4) (d a b : SReg) (s : State) (c : Ctx) (j : Journal), s.guardTrue g = true → s.quiet = .ok s →
    (∀ q : Fin 8, s.img.q[q].dir ≠ .write) → (∀ x ∈ s.core.l1, x.stale = none ∧ x.below = none) → SlicesServe s →
    s.self = some c → c.journal = some j → j.reserved = [] →
    let part := s.core.part
    let journalIs (u : State) (k : Journal) : Prop := ∃ x, u.self = some x ∧ x.journal = some k
    let apart (x n y m : Nat) : Prop := x + n ≤ y ∨ y + m ≤ x
    let record (u : State) (at_ addr type : Nat) : Prop := u.dwordAt at_ = BitVec.ofNat 64 addr ∧ u.dwordAt (at_ + 8) = BitVec.ofNat 64 type
    let old (u : State) (at_ : Nat) (w : Word) : Prop := u.dwordAt (at_ + 16) = w ∧ u.dwordAt (at_ + 24) = 0
    let sts : Instr := .sts g d a b
    (∀ p pa pb, let ea := (s.readS a + s.readS b).toNat
      let line := 128 * (ea / 128)
      ea % 8 = 0 → VirtRun s .write ea 8 pa → s.pageAt part line = some p → p.kv = true →
      (line ∈ j.lines → GoesOn sts 4 s (fun u => MemSameBut s u pa 8 ∧ u.dwordAt pa = s.readS d ∧ journalIs u j)) ∧
      (line ∉ j.lines → j.size < j.used + 144 → Faults sts s unitSQ { code := 24, faddr := BitVec.ofNat 64 j.buf }) ∧
      (line ∉ j.lines → j.used + 144 ≤ j.size → VirtRun s .write (j.buf + j.used) 144 pb → apart pb 144 pa 8 → GoesOn sts 4 s (fun u =>
        record u pb line 1 ∧ (∀ k, k < 128 → u.mem.read (pb + 16 + k) = s.mem.read (p.frame + (line - p.va) + k)) ∧ u.dwordAt pa = s.readS d ∧
        (∀ y, y < pa ∨ pa + 8 ≤ y → y < pb ∨ pb + 144 ≤ y → u.mem.read y = s.mem.read y) ∧
        journalIs u { j with used := j.used + 144, recs := (j.used, 1) :: j.recs, lines := line :: j.lines }))) ∧
    (∀ q pb pl pr add, let ea := (s.readS a).toNat
      let append : Instr := .kvappend g cl d a
      ea % 64 = 0 → VirtRun s .read ea 32 pb → s.dwordAt pb = 1 → s.dwordAt (pb + 8) = 0 → s.dwordAt (pb + 24) = BitVec.ofNat 64 add → 0 < add →
      s.seqDesc (s.dwordAt (pb + 16)) = .ok q → q.len + add < 2 ^ 32 → q.vmap = 0 → VirtRun s .write q.addr 8 pl →
      (q.pagesFor (q.len + add) = q.pagesFor q.len → q.pagesFor q.len ≤ q.maxp → j.used + 32 ≤ j.size → VirtRun s .write (j.buf + j.used) 32 pr →
        apart pr 32 pl 8 → GoesOnTo append 8 s d (fun u => Holds u d 1 ∧ record u pr q.addr 2 ∧ old u pr (s.dwordAt pl) ∧
          u.dwordAt pl = BitVec.ofNat 64 (q.len + add) ∧ (∀ y, y < pl ∨ pl + 8 ≤ y → y < pr ∨ pr + 32 ≤ y → u.mem.read y = s.mem.read y) ∧
          journalIs u { j with used := j.used + 32, recs := (j.used, 2) :: j.recs })) ∧
      (∀ pe ped r i p, let entry := q.plist + 4 * q.pagesFor q.len
        let empty (k : Nat) : Option Page := s.pages.find? (fun y => y.part == part && y.va == r.base + 0x10000 * k && y.st == .empty)
        q.pagesFor (q.len + add) = q.pagesFor q.len + 1 → q.pagesFor (q.len + add) ≤ q.maxp → j.used + 80 ≤ j.size →
        VirtRun s .write (j.buf + j.used) 80 pr → VirtRun s .write entry 4 pe → VirtRun s .write (8 * (entry / 8)) 8 ped →
        s.regions.find? (fun x => x.part == part && x.base == q.base) = some r → s.dieUp r.die.toNat = true →
        s.pathUp s.core.die r.die.toNat = true → s.freeVault part r.die.toNat ≠ [] → i < r.count → empty i = some p →
        (∀ k, k < i → empty k = none) → (∀ y ∈ s.pages, y.part = part → y.va = p.va → y.st = .empty) →
        apart pr 80 pl 8 → apart pr 80 pe 4 → apart pl 8 ped 8 → apart pl 8 pe 4 →
        (∀ v ∈ s.freeVault part r.die.toNat, apart pr 80 v 0x10000 ∧ apart pl 8 v 0x10000 ∧ apart ped 8 v 0x10000 ∧ apart pe 4 v 0x10000) →
        apart pr 80 ped 8 → GoesOnTo append 8 s d (fun u => Holds u d 1 ∧ record u pr p.va 3 ∧ record u (pr + 16) (8 * (entry / 8)) 2 ∧
          old u (pr + 16) (s.dwordAt ped) ∧ record u (pr + 48) q.addr 2 ∧ old u (pr + 48) (s.dwordAt pl) ∧
          natOfBytes (u.mem.bytes pe 4) = i + 1 ∧ u.dwordAt pl = BitVec.ofNat 64 (q.len + add) ∧
          journalIs u { j with used := j.used + 80, recs := (j.used + 48, 2) :: (j.used + 16, 2) :: (j.used, 3) :: j.recs }))))

/-- R350 to R352, R356 to R361, R372: taking a trap at level U with a handler: the record holds CAUSE, EPC, FADDR, INFO, s56 to s63, the predicates,
the status, the streams' positions once their accepted entries are written, and the PTC, s62 and s63 take CAUSE and the record's address, the streams
and the scale queue with its outstanding SCLDs (log 31) are kept aside, and the handler runs at level S. TRAP resumes behind itself, every other trap
at its instruction. A TRAP or a fault at level S, or with no handler, ends the task with status TRAPPED, puts CAUSE with LVLF at +0xF8 and counts in
ERRCNT. ERET waits for outstanding SCLDs and restores what the record holds; a bad EPC, an open queue or a record that no page maps is a nested trap
of code 3, 11 or 8. -/
def Obligations.TrapsEnterAndReturn : Prop :=
  ∀ (g : Guard) (b : SReg) (lit : BitVec 32) (unit : Nat) (e : Exc) (s : State) (pf : Nat), s.guardTrue g = true →
    let frec := s.core.frec
    let part := s.core.part
    let tvec := s.partField part 12
    let quiet : Prop := ∀ q : Fin 8, s.img.q[q].dir = .closed
    let ws := s.pending (fun _ => true)
    let com (q : Fin 8) : Nat := s.img.q[q].com + if s.img.q[q].dir = .write then ((s.core.queues[q]).map (·.count)).sum else 0
    let able : Prop := s.levelS = false ∧ tvec ≠ 0 ∧ (ws = [] ∨ Lands s ws) ∧ VirtRun s .write frec.toNat 248 pf
    let entered (t : State) (cause faddr info epc : Word) : Prop :=
      t.img.pc = tvec ∧ t.levelS = true ∧ Holds t 62 cause ∧ Holds t 63 frec ∧ (∀ r, r ≠ 62 → r ≠ 63 → t.readS r = s.readS r) ∧
      (∀ p, t.readP p = s.readP p) ∧ (∀ k, 1 ≤ k → k < 64 → t.img.status.getLsbD k = s.img.status.getLsbD k) ∧ t.core.rep = none ∧
      (∀ a, a < pf ∨ pf + 248 ≤ a → t.mem.read a = (s.mem.after ws).read a) ∧ t.dwordAt pf = cause ∧ t.dwordAt (pf + 8) = epc ∧ t.dwordAt (pf + 0x10) = faddr ∧ t.dwordAt (pf + 0x18) = info ∧
      (∀ k, k < 8 → t.dwordAt (pf + 0x20 + 8 * k) = s.readS (BitVec.ofNat 6 (56 + k))) ∧ t.dwordAt (pf + 0x60) = s.img.p.setWidth 64 ∧
      t.dwordAt (pf + 0x68) = s.readCsr .status ∧ t.dwordAt (pf + 0xF0) = s.ptc ∧
      (∀ q : Fin 8, t.dwordAt (pf + 0x70 + 16 * q) = BitVec.ofNat 64 (com q) ∧ t.dwordAt (pf + 0x78 + 16 * q) = BitVec.ofNat 64 s.img.q[q].spec ∧
        t.img.q[q] = Stream.closed) ∧
      t.img.scq = [] ∧ t.img.late = [] ∧ ∃ qs, t.img.held = some (qs, s.img.scq ++ s.img.late) ∧ ∀ q : Fin 8, qs[q] = { s.img.q[q] with com := com q }
    let cause (lvlf : Bool) (unit : Nat) (e : Exc) : Word := BitVec.ofNat 64 (e.slotn % 256 * 2 ^ 24 + lvlf.toNat * 2 ^ 21 + e.empty.toNat * 2 ^ 20 +
      unit % 16 * 2 ^ 16 + e.reason % 256 * 2 ^ 8 + e.code % 256)
    let nested (o : Host.Outcome State Fault Refusal) (w : Word) : Prop :=
      ∀ h c, s.core.handle = some h → s.findCtx h = some c → c.st = .running → ∃ t c', o = .next t ∧
        t.findCtx h = some c' ∧ (c'.st = .parked ∨ c'.st = .frozen ∧ c'.ret = .parked) ∧ c'.cause = .idle ∧ c'.task = none ∧ t.partField part 18 = s.partField part 18 + 1 ∧
        ((s.partField part 16).getLsbD 0 = false → 32 * part.toNat + 31 ∈ t.irqs) ∧
        (∀ pn, c.gang = 0 → c.base = s.core.id → (∀ q : Fin 8, s.img.q[q].dir ≠ .write) → VirtRun s .write (frec.toNat + 0xF8) 8 pn →
          (c.task = none → t.dwordAt pn = w ∧ MemSameBut s t pn 8) ∧
          ∀ k pc, c.task = some k → k.node = none → k.compl ≠ 0 → s.postedBy h = none → s.dieUp (k.queue / 256 % 4) = true →
            s.complPlace k.part (k.queue / 256 % 4) k.compl.toNat = .ok (.mem pc) → pn + 8 ≤ pc ∨ pc + 8 ≤ pn →
            t.dwordAt pn = w ∧ t.dwordAt pc = h ++ 0#16 ++ 5#16)
    let traps (v : Word) (i : Instr) (len : Nat) : Prop :=
      (able → ∃ t, exec i s = .next t ∧ entered t 26 0 v (s.img.pc + BitVec.ofNat 64 len)) ∧
      (s.levelS = true ∨ tvec = 0 → nested (exec i s) (cause true 0 { code := 26 }))
    traps (s.readS b) (.trap g b) 8 ∧ traps (lit.setWidth 64) (.trapLit g lit) 12 ∧
    (able → entered (s.deliver unit (.trap e)) (cause false unit e) e.faddr e.info s.unitAddr) ∧
    (s.levelS = true ∨ tvec = 0 → nested (.next (s.deliver unit (.trap e))) (cause true unit e)) ∧
    (s.levelS = false → Faults (.eret g) s unitSQ { code := 2 }) ∧
    (s.levelS = true → s.img.late ≠ [] → exec (.eret g) s = .next s) ∧
    (s.levelS = true → s.img.late = [] → frec.toNat < 2 ^ 57 → s.core.link = none →
      (∀ k : Fin 16, s.groups[k].pers ≠ .ual) → SlicesServe s → s.pageAt part frec.toNat = none → nested (exec (.eret g) s) (cause true 0 { code := 8 })) ∧
    (s.levelS = true → s.img.late = [] → (∀ x ∈ s.core.l1, x.stale = none) → VirtRun s .read frec.toNat 0x70 pf →
      let epc := s.dwordAt (pf + 8)
      let good : Prop := epc.extractLsb' 57 7 = 0 ∧ epc.extractLsb' 0 2 = 0
      (¬ good → nested (exec (.eret g) s) (cause true 0 { code := 3 })) ∧
      (good → ¬ quiet → nested (exec (.eret g) s) (cause true 0 { code := 11 })) ∧
      (good → quiet → ∃ t, exec (.eret g) s = .next t ∧ t.img.pc = epc ∧ t.mem = s.mem ∧
        (∀ k, k < 8 → t.readS (BitVec.ofNat 6 (56 + k)) = s.dwordAt (pf + 0x20 + 8 * k)) ∧
        (∀ r : SReg, r.toNat < 56 → t.readS r = s.readS r) ∧ t.img.status = s.dwordAt (pf + 0x68) &&& 0x7FFC ∧ t.levelS = false ∧
        (∀ p : PReg, p ≠ 0 → t.readP p = (s.dwordAt (pf + 0x60)).getLsbD p.toNat) ∧
        (∀ q sc, s.img.held = some (q, sc) → t.img.q = restartStreams q ∧ t.img.scq = sc.take 4 ∧ t.img.late = sc.drop 4 ∧ t.img.held = none)))

/-- R362, R363, R373 to R380: the instructions of level S: PARTCFG reads and writes a field of a partition, QOSCFG an entry of the QoS table (a BARCH
grant that overlaps another's and an HBM4E range that meets the Slate region are fault 6; a QUADS write that gains a quad takes it from every other
partition, the model's reading of log 62, switches out what runs there and scrubs its cores), INTPOST posts a vector, with the host port down too (log
87), behind the writes that wait for a stack, or counts it as dropped while RST is set, SCRUB scrubs an unbound core and answers 1 for a bound one or
one whose standby slot holds a context (log 66), RESETDOM answers 2 where it is not permitted or its target is out of range (log 64), TLBINV drops the
translations of a range, or all of them with no length, in every core of the partition, HALTC ends the task; at level U each is the privilege trap.
RDTIME, RDLAT and WFE run at both levels; RDTIME with WAIT and RDLAT wait for an outstanding SCLD. The place of an NS is the model's (log 4). R290,
R319, R362, R367, R368, R375, R392, R398: RESETDOM where it is permitted. A core or quad with nothing bound is scrubbed and the quad's barrier
channels go; with a context bound it answers 1 with nothing changed (how long a context takes to stop is free) or the context is switched out. A
partition loses its contexts, its queues are disabled with their unstarted records, its fields and QoS entries are restored and its error vector
posted. A die turns RESETTING: contexts whose image stood in its slots or vault are lost, those with an image in HBM4E held, its vault reads zero and
pages whose copy it held are unmapped. An island goes down with its groups, its counters at zero; a package is as after reset. -/
def Obligations.SystemInstructionsActAtTheirLevel : Prop :=
  (∀ (g : Guard) (rd clr wt : Bool) (k : BitVec 5) (d a b : SReg) (z : Fin 6) (lit : BitVec 32) (s : State), s.guardTrue g = true →
    (∀ q : Fin 8, s.img.q[q].dir ≠ .write) →
    let x := s.readS a
    let own := s.core.part
    let still : Prop := (∀ k ∈ s.core :: s.others, ∀ q : Fin 8, k.m.img.q[q].dir ≠ .write) ∧ ∀ h, s.postedBy h = none
    let atU (i : Instr) : Prop := s.levelS = false → Faults i s unitSQ { code := 2 }
    let cfg (v : Word) (i : Instr) (len : Nat) : Prop :=
      let f : Fin 19 := ⟨k.toNat % 19, Nat.mod_lt _ (by decide)⟩
      let p : BitVec 6 := x.setWidth 6
      let meets (f : Fin 19) (v : Word) : Prop :=
        let lo := if f.val = 10 then (v &&& 0xFFFFC0000000).toNat else (s.partField p 10).toNat
        let hi := if f.val = 11 then (v &&& 0xFFFFC0000000).toNat else (s.partField p 11).toNat
        lo < hi ∧ ∃ k, k < 8 ∧ lo < (64 * k + 64) * 2 ^ 30 ∧ (64 * k + 56) * 2 ^ 30 < hi
      atU i ∧ (s.levelS = true → 63 < x.toNat → Faults i s unitSQ { code := 6, faddr := x }) ∧
      (s.levelS = true → x.toNat ≤ 63 → p ≠ own → own ≠ 0 → Faults i s unitSQ { code := 2 }) ∧
      (s.levelS = true → x.toNat ≤ 63 → p = own ∨ own = 0 → rd = true → GoesOnTo i len s d (fun u => Holds u d (s.readField p f) ∧ u.parts = s.parts)) ∧
      (s.levelS = true → x.toNat ≤ 63 → p = own ∨ own = 0 → rd = false → platformField f = true → own ≠ 0 → Faults i s unitSQ { code := 2 }) ∧
      (s.levelS = true → x.toNat ≤ 63 → p = own ∨ own = 0 → rd = false → f.val ∈ [5, 6] → v = 0 → Faults i s unitSQ { code := 6, faddr := v }) ∧
      (s.levelS = true → x.toNat ≤ 63 → own = 0 → rd = false → f.val ∈ [10, 11] → meets f v → Faults i s unitSQ { code := 6, faddr := v }) ∧
      (s.levelS = true → x.toNat ≤ 63 → p = own ∨ own = 0 → rd = false → s.core.rep = none →
        f.val ∈ [5, 6, 7, 8, 9, 12, 13, 15] ∨ own = 0 ∧ (f.val = 4 ∨ f.val ∈ [10, 11] ∧ ¬ meets f v) → (v = 0 → f.val ∉ [5, 6]) →
        ∃ t, exec i s = .next t ∧ Holds t d (s.partField p f) ∧ ScalarsSameBut s t d ∧ t.mem = s.mem ∧ t.img.pc = s.img.pc + BitVec.ofNat 64 len ∧
          t.partField p f = v &&& fieldMask f ∧ ∀ q h, q ≠ p ∨ h ≠ f → t.partField q h = s.partField q h) ∧
      (s.levelS = true → x.toNat ≤ 63 → own = 0 → rd = false → f.val = 14 →
        ((∃ q : BitVec 6, q ≠ p ∧ s.partField q 14 &&& (v &&& 0xFFFFFFFFFFFF) ≠ 0) → Faults i s unitSQ { code := 6, faddr := v }) ∧
        ((∀ q : BitVec 6, q ≠ p → s.partField q 14 &&& (v &&& 0xFFFFFFFFFFFF) = 0) → s.core.rep = none →
          ∃ t, exec i s = .next t ∧ Holds t d (s.partField p f) ∧ ScalarsSameBut s t d ∧ t.partField p 14 = v &&& 0xFFFFFFFFFFFF)) ∧
      (s.levelS = true → x.toNat ≤ 63 → own = 0 → rd = false → s.core.rep = none → f.val < 4 → ∀ n, n < 64 →
        (∀ j, j < 64 → j ≠ n → v.getLsbD j = (s.partField p f).getLsbD j) → v.getLsbD n = true → (s.partField p f).getLsbD n = false →
        let ids : List (BitVec 10) := (List.range 4).map (fun i => BitVec.ofNat 10 (256 * f.val + 4 * n + i))
        let there (c : Ctx) : Prop := c.st = .running ∧ ∃ id ∈ ids, id ∈ gangCores c.base c.gang
        s.core.id ∉ ids → (∀ c ∈ s.ctxs, there c → s.core.id ∉ gangCores c.base c.gang) → still →
        ∃ t, exec i s = .next t ∧ Holds t d (s.partField p f) ∧ ScalarsSameBut s t d ∧ t.img.pc = s.img.pc + BitVec.ofNat 64 len ∧
          t.partField p f = v ∧ (∀ q, q ≠ p → (t.partField q f).getLsbD n = false) ∧
          (∀ h c, s.findCtx h = some c → there c → ∃ c', t.findCtx h = some c' ∧ c'.st = .ready) ∧
          ∀ id ∈ ids, (t.coreAt id).part = p ∧ (t.coreAt id).handle = none ∧ (t.coreAt id).m.img.rs = [] ∧ (t.coreAt id).nsSize = 0)
    let qos (v : Word) (i : Instr) (len : Nat) : Prop :=
      atU i ∧ (s.levelS = true → own ≠ 0 → Faults i s unitSQ { code := 2 }) ∧
      (s.levelS = true → own = 0 → 256 ≤ x.toNat → Faults i s unitSQ { code := 6, faddr := x }) ∧
      (s.levelS = true → own = 0 → ∀ h : x.toNat < 256, GoesOnTo i len s d (fun u => Holds u d ((s.qos[x.toNat]).setWidth 64) ∧
        u.qos = if rd then s.qos else s.qos.set x.toNat (v.setWidth 8 &&& 0x7F)))
    let post (v : Word) (i : Instr) (len : Nat) : Prop :=
      atU i ∧ (s.levelS = true → 14 < v.toNat → Faults i s unitSQ { code := 6, faddr := v }) ∧
      (s.levelS = true → v.toNat ≤ 14 → s.core.handle.bind s.postedBy = none → GoesOn i len s (fun u => u.mem = s.mem ∧
        ((s.partField own 16).getLsbD 0 = false → u.irqs = s.irqs ++ [32 * own.toNat + 16 + v.toNat] ∧ u.parts = s.parts) ∧
        ((s.partField own 16).getLsbD 0 = true → u.irqs = s.irqs ∧ u.partField own 17 = s.partField own 17 + 1))) ∧
      (∀ k, s.levelS = true → v.toNat ≤ 14 → s.core.handle.bind s.postedBy = some k → exec i s = .next (s.deliver unitSQ (.hold (.stack k) false)))
    let inval (v : Word) (i : Instr) (len : Nat) : Prop :=
      atU i ∧ (s.levelS = true → 2 ^ 57 ≤ x.toNat → Faults i s unitSQ { code := 5, faddr := x }) ∧
      (s.levelS = true → x.toNat < 2 ^ 57 → GoesOn i len s (fun u => u.mem = s.mem ∧ u.pages = s.pages ∧ u.img = s.img ∧
        ∀ c, c ∈ u.core :: u.others → c.part = own →
          (v = 0 → c.tlb = [] ∧ ∀ q : Fin 8, c.cpt[q] = none ∧ c.npt[q] = none) ∧
          ∀ p ∈ s.pages, p.part = own → p.va < x.toNat + v.toNat → x.toNat < p.va + p.bytes →
            p.va ∉ c.tlb ∧ ∀ q : Fin 8, c.cpt[q] ≠ some p.va ∧ c.npt[q] ≠ some p.va))
    let event (v : Word) (i : Instr) (len : Nat) : Prop :=
      let due := decide (v.toNat ≤ s.ptc.toNat)
      let kick : Bool := match s.self with | some c => c.kp | none => false
      (due = true ∨ kick = true → GoesOnTo i len s d (fun u => Holds u d (BitVec.ofNat 64 (due.toNat + 2 * kick.toNat)) ∧ u.mem = s.mem)) ∧
      (due = false → kick = false → ∃ u, exec i s = .next u ∧ u.img = s.img ∧ u.mem = s.mem ∧ u.core.m.wait = some (.wfe d v len))
    let scrub : Instr := .scrub g d a
    let id : BitVec 10 := BitVec.ofNat 10 x.toNat
    let reset : Instr := .resetdom g d a z
    cfg (s.readS b) (.partcfg g k rd d a b) 8 ∧ cfg (lit.setWidth 64) (.partcfgLit g k rd d a lit) 12 ∧
    qos (s.readS b) (.qoscfg g rd d a b) 8 ∧ qos (lit.setWidth 64) (.qoscfgLit g rd d a lit) 12 ∧
    post (s.readS b) (.intpost g b) 8 ∧ post (lit.setWidth 64) (.intpostLit g lit) 12 ∧
    inval (s.readS b) (.tlbinv g a b) 8 ∧ inval (lit.setWidth 64) (.tlbinvLit g a lit) 12 ∧ event (s.readS b) (.wfe g d b) 8 ∧ event (lit.setWidth 64) (.wfeLit g d lit) 12 ∧
    (wt = false ∨ s.img.late = [] → exec (.rdtime g wt d) s = .next ((s.writeS d s.ptc).retire 8)) ∧
    (s.img.late = [] → GoesOnTo (.rdlat g clr d) 8 s d (fun u => Holds u d s.core.m.lat ∧ u.core.m.lat = if clr then 0 else s.core.m.lat)) ∧
    (s.img.late ≠ [] → exec (.rdtime g true d) s = .next s ∧ exec (.rdlat g clr d) s = .next s) ∧
    atU scrub ∧ (s.levelS = true → 1024 ≤ x.toNat ∨ s.ownsCore own id = false → exec scrub s = .next ((s.writeS d 2).retire 8)) ∧
    (s.levelS = true → x.toNat < 1024 → s.ownsCore own id = true → (s.coreAt id).handle.isSome = true ∨ (s.coreAt id).standby.isSome = true →
      exec scrub s = .next ((s.writeS d 1).retire 8)) ∧
    (s.levelS = true → x.toNat < 1024 → id ≠ s.core.id → s.ownsCore own id = true → (s.coreAt id).handle = none → (s.coreAt id).standby = none →
      GoesOnTo scrub 8 s d (fun u => Holds u d 0 ∧ (u.coreAt id).part = own ∧ (u.coreAt id).m.img.rs = [] ∧ (u.coreAt id).nsSize = 0 ∧
        (u.coreAt id).l1 = [] ∧ ∀ k, k < 0x100000 → u.mem.read (2 ^ 41 + 2 ^ 20 * x.toNat + k) = 0)) ∧
    let cores : List (BitVec 10) := if z = 0 then [id] else (List.range 4).map (fun i => BitVec.ofNat 10 (4 * x.toNat + i))
    atU reset ∧ (s.levelS = true →
      z.val ∈ [3, 4, 5] ∧ own ≠ 0 ∨ z.val ∈ [3, 4] ∧ 3 < x.toNat ∨ z = 2 ∧ 63 < x.toNat ∨ z = 0 ∧ 1024 ≤ x.toNat ∨ z = 1 ∧ 256 ≤ x.toNat ∨
        z.val ∈ [0, 1] ∧ ((∃ y ∈ cores, s.ownsCore own y = false) ∨ s.core.id ∈ cores) →
      GoesOnTo reset 8 s d (fun u => Holds u d 2 ∧ u.mem = s.mem)) ∧
    (s.levelS = true → z = 2 → x.toNat ≤ 63 → x.toNat ≠ own.toNat → own ≠ 0 → Faults reset s unitSQ { code := 2 }) ∧
    (s.levelS = true → z = 0 → x.toNat < 1024 → s.ownsCore own id = true → id ≠ s.core.id → (s.coreAt id).handle = none → (s.coreAt id).m.bar = none →
      s.core.rep = none → ∃ u, exec reset s = .next u ∧ Holds u d 0 ∧ ScalarsSameBut s u d ∧ (∀ r, u.readP r = s.readP r) ∧
        u.img.pc = s.img.pc + 8 ∧ (u.coreAt id).m.img.rs = [] ∧ (u.coreAt id).part = (s.coreAt id).part) ∧
    atU (.haltc g) ∧
    (s.levelS = true → ∀ h c, s.core.handle = some h → s.findCtx h = some c → c.st = .running → ∃ t c', exec (.haltc g) s = .next t ∧
      t.findCtx h = some c' ∧ (c'.st = .parked ∨ c'.st = .frozen ∧ c'.ret = .parked) ∧ c'.cause = .idle ∧ c'.task = none)) ∧
  (∀ (g : Guard) (d a : SReg) (z : Fin 6) (s : State), s.guardTrue g = true → s.levelS = true → s.core.rep = none →
    (∀ k ∈ s.core :: s.others, ∀ q : Fin 8, k.m.img.q[q].dir ≠ .write) → (∀ h, s.postedBy h = none) →
    (∀ x ∈ s.ctxs, ∀ y ∈ s.ctxs, x.edie = y.edie → x.index = y.index → x = y) →
    let n := (s.readS a).toNat
    let own := s.core.part
    let reset : Instr := .resetdom g d a z
    let goesOn (p : State → Prop) : Prop := ∃ u, exec reset s = .next u ∧ Holds u d 0 ∧ ScalarsSameBut s u d ∧ (∀ r, u.readP r = s.readP r) ∧
      u.img.pc = s.img.pc + 8 ∧ p u
    let lost (u : State) (c : Ctx) : Prop := ∀ x ∈ u.ctxs, x.edie = c.edie → x.index = c.index → x.st = .free ∧ x.gen = nextGen c.gen
    let quad : List (BitVec 10) := (List.range 4).map (fun i => BitVec.ofNat 10 (4 * n + i))
    let mine : Prop := n < 256 ∧ (∀ y ∈ quad, s.ownsCore own y = true) ∧ s.core.id ∉ quad
    let scrubbed (u : State) : Prop := (∀ y ∈ quad, (u.coreAt y).handle = none ∧ (u.coreAt y).m.img.rs = [] ∧ (u.coreAt y).nsSize = 0 ∧
        (u.coreAt y).part = (s.coreAt y).part) ∧
      ∀ x ∈ u.channels, ¬ (x.sc = .co ∧ x.domain / 4 = n ∨ x.sc = .qd ∧ x.domain = n)
    (z = 1 → mine → (∀ y ∈ quad, (s.coreAt y).handle = none) → (∀ k ∈ s.core :: s.others, k.m.bar = none) → (∀ c ∈ s.ctxs, ∀ m ∈ c.members, m.bar = none) →
      goesOn (fun u => scrubbed u ∧ u.ctxs.map (·.handle) = s.ctxs.map (·.handle))) ∧
    (z = 1 → mine → (∃ y ∈ quad, (s.coreAt y).handle.isSome = true) →
      exec reset s = .next ((s.writeS d 1).retire 8) ∨ ∃ u, exec reset s = .next u ∧ scrubbed u) ∧
    (∀ p : BitVec 6, z = 2 → n = p.toNat → p = own ∨ own = 0 → (∀ c ∈ s.ctxs, c.part = p → c.st ≠ .free → s.ownedBlock c.handle = none) →
      let done (u : State) : Prop := (∀ c ∈ s.ctxs, c.part = p → c.st ≠ .free → lost u c) ∧
        (∀ q x, u.queues.lookup q = some x → x.part = p → x.en = false ∧ x.cur = none) ∧
        (∀ k : Fin 19, k.val ∈ [5, 6, 7, 8, 9, 12, 13, 15, 18] → u.partField p k = Partition.reset.f[k]) ∧ (u.partField p 16).getLsbD 0 = false ∧
        (∀ k : Fin 19, k.val ∈ [0, 1, 2, 3, 4, 10, 11, 14] → u.partField p k = s.partField p k) ∧
        (∀ e : Fin 256, u.qos[e].getLsbD 6 = true → u.qos[e].extractLsb' 0 6 ≠ p) ∧ 32 * p.toNat + 31 ∈ u.irqs
      (p = own → ∃ u, exec reset s = .next u ∧ done u) ∧
      (p ≠ own → s.ownsCore p s.core.id = false → (∀ c ∈ s.ctxs, c.part = p → c.st = .running → s.core.id ∉ gangCores c.base c.gang) →
        s.core.m.bar = none → goesOn done)) ∧
    (z = 3 → own = 0 → n ≤ 3 →
      let done (u : State) : Prop := u.dies[n % 4]'(Nat.mod_lt _ (by decide)) = Die.reset ∧ Die.reset.st = .resetting ∧
        (∀ c ∈ s.ctxs, c.st ≠ .free → c.imgDie.toNat = n → c.fresh = false → c.loc ≠ .hbm → lost u c) ∧
        (∀ c ∈ s.ctxs, c.st ≠ .free → c.rundie.toNat = n → c.fresh = true ∨ c.loc = .hbm →
          ∃ c', u.findCtx c.handle = some c' ∧ c'.st = .frozen ∧ .die n ∈ c'.holds) ∧
        (∀ k, k < vaultBytes → u.mem.read (vaultBase n + k) = 0) ∧
        (∀ x ∈ u.pages, x.st ≠ .empty → x.tier = .vault → x.demand = false → x.frame < vaultBase n ∨ vaultBase n + vaultBytes ≤ x.frame) ∧
        (∀ i, i < 4 → u.islandUp i = s.islandUp i) ∧ u.ready.getLsbD (4 + n) = false
      (s.core.die = n → ∃ u, exec reset s = .next u ∧ done u ∧ u.core = { Core.blank s.core.id with part := own }) ∧
      (s.core.die ≠ n → s.core.m.bar = none → s.core.m.wait = none → (∀ c ∈ s.ctxs, c.st = .running → s.core.id ∈ gangCores c.base c.gang →
        c.lostWith n = false ∧ c.heldWith n = false) → goesOn done)) ∧
    (z = 4 → own = 0 → n ≤ 3 → s.core.m.bar = none → s.core.m.wait = none → ∃ u, exec reset s = .next u ∧ Holds u d 0 ∧ u.islandUp n = false ∧
      u.ready.getLsbD n = false ∧ (∀ i : Fin 16, i.val / 4 = n → u.groups[i].st = .down) ∧
      ((∀ x ∈ s.pages, x.gone = .none) → u.pages.map (fun x => (x.part, x.va)) = s.pages.map (fun x => (x.part, x.va))) ∧
      (∀ i, i < 4 → u.dieUp i = s.dieUp i)) ∧
    (z = 5 → own = 0 → ∃ u, exec reset s = .next u ∧ u.core = State.reset.core ∧ u.others = [] ∧ u.ctxs = [] ∧ u.pages = [] ∧ u.mem = [] ∧ u.ptc = 0 ∧
      u.ready = 0 ∧ u.parts = State.reset.parts ∧ u.groups = State.reset.groups ∧ u.queues = [] ∧ u.irqs = []))

/-- R393, R394, R397 to R400: RECAST by level S of partition 0 answers the first status that applies, in the order of log 46 (4 for a misaligned
descriptor or an Off operand, then 1, then 4 for the descriptor, then 2), or begins the sequence of its group; one that waits answers how the sequence
ended, or 0 or 3 where the group stands ended, whatever path leads to its island; LNKSTAT and RISTAT read their registers; NSEND and NFETCH answer 1
without an ACTIVE UET group, otherwise as the other side does, the local statuses first (log 72), NSEND changing no memory, and NFETCH only where it
answers 0; RINGSTEP answers its step and whether the flag came in time, and without a group that carries it its two writes count as endpoint absent; a
misaligned descriptor of it is code 4 (log 71). What another package answers is free (log 20). -/
def Obligations.LinksAreRecastReadAndUsed : Prop :=
  ∀ (g : Guard) (pers : Pers) (wt : Bool) (cl : BitVec 4) (d a b : SReg) (k : Fin 6) (j : Fin 4) (lit : BitVec 32) (s : State) (pd : Nat),
    s.guardTrue g = true → Clean s →
    let x := s.readS a
    let n := x.toNat
    let grp := s.group n
    let platform : Prop := s.levelS = true ∧ s.core.part = 0
    let busy : Prop := grp.st = .drain ∨ grp.st = .retarget ∨ grp.st = .train
    let answers (v : Word) (i : Instr) (len : Nat) : Prop := GoesOnTo i len s d (fun u => Holds u d v ∧ u.groups = s.groups ∧ u.mem = s.mem)
    let up : Prop := s.pathUp s.core.die (n / 4) = true
    let absent (k : Nat) : Exc := { code := 25, info := BitVec.ofNat 64 k }
    let begun (u : State) (win : Option Window) (ue : Option (BitVec 6 × BitVec 32)) (tmo : Word) : Prop :=
      (u.group n).st = (if grp.st = .active then .drain else .retarget) ∧ (u.group n).next = pers ∧ (u.group n).nextWin = win ∧ (u.group n).nextUe = ue ∧
      (u.group n).tmo = (if tmo = 0 then 1000000 else tmo) ∧ (u.group n).since = s.ptc ∧ ∀ h, h < 16 → h ≠ n → u.group h = s.group h
    let desc (v : Word) : WinDesc :=
      { lbase := s.dwordAt pd, attr := s.dwordAt (pd + 8), rbase := s.dwordAt (pd + 16), tmo := s.dwordAt (pd + 24) }
    let recasts (v : Word) (i : Instr) (len : Nat) : Prop :=
      (¬ platform → Faults i s unitSQ { code := 2 }) ∧ (platform → 15 < n → Faults i s unitSQ { code := 6, faddr := x }) ∧
      (platform → n ≤ 15 → ¬ up → (∀ h l, s.core.m.wait ≠ some (.recast h l)) → Faults i s unitSQ (absent (n / 4))) ∧
      (platform → n ≤ 15 → up → (∀ h l, s.core.m.wait ≠ some (.recast h l)) →
        (pers = .off → v ≠ 0 → answers 4 i len) ∧ (pers = .off → v = 0 → busy → answers 1 i len) ∧
        (pers = .off → v = 0 → ¬ busy → s.poolBusy n = true → answers 2 i len) ∧
        (pers ≠ .off → v.toNat % 32 ≠ 0 → answers 4 i len) ∧
        (pers ≠ .off → v.toNat % 32 = 0 → VirtRun s .read v.toNat 32 pd →
          (busy → answers 1 i len) ∧ (¬ busy → (desc v).valid pers = false → answers 4 i len) ∧
          (¬ busy → pers ≠ .uet → s.windowMeets n pers (desc v).window = true → answers 4 i len) ∧
          (¬ busy → (desc v).valid pers = true → pers ≠ .uet → s.windowMeets n pers (desc v).window = false → s.poolBusy n = true → answers 2 i len)) ∧
        (¬ busy → s.poolBusy n = false → s.islandUp (n / 4) = true → s.slate.tgt = none → ∀ win ue tmo,
          (pers = .off ∧ v = 0 ∧ win = none ∧ ue = none ∧ tmo = 0 ∨
            pers ≠ .off ∧ v.toNat % 32 = 0 ∧ VirtRun s .read v.toNat 32 pd ∧ (desc v).valid pers = true ∧
              (pers ≠ .uet → s.windowMeets n pers (desc v).window = false) ∧
              win = (if pers = .uet then none else some (desc v).window) ∧
              ue = (if pers = .uet then some ((desc v).attr.extractLsb' 32 6, (desc v).rbase.extractLsb' 0 32) else none) ∧ tmo = (desc v).tmo) →
          (wt = false → GoesOnTo i len s d (fun u => Holds u d 0 ∧ u.mem = s.mem ∧ begun u win ue tmo)) ∧
          (wt = true → ∃ u, exec i s = .next u ∧ u.img = s.img ∧ u.mem = s.mem ∧ u.core.m.wait = some (.recast n none) ∧ begun u win ue tmo))) ∧
      (platform → n ≤ 15 → ∀ h out, s.core.m.wait = some (.recast h out) →
        (∀ r, out = some r → answers (BitVec.ofNat 64 r) i len) ∧ (out = none → (s.group h).st = .failed → answers 3 i len) ∧
        (out = none → (s.group h).st = .active ∨ (s.group h).st = .down → answers 0 i len) ∧
        (out = none → (s.group h).busy = true → exec i s = .next s))
    let rma (fetch : Bool) (i : Instr) : Prop :=
      (n % 64 ≠ 0 → Faults i s unitSQ { code := 4, faddr := x }) ∧
      (n % 64 = 0 → VirtRun s .read n 64 pd →
        let w (k : Nat) : Word := s.dwordAt (pd + 8 * k)
        let good : Prop := (w 0).toNat < 32 ∧ 1 ≤ (w 3).toNat ∧ (w 3).toNat ≤ 1048576 ∧ (w 4).toNat < 2 ^ 32 ∧ w 6 = 0 ∧ w 7 = 0
        let r := s.group ((w 0).toNat % 16)
        let there : Prop := s.pathUp s.core.die ((w 0).toNat % 16 / 4) = true
        (¬ good → Faults i s unitSQ { code := 6, faddr := x }) ∧
        (good → ¬ there → Faults i s unitSQ (absent ((w 0).toNat % 16 / 4))) ∧
        (good → there → ¬ (r.pers = .uet ∧ r.st = .active) → answers 1 i 8) ∧
        (good → there → r.pers = .uet → r.st = .active → ∀ pa, VirtRun s .read (w 2).toNat (w 3).toNat pa → VirtRun s .write (w 2).toNat (w 3).toNat pa →
          GoesOnTo i 8 s d (fun u => u.groups = s.groups ∧ (Holds u d 0 ∧ (if fetch then MemSameBut s u pa (w 3).toNat else u.mem = s.mem) ∨
            (Holds u d 2 ∨ Holds u d 3) ∧ u.mem = s.mem))))
    let rings (v : Word) (i : Instr) (len : Nat) : Prop :=
      (n % 64 ≠ 0 → (∀ a1 a2 a3 a4 a5 a6, s.core.m.wait ≠ some (.ring a1 a2 a3 a4 a5 a6)) → Faults i s unitSQ { code := 4, faddr := x }) ∧
      (∀ since tmo flag pf epoch step late, s.core.m.wait = some (.ring since tmo flag epoch step late) → flag % 8 = 0 → VirtRun s .read flag 8 pf →
        let there : Prop := (s.dwordAt pf).extractLsb' 32 32 = epoch ∧ step.toNat + 1 ≤ ((s.dwordAt pf).extractLsb' 0 32).toNat
        (there → answers (step ++ 0#32) i len) ∧ (¬ there → late = true → answers (step ++ 1#32) i len) ∧
        (¬ there → late = false → ∃ u, exec i s = .next u ∧ u.img = s.img ∧ u.mem = s.mem ∧ u.core.m.wait = s.core.m.wait)) ∧
      (s.core.m.wait = none → n % 64 = 0 → VirtRun s .read n 64 pd → (∀ e ∈ s.bad, e.1 ≠ 0) →
        let w (k : Nat) : Word := s.dwordAt (pd + 8 * k)
        (w 0).toNat < 2 ^ 58 → (w 1).toNat < 2 ^ 58 → v.toNat < (w 5).toNat → (w 5).toNat < 2 ^ 32 → (w 3).toNat % 512 = 0 → ((w 4).extractLsb' 0 32).toNat % 512 = 0 →
        ((w 4).extractLsb' 0 32).toNat ≤ 65536 → (w 3).toNat < 131072 → (w 3).toNat + ((w 4).extractLsb' 0 32).toNat ≤ 131072 → w 7 = 0 →
        (w 2).toNat % 8 = 0 →
        (s.ringUp = false → (∀ h ∈ s.groups.toList, h.busy = false) → GoesOnTo i len s d (fun u => Holds u d (v.setWidth 32 ++ 1#32) ∧
          u.mem = s.mem ∧ u.groups = s.groups ∧ ∀ e : Fin 4, e.val = s.core.die → s.islands[e].up = true → u.islands[e].absent = s.islands[e].absent + 2)) ∧
        (s.ringUp = true → ∀ pf, VirtRun s .read (w 2).toNat 8 pf → (s.dwordAt pf).extractLsb' 32 32 = (w 4).extractLsb' 32 32 →
          (v.setWidth 32 : BitVec 32).toNat + 1 ≤ ((s.dwordAt pf).extractLsb' 0 32).toNat →
          answers (v.setWidth 32 ++ 1#32) i len ∨ answers (v.setWidth 32 ++ 0#32) i len))
    recasts (s.readS b) (.recast g pers wt d a b) 8 ∧ recasts (lit.setWidth 64) (.recastLit g pers wt d a lit) 12 ∧
    rma false (.nsend g cl d a) ∧ rma true (.nfetch g cl d a) ∧
    rings (s.readS b) (.ringstep g d a b) 8 ∧ rings (lit.setWidth 64) (.ringstepLit g d a lit) 12 ∧
    (15 < n → Faults (.lnkstat g d a k) s unitSQ { code := 6, faddr := x }) ∧
    (n ≤ 15 → ¬ up → Faults (.lnkstat g d a k) s unitSQ (absent (n / 4))) ∧
    (n ≤ 15 → up → ∃ w, GoesOnTo (.lnkstat g d a k) 8 s d (fun u => Holds u d w ∧ u.mem = s.mem) ∧
      (k = 0 → (w.extractLsb' 0 3).toNat = grp.st.code ∧ w.extractLsb' 4 3 = grp.pers.code.setWidth 3 ∧ w.getLsbD 3 = (grp.win.isSome && grp.st == .active)) ∧
      (k = 1 → w = grp.counters[0]) ∧ (k = 2 → w = grp.counters[1]) ∧ (k = 3 → w = grp.counters[2])) ∧
    (4 ≤ n → Faults (.ristat g d a j) s unitSQ { code := 6, faddr := x }) ∧
    (n < 4 → s.pathUp s.core.die n = false → Faults (.ristat g d a j) s unitSQ (absent n)) ∧
    (n < 4 → s.pathUp s.core.die n = true → ∃ w, GoesOnTo (.ristat g d a j) 8 s d (fun u => Holds u d w ∧ u.mem = s.mem) ∧
      (j = 0 → w.getLsbD 0 = s.islandUp n ∧ w.getLsbD 1 = s.dieUp n ∧ w.extractLsb' 4 60 = 0 ∧
        (w.extractLsb' 2 2).toNat = (match (s.dies[n % 4]'(Nat.mod_lt _ (by decide))).st with | .up => 0 | .hung => 1 | .resetting => 2 | .off => 3)) ∧
      (j = 1 → w = (s.islands[n % 4]'(Nat.mod_lt _ (by decide))).absent))

/-- R402 to R404, R406 to R408, R410, R412 to R414, R423 to R425: the instructions of Slate by level S of partition 0, with the statuses they answer:
a cut is STOPPING where the descriptor keeps the rules and its target is reached, an enrolled issuer leaving its core behind SLCUT, and fails with
cause 1 or 3, or 4 where an engine is not ready (log 86, which gives SLRESTORE 2 there); SLCOMMIT writes a record with its CRC (log 45) and answers 0
also where the target does not take it (log 85). MEMHINT and MEMSTAT act on an HBM4E page. -/
def Obligations.SlateAndStackInstructionsAnswer : Prop :=
  ∀ (g : Guard) (m crit : Bool) (d a b : SReg) (k : Fin 7) (j : BitVec 3) (z : Fin 2) (lit : BitVec 32) (s : State), s.guardTrue g = true →
    (∀ q : Fin 8, s.img.q[q].dir ≠ .write) → s.core.handle.bind s.postedBy = none →
    let platform : Prop := s.levelS = true ∧ s.core.part = 0
    let sl := s.slate
    let answers (v : Word) (i : Instr) (len : Nat) : Prop := GoesOnTo i len s d (fun u => Holds u d v ∧ u.mem = s.mem ∧ u.slate = s.slate)
    let guarded (i : Instr) : Prop := ¬ platform → Faults i s unitSQ { code := 2 }
    let cut : Instr := .slcut g m d
    let wait : Instr := .slwait g d z
    let commits (v : Word) (i : Instr) (len : Nat) : Prop := guarded i ∧
      (platform → sl.st ≠ .drained ∨ sl.gen ≠ v → answers 2 i len) ∧
      (platform → sl.st = .drained → sl.gen = v → sl.pend = false → s.heldReqs = [] →
        (∀ t, sl.tgt = some t → s.targetUp t = true → GoesOnTo i len s d (fun u => Holds u d 0 ∧ u.slate.st = .idle ∧ u.slate.failed = false ∧
          recWord (u.slate.recordAt t sl.z (slotOf v)) 0 = v ∧ (recValid (u.slate.recordAt t sl.z (slotOf v)) = true ∨ v = 0) ∧ u.mem = s.mem)) ∧
        ((∀ t, sl.tgt = some t → s.targetUp t = false) → GoesOnTo i len s d (fun u => Holds u d 0 ∧ u.slate.st = .idle ∧ u.slate.failed = true ∧
          u.slate.cause = 3 ∧ u.slate.records = sl.records ∧ u.mem = s.mem)))
    let restores (v : Word) (i : Instr) (len : Nat) : Prop := guarded i ∧
      (platform → s.core.m.wait = none → sl.st ≠ .idle → answers 1 i len) ∧
      (platform → s.core.m.wait = none → sl.st = .idle →
        let gen := if v = 0 then s.newestGen else v
        (∀ c, s.readTarget = .error c → answers 2 i len) ∧
        ∀ t, s.readTarget = .ok t →
          let r := sl.recordAt t s.slateZ (slotOf gen)
          let fits : Prop := s.slateReady = true ∧ gen ≠ 0 ∧ recValid r = true ∧ recWord r 0 = gen ∧ recWord r 3 = sl.cfg[4] ∧ recWord r 2 = s.slateZ ∧
            ∀ c ∈ s.ctxs, c.st = .free ∨ (sl.cfg[4]).getLsbD c.part.toNat = false
          (¬ fits → answers 2 i len) ∧
          (fits → ∃ u, exec i s = .next u ∧ u.img = s.img ∧ u.mem = s.mem ∧ u.core.m.wait = some .restore ∧ u.slate.st = .restoring ∧
            u.slate.restoring = gen)) ∧
      (platform → s.core.m.wait = some .restore → sl.st = .restoring → exec i s = .next s) ∧
      (platform → s.core.m.wait = some .restore → sl.st ≠ .restoring → ∀ st, sl.restored = some st → answers (BitVec.ofNat 64 st) i len)
    let watches (v : Word) (i : Instr) (len : Nat) : Prop := guarded i ∧
      (platform → v &&& ~~~cfgMask k ≠ 0 ∨ sl.st ≠ .idle ∧ (k = 4 ∨ k = 5) → Faults i s unitSQ { code := 6, faddr := v }) ∧
      (platform → v &&& ~~~cfgMask k = 0 → sl.st = .idle ∨ k ≠ 4 ∧ k ≠ 5 → GoesOnTo i len s d (fun u => Holds u d sl.cfg[k] ∧ u.mem = s.mem ∧
        u.slate.cfg = sl.cfg.set k.val v k.isLt))
    let hint : Instr := .memhint g crit d a
    let stat : Instr := .memstat g d a k
    guarded cut ∧ (platform → sl.st = .restoring → answers 3 cut 8) ∧ (platform → sl.cutting = true → answers 1 cut 8) ∧
    (platform → sl.st = .idle → sl.cfg[4] = 0 ∨ sl.cfg[5] = 0 → answers 2 cut 8) ∧
    (platform → sl.st = .idle → sl.cfg[4] ≠ 0 → sl.cfg[5] ≠ 0 → s.core.rep = none → (sl.cfg[4]).getLsbD 0 = false → s.heldReqs = [] → ∃ u, exec cut s = .next u ∧ Holds u d 0 ∧
      u.img.pc = s.img.pc + 8 ∧ u.slate.lastGen = sl.lastGen + 1 ∧
      let fails (c : BitVec 4) : Prop := u.slate.st = .idle ∧ u.slate.failed = true ∧ u.slate.cause = c
      (s.slateReady = false → fails 4) ∧
      (s.slateReady = true → ∀ bs, s.readAway (sl.cfg[5]).toNat 32 = some bs →
        let x (i : Nat) : Word := wordOfBytes ((bs.drop (8 * i)).take 8)
        let t : CutTarget := { pod := (x 0).getLsbD 0, base := x 1, size := (x 2).toNat }
        let kept : Prop := (∀ i, 1 ≤ i → i < 64 → (x 0).getLsbD i = false) ∧ x 3 = 0 ∧ (x 1).toNat % 0x200000 = 0 ∧
          2 * s.slateSlotSize sl.cfg[4] + 4096 ≤ (x 2).toNat ∧ (t.pod = false → ∃ g, s.poolOf t = some g) ∧ (t.pod = true → (x 1).toNat < 2 ^ 58)
        (¬ kept → fails 1) ∧ (kept → s.targetUp t = false → fails 3) ∧
        (kept → s.targetUp t = true → u.slate.st = .stopping ∧ u.slate.gen = sl.lastGen + 1 ∧ u.slate.man = m ∧ u.slate.tgt = some t ∧
          u.slate.recordAt t u.slate.z (slotOf u.slate.gen) = List.replicate 64 0))) ∧
    (platform → sl.st = .idle → sl.cfg[4] ≠ 0 → sl.cfg[5] ≠ 0 → s.core.rep = none → s.img.late = [] → (sl.cfg[4]).getLsbD 0 = true → s.slateReady = true →
      ∀ t h c, s.readTarget = .ok t → s.core.handle = some h → s.findCtx h = some c → c.st = .running → c.gang = 0 → c.base = s.core.id →
      ∃ u c' x, exec cut s = .next u ∧ u.slate.st = .stopping ∧ u.slate.tgt = some t ∧ u.slate.man = m ∧ u.core.handle = none ∧
        u.findCtx h = some c' ∧ c'.st = .ready ∧ c'.members = [x] ∧ x.img.pc = s.img.pc + 8 ∧ (d ≠ 0 → x.img.s[d.toFin] = 0)) ∧
    guarded wait ∧
    (platform → s.core.m.wait = none → sl.cutting = false → answers (if sl.failed then 0 else sl.lastGen) wait 8) ∧
    (platform → s.core.m.wait = none → sl.st = .stopping ∨ sl.st = .copying → ∃ u, exec wait s = .next u ∧ u.img = s.img ∧ u.core.m.wait = some (.slate sl.gen)) ∧
    (platform → s.core.m.wait = none → sl.st = .draining ∨ sl.st = .drained → (z = 0 → answers (sl.waitResult false sl.gen) wait 8) ∧
      (z = 1 → ∃ u, exec wait s = .next u ∧ u.img = s.img ∧ u.mem = s.mem ∧ u.core.m.wait = some (.slate sl.gen))) ∧
    (platform → s.core.m.wait = some (.slate sl.gen) → sl.cutting = true → z = 1 ∨ sl.st = .stopping ∨ sl.st = .copying → exec wait s = .next s) ∧
    (platform → ∀ gen, s.core.m.wait = some (.slate gen) → sl.cutting = false → answers (sl.waitResult (z == 1) gen) wait 8) ∧
    commits (s.readS b) (.slcommit g d b) 8 ∧ commits (lit.setWidth 64) (.slcommitLit g d lit) 12 ∧
    restores (s.readS b) (.slrestore g d b) 8 ∧ restores (lit.setWidth 64) (.slrestoreLit g d lit) 12 ∧
    (∃ w, exec (.slstat g d j) s = .next ((s.writeS d w).retire 8) ∧
      (j = 0 → (w.extractLsb' 0 3).toNat = sl.st.code ∧ w.getLsbD 3 = sl.failed ∧ w.getLsbD 4 = sl.pend ∧ w.extractLsb' 8 4 = sl.cause) ∧
      (j = 1 → w = s.newestGen) ∧ (j = 2 → w = sl.gen) ∧ (j = 3 → sl.st ≠ .copying → w = sl.bytes) ∧ (j = 4 → w = sl.ticks) ∧
      (j = 5 → w = sl.counters[0]) ∧ (j = 6 → w = sl.counters[1]) ∧ (j = 7 → w = sl.counters[2])) ∧
    watches (s.readS b) (.errwatch g d b k) 8 ∧ watches (lit.setWidth 64) (.errwatchLit g d lit k) 12 ∧
    (s.hbmTarget (s.readS a) = .ok none → exec hint s = .next ((s.writeS d 1).retire 8) ∧ exec stat s = .next ((s.writeS d (BitVec.allOnes 64)).retire 8)) ∧
    (∀ pa, s.hbmTarget (s.readS a) = .ok (some pa) →
      let mark : Machine.Mark := { part := s.core.part, stack := stackOf pa, pc := channelOf pa, group := bankGroup (bankOf pa) }
      let now := s.criticalGroups (stackOf pa) (channelOf pa)
      (crit = false → GoesOnTo hint 8 s d (fun u => Holds u d 0 ∧ ∀ y, y ∈ u.marks ↔ y ∈ s.marks ∧ y ≠ mark)) ∧
      (crit = true → mark.group ∉ now → 2 ≤ now.length → exec hint s = .next ((s.writeS d 2).retire 8)) ∧
      (crit = true → mark.group ∈ now ∨ now.length < 2 → GoesOnTo hint 8 s d (fun u => Holds u d 0 ∧ ∀ y, y ∈ u.marks ↔ y ∈ s.marks ∨ y = mark)) ∧
      let y := s.pcAt (stackOf pa) (channelOf pa)
      let x := s.stackAt (stackOf pa)
      ∃ w, GoesOnTo stat 8 s d (fun u => Holds u d w ∧ u.mem = s.mem ∧ (k = 4 → (u.stackAt (stackOf pa)).mscHits = w) ∧
          (k = 5 → (u.stackAt (stackOf pa)).mscLines = w)) ∧
        (k = 1 → w = y.performed) ∧ (k = 2 → w = y.postponed) ∧ (k = 3 → w = y.forced) ∧
        (k = 6 → (w.extractLsb' 0 2).toNat = (match x.sr with | .normal => 0 | .leaving => 2 | _ => 1) ∧ w.extractLsb' 2 6 = 0 ∧ w.extractLsb' 16 48 = 0) ∧
        (k = 0 → w.getLsbD 12 = y.allbank ∧ w.getLsbD 13 = (decide (x.sr ≠ .normal) && !y.allbank) ∧ w.extractLsb' 14 50 = 0 ∧
          (w.extractLsb' 8 4).toNat = y.owed.length % 16 ∧ ((∀ n ∈ s.criticalGroups (stackOf pa) y.pc, n < 8) →
            ∀ n, n < 8 → w.getLsbD n = decide (n ∈ s.criticalGroups (stackOf pa) y.pc))))

/-- R1, R12, R25, R296, R364, R365, R368, R387, R392, R389, R428, R429: what the host, another pod member and the package's own bring-up change, and
what the host reads. The host reaches its registers while island 0 is up (R25, R392). QBASE is stored whole (log 67), a time within 25 ticks sets PODV
(log 73), a boundary comes up with the islands of both sides (log 75), a die not before its island (log 99), the revision is the low byte of its dword
(log 98), and the values after reset that no rule gives are those of logs 2, 3 and 45. -/
def Obligations.HostWritesAndBringUpTakeEffect : Prop :=
  ∀ (q : BitVec 10) (v : BitVec 32) (log2n : BitVec 5) (p : BitVec 6) (w : Word) (i : BitVec 5) (d : BitVec 2) (e : Fin 256) (s : State),
    let x := s.queueAt q.toNat
    let n := d.toNat
    let gives (i : Instr) (f : State → Prop) : Prop := ∃ u, exec i s = .next u ∧ f u
    let still : Prop := s.moves = [] ∧ s.heldReqs = [] ∧ ∀ c ∈ s.ctxs, c.paths = []
    let settled : Prop := (∀ c ∈ s.ctxs, c.st ≠ .frozen) ∧ ∀ y ∈ s.pages, y.gone ≠ .remove ∧ (y.owner = 0 ∨ ∃ c, s.findCtx y.owner = some c)
    let queueBecomes (i : Instr) (y : HostQueue) : Prop := gives i (fun u => u.queueAt q.toNat = y ∧ u.mem = s.mem ∧ ∀ r, r ≠ q.toNat → u.queueAt r = s.queueAt r)
    (s.islandUp 0 = true →
      (queueBecomes (.qtailWrite q v)
        (if (x.tail - x.head).toNat ≤ (v - x.head).toNat ∧ (v - x.head).toNat ≤ 2 ^ x.log2n.toNat then { x with tail := v } else { x with ovr := true })) ∧
      queueBecomes (.queueEnable q log2n p)
        (if x.en then x else { x with log2n := log2n, part := p, en := decide (4 ≤ log2n.toNat ∧ log2n.toNat ≤ 16) }) ∧
      queueBecomes (.queueDisable q) { x with en := false } ∧ queueBecomes (.ovrClear q) { x with ovr := false } ∧
      queueBecomes (.rerrClear q) { x with rerr := false } ∧
      queueBecomes (.hostRegisterWrite (0x100000 + 32 * q.toNat) w) { x with base := w } ∧
      queueBecomes (.hostRegisterWrite (0x100008 + 32 * q.toNat) w)
        (let y := { x with ovr := x.ovr && !w.getLsbD 6, rerr := x.rerr && !w.getLsbD 7 }
         if x.en then { y with en := w.getLsbD 0 }
         else { y with part := w.extractLsb' 16 6, log2n := w.extractLsb' 1 5,
                       en := w.getLsbD 0 && decide (4 ≤ (w.extractLsb' 1 5).toNat ∧ (w.extractLsb' 1 5).toNat ≤ 16) }) ∧
      gives (.podidWrite w) (fun u => u = if s.ualActive then s else { s with podid := w &&& 0x303FF }) ∧
      gives (.hostRegisterWrite (0x120000 + 8 * e.val) w) (fun u => u.qos[e] = w.setWidth 8 &&& 0x7F ∧ u.queues = s.queues ∧ u.mem = s.mem) ∧
      gives (.pcapWrite w) (fun u => u = { s with pcap := w &&& 0xFFFF }) ∧
      gives (.hostPartitionWrite p 12 w) (fun u => u.partField p 12 = w &&& 0x1FFFFFFFFFFFFFC ∧ u.mem = s.mem) ∧
      (w ≠ 0 → gives (.hostPartitionWrite p 5 w) (fun u => u.partField p 5 = w)) ∧ gives (.hostPartitionWrite p 5 0) (fun u => u = s) ∧
      s.hostRead (0x110000 + 256 * p.toNat + 8 * 12) = some (s.partField p 12) ∧ s.hostRead (0x100000 + 32 * q.toNat) = some x.base ∧
      s.hostRead 0x140008 = some s.ready ∧ s.hostConfig 8 = some 0x11) ∧
    (s.islandUp 0 = false → ∀ k, s.hostRead k = none ∧ s.hostConfig k = none) ∧
    (s.islandUp 0 = false → ∀ k, exec (.qtailWrite q v) s = .next s ∧ exec (.hostPartitionWrite p k w) s = .next s ∧ exec (.pcapWrite w) s = .next s ∧ exec (.podidWrite w) s = .next s) ∧
    (s.podid.getLsbD 17 = true → s.podid.getLsbD 16 = false → s.ualActive = true →
      gives (.timeMessage w) (fun u => u.ptc = (if s.ptc.toNat ≤ w.toNat then w else s.ptc) ∧ u.podSlow = decide (w < s.ptc) ∧
        u.podv = (s.podv || decide (s.ptc.toNat ≤ w.toNat + 25)))) ∧
    gives .packageReset (fun u => u.core = State.reset.core ∧ u.others = [] ∧ u.ctxs = [] ∧ u.ptc = 0 ∧ u.mem = [] ∧ u.parts = State.reset.parts ∧
      u.groups = State.reset.groups ∧ u.dies = State.reset.dies ∧ u.islands = State.reset.islands ∧ u.ready = 0 ∧ u.slate.slots = s.slate.slots ∧ u.slate.records = s.slate.records) ∧
    (s.ready.getLsbD i.toNat = false → 16 ≤ i.toNat → i.toNat < 28 → s.ready.getLsbD (4 + i.toNat % 4) = false → exec (.functionReady i) s = .next s) ∧
    (s.ready.getLsbD i.toNat = false → 16 ≤ i.toNat → i.toNat < 28 → s.ready.getLsbD (4 + i.toNat % 4) = true →
      gives (.functionReady i) (fun u => u.ready = s.ready ||| 1#64 <<< i.toNat ∧ u.mem = s.mem ∧ u.core = s.core)) ∧
    (s.dies[d.toFin].st = .resetting → s.islandUp n = true → s.ready.extractLsb' 0 4 = 0xF ∨ s.ready.extractLsb' 4 4 ≠ 0 →
      (∀ c ∈ s.ctxs, HoldSrc.die n ∉ c.holds) →
      gives (.computeDieReady d) (fun u => u.dies[d.toFin].st = .up ∧ u.ready.getLsbD (4 + n) = true ∧ u.ctxs = s.ctxs)) ∧
    (s.dieUp n = true → still → gives (.heartbeatTimeout d) (fun u => u.dies[d.toFin].st = .hung ∧ u.ctxs = s.ctxs ∧ u.mem = s.mem)) ∧
    (still → gives (.diePowerOff d) (fun u => u.dies[d.toFin].st = .off ∧ u.ctxs = s.ctxs ∧ u.mem = s.mem)) ∧
    (s.slate.tgt = none → still → (∀ k ∈ s.core :: s.others, k.link = none) →
      gives (.boundaryDown d) (fun u => u = { s with bup := s.bup &&& ~~~(1#4 <<< n) })) ∧
    (settled → s.islandUp n = true → s.islandUp (n + 1) = true → gives (.boundaryUp d) (fun u => u = { s with bup := s.bup ||| 1#4 <<< n })) ∧
    (settled → s.islandUp n = false →
      gives (.islandReturn d) (fun u => u.islandUp n = true ∧ u.ready.getLsbD n = true ∧ u.ctxs = s.ctxs ∧ u.mem = s.mem ∧ u.groups = s.groups))

/-- R297, R299 to R301, R308, R435, R292, R293, R74: what the Steward does with a record it accepted, a graph, a task whose members have ended, a
completion word, a swap-out, whose images stand in HBM4E at the place chosen (log 16), and a wake. R302, R303, R75, R77, R289: PLACE binds the first
Ready context in the order of R302 that fits a free block (overdue ones first, the oldest first; then the lowest number; then the time it joined the
list, log 21), no context on a block that the oldest overdue one could use while that does not fit, none whose image lies at a stack that does not
serve (the model's reading, log 41), an image that is not in the block's slots only with a grant of the arbiter, and to the block of the rule: its
member cores run it, the slots swap unless the active one still holds its image, and the images stand there, zero-filled at a first bind, with a new
task's entry address. PREEMPT and SLICE_END stop what runs on the block of the highest number, and STANDBY_LOAD begins to load the first context into
empty standby slots. R365: an arbiter's grant. Its pointer goes to the next of the 256 entries; where that entry is valid and its partition has a
request waiting, that partition is granted, otherwise the next waiting one round robin above the last so granted; with none waiting it keeps its
place. MOVE_START begins the first move of the least level of the partition that the engine's arbiter grants, and an image moves only for a partition
that the Steward's arbiter grants. -/
def Obligations.StewardEventsTakeEffect : Prop :=
  (∀ (q : BitVec 10) (l : Launch) (h : BitVec 32) (k : Nat) (c : Ctx) (s : State),
    let x := s.queueAt q.toNat
    let steward (n : Nat) : Prop := s.dieUp n = true ∧ s.ready.getLsbD (16 + n) = true
    let gives (i : Instr) (f : State → Prop) : Prop := ∃ u, exec i s = .next u ∧ f u
    (steward (queueDie q.toNat) →
      (x.en = true → x.head ≠ x.tail → x.cur = none → ∀ bs, s.stewardRead x.part (queueDie q.toNat) (x.slotAt x.head) 64 = .ok bs →
        (launchOfBytes bs).bad false = false → gives (.recordAccept q) (fun u => (u.queueAt q.toNat).head = x.head + 1 ∧
          (u.queueAt q.toNat).cur = some (launchOfBytes bs) ∧ { queue := q.toNat, seqno := s.seqno + 1 } ∈ u.outstanding ∧ u.mem = s.mem ∧ u.ctxs = s.ctxs)) ∧
      (s.headRecord q.toNat = some l →
        (l.type = 1 → ∀ e t, s.lookTask x.part (queueDie q.toNat) l = .start t e → s.findCtx (l.handle.setWidth 32) = some c → c.st = .swapped ∨ c.st = .parked ∧ c.moving = false →
          gives (.taskStart q) (fun u => (u.queueAt q.toNat).cur = none ∧ ∃ y, u.findCtx (l.handle.setWidth 32) = some y ∧ y.st = .ready ∧
            y.entry = some e ∧ y.kp = false ∧ y.task = some (l.task q.toNat x.part (s.curSeqno q.toNat) none))) ∧
        (l.type = 2 → ∀ hd nodes ns, s.stewardRead x.part (queueDie q.toNat) l.addr.toNat 64 = .ok hd →
          s.stewardRead x.part (queueDie q.toNat) (l.addr.toNat + 64) (64 * natOfBytes (hd.take 1)) = .ok nodes → graphNodes hd nodes = some ns →
          gives (.graphStart q) (fun u => (u.queueAt q.toNat).cur = none ∧
            ∃ gr ∈ u.graphs, gr.queue = q.toNat ∧ gr.start = s.ptc ∧ gr.nodes = ns.map (fun y => (y, NodeState.pending)))) ∧
        (l.type = 3 → attrBad l.addr = false → s.dieUp (if l.addr.getLsbD 8 then queueDie q.toNat else (l.addr.extractLsb' 6 2).toNat) = true →
          s.pathUp (queueDie q.toNat) (if l.addr.getLsbD 8 then queueDie q.toNat else (l.addr.extractLsb' 6 2).toNat) = true →
          gives (.createRecord q) (fun u => (u.queueAt q.toNat).cur = none ∧
            u.ctxs = (s.newCtx x.part (if l.addr.getLsbD 8 then BitVec.ofNat 2 (queueDie q.toNat) else l.addr.extractLsb' 6 2) l.addr l.arg).1.ctxs)) ∧
        (l.type = 4 → s.findCtx (l.handle.setWidth 32) = some c → c.part = x.part → c.st ≠ .running → c.st ≠ .frozen →
          s.entryReached (queueDie q.toNat) (l.handle.setWidth 32) = true → s.ownedBlock (l.handle.setWidth 32) = none →
          gives (.freeRecord q) (fun u => (u.queueAt q.toNat).cur = none ∧ u.findCtx (l.handle.setWidth 32) = none)))) ∧
    (∀ gr n e, s.graphs.find? (fun y => y.id == k) = some gr → s.dieUp (queueDie gr.queue) = true → gr.nodes[n]? = some (l, .pending) → n < 64 → l.pred = 0 → l.bad true = false →
      s.nodeYields gr n l gr.start.toNat = false → (∃ t, s.lookTask gr.part (queueDie gr.queue) l = .start t e) → s.findCtx (l.handle.setWidth 32) = some c →
      c.st = .swapped ∨ c.st = .parked ∧ c.moving = false →
      gives (.graphNodeStart k (BitVec.ofNat 6 n)) (fun u => ∃ y, u.findCtx (l.handle.setWidth 32) = some y ∧ y.st = .ready ∧ y.entry = some e)) ∧
    (∀ gr n m y st at_, s.graphs.find? (fun y => y.id == k) = some gr → s.dieUp (queueDie gr.queue) = true → gr.nodes[n]? = some (l, .pending) → n < 64 →
      m < 64 → l.pred.getLsbD m = true → gr.nodes[m]? = some (y, .done (st + 1) at_) →
      gives (.graphNodeStart k (BitVec.ofNat 6 n)) (fun u => ∀ g' ∈ u.graphs, g'.id = k → ∀ l', g'.nodes[n]? ≠ some (l', .pending))) ∧
    (s.findCtx h = some c → steward (h.extractLsb' 30 2).toNat →
      (c.st = .running → (∀ id ∈ gangCores c.base c.gang, (s.coreAt id).m.ended = true) →
        gives (.taskComplete h) (fun u => ∃ y, u.findCtx h = some y ∧ (y.st = .parked ∨ y.st = .frozen ∧ y.ret = .parked) ∧ y.cause = .idle ∧ y.task = none)) ∧
      (c.st = .parked → c.moving = false → c.pendReady = false → (s.partField c.part 6).toNat ≤ (s.ptc - c.parkedAt).toNat → c.wake = BitVec.allOnes 64 → (∃ t, s.imageGrant c.imgDie.toNat = some (c.part, t)) → ∀ a, s.imageSpot c = some a →
        gives (.swapOut h) (fun u => (∃ y, u.findCtx h = some y ∧ y.moving = true ∧ y.imgAt = some a ∧ y.st = .parked) ∧ u.mem = s.mem)) ∧
      (∀ a, c.st = .parked → c.moving = true → c.pendReady = false → c.broken = false → c.imgAt = some a → s.dieUp c.imgDie.toNat = true → s.dieUp (homeOfPa a) = true →
        s.pathUp c.imgDie.toNat (homeOfPa a) = true → s.stackServes a = true →
        gives (.swapOutDone h) (fun u => (∃ y, u.findCtx h = some y ∧ y.moving = false ∧ y.loc = .hbm ∧ y.imgAt = some a ∧ y.st = .swapped) ∧
          ∀ m, c.members = [m] → ∀ n, n < m.img.bytes.length → u.mem.read (a + n) = m.img.bytes[n]?.getD 0)) ∧
      (c.st = .parked → c.moving = false → c.pendReady = false → c.cause = .waitm → c.wake ≠ BitVec.allOnes 64 → c.wake.toNat ≤ s.ptc.toNat →
        gives (.wakeTimeReached h) (fun u => ∃ y, u.findCtx h = some y ∧ y.st = .ready ∧ y.cause = .none))) ∧
    (∀ y, s.completions = [y] → s.dieUp (y.queue / 256 % 4) = true → s.postedBy (y.word.extractLsb' 32 32) = none → ∀ pa, s.complPlace y.part (y.queue / 256 % 4) y.addr.toNat = .ok (.mem pa) →
      y.addr ≠ 0 → y.irq = false → y.node = none →
      gives (.completionWordWrite 0) (fun u => u.completions = [] ∧ u.dwordAt pa = y.word ∧ MemSameBut s u pa 8)) ∧
    (∀ y, s.completions = [y] → s.dieUp (y.queue / 256 % 4) = false ∨ (s.postedBy (y.word.extractLsb' 32 32)).isSome = true →
      exec (.completionWordWrite 0) s = .next s)) ∧
  (∀ (d : BitVec 2) (c c1 : Ctx) (b : BitVec 10) (h : BitVec 32) (s : State), s.dieUp d.toNat = true → s.ready.getLsbD (16 + d.toNat) = true →
    let gives (i : Instr) (f : State → Prop) : Prop := ∃ u, exec i s = .next u ∧ f u
    let still : Prop := (∀ k ∈ s.core :: s.others, ∀ q : Fin 8, k.m.img.q[q].dir ≠ .write) ∧ ∀ k, s.postedBy k = none
    let ranked (x : Ctx) : Prop := x.handle ∈ s.rr ∧ s.findCtx x.handle = some x ∧ x.st = .ready ∧ x.rundie = d ∧ s.slateStops x.part = false
    let cand (x : Ctx) : Prop := ranked x ∧ s.imageWaits x = false
    let age (x : Ctx) : Nat := (s.partField x.part 5).toNat
    let waited (x : Ctx) : Nat := (s.ptc - x.readyAt).toNat
    let number (x : Ctx) : Nat := x.prio.toNat - waited x / age x
    let overdue (x : Ctx) : Prop := (x.prio.toNat + 1) * age x ≤ waited x
    let precedes (x y : Ctx) : Prop := overdue x ∧ (overdue y → waited y < waited x) ∨
      ¬ overdue x ∧ ¬ overdue y ∧ (number x < number y ∨ number x = number y ∧ s.joined x < s.joined y)
    let block (x : Ctx) (y : BitVec 10) : Prop := y.toNat / 256 = d.toNat ∧ y.toNat % gangSize x.gang = 0 ∧ ∀ id ∈ gangCores y x.gang, s.owns x.part id = true
    let fits (x : Ctx) (y : BitVec 10) : Prop := block x y ∧ ∀ id ∈ gangCores y x.gang, (s.coreAt id).handle = none
    let loaded (x : Ctx) (y : BitVec 10) : Prop := ∀ id ∈ gangCores y x.gang, (s.coreAt id).standby = some { handle := x.handle, loaded := true }
    let kept (x : Ctx) (y : BitVec 10) : Prop := ∀ id ∈ gangCores y x.gang, some x.handle ∈ (s.coreAt id).held.toList
    let chosen (x : Ctx) (ok : BitVec 10 → Prop) (y : BitVec 10) : Prop := ok y ∧ ∀ z, ok z → z ≠ y →
      loaded x y ∧ (loaded x z → y.toNat < z.toNat) ∨
      ¬ loaded x y ∧ ¬ loaded x z ∧ (kept x y ∧ (kept x z → y.toNat < z.toNat) ∨ ¬ kept x y ∧ ¬ kept x z ∧ y.toNat < z.toNat)
    let reaches (n : Nat) : Prop := c.fresh = true ∨ s.dieUp c.imageHome = true ∧ s.pathUp n c.imageHome = true
    let loads : Prop := c.fresh = true ∨ kept c b ∨ reaches d.toNat ∧ ∃ t, s.imageGrant d.toNat = some (c.part, t)
    let bound (u : State) : Prop :=
      (∃ y, u.findCtx c.handle = some y ∧ y.st = .running ∧ y.base = b ∧ y.placedAt = s.ptc ∧ y.eff.toNat = number c ∧
        y.allowance = min ((s.partField c.part 6).toNat : Int) (c.allowance + (s.partField c.part 6).toNat)) ∧ c.handle ∉ u.rr ∧
      ∀ i, i < gangSize c.gang →
        let k := s.coreAt (b + BitVec.ofNat 10 i)
        let k' := u.coreAt (b + BitVec.ofNat 10 i)
        k'.handle = some c.handle ∧ k'.gidx.toNat = i ∧ k'.slot = (if k.held[slotFin k.slot] = some c.handle then k.slot else !k.slot) ∧
        k'.held[slotFin k'.slot] = some c.handle ∧ k'.frec = s.frecAt c.part (b + BitVec.ofNat 10 i) k'.slot ∧
        (∀ e, c.entry = some e → k'.m.img.pc = e.entry) ∧ (c.fresh = true → c.entry = none → k'.m.img.s = (Member.zeroFill c.seed).img.s) ∧
        ∀ m, c.fresh = false → c.entry = none → c.loc ≠ .hbm → c.members[i]? = some m → m.owed = none → k'.m.img.pc = m.img.pc ∧ k'.m.img.s = m.img.s
    let first (among : Ctx → Prop) (x : Ctx) : Prop := among x ∧ ∀ y, among y → y ≠ x → precedes x y
    let ready (among : Ctx → Prop) (x : Ctx) : Prop := first among x ∧ ∀ y, ¬ fits x y
    let may (slice : Bool) (v : Ctx) : Prop := number c < v.eff.toNat ∨
      slice = true ∧ (number c = v.eff.toNat ∨ overdue c) ∧ v.allowance ≤ ((s.ptc - v.placedAt).toNat : Int)
    let taken (slice : Bool) (y : BitVec 10) : Prop := block c y ∧
      if slice = true ∧ overdue c then ∃ v ∈ s.runningOn c y, may slice v else ∀ v ∈ s.runningOn c y, may slice v
    let worst (slice : Bool) (y : BitVec 10) : Prop := taken slice y ∧ ∀ z, taken slice z → z ≠ y →
      s.blockNumber c z < s.blockNumber c y ∨ s.blockNumber c z = s.blockNumber c y ∧ y.toNat < z.toNat
    (first cand c → chosen c (fits c) b → loads → gives (.place d) bound) ∧
    (first cand c → chosen c (fits c) b → c.fresh = false → ¬ kept c b → (∀ t, s.imageGrant d.toNat ≠ some (c.part, t)) → exec (.place d) s = .next s) ∧
    (ready cand c1 → cand c → c ≠ c1 → (∀ y, cand y → y ≠ c → y ≠ c1 → precedes c y) →
      chosen c (fun y => fits c y ∧ (overdue c1 → ∀ z, block c1 z → ∀ id ∈ gangCores y c.gang, id ∉ gangCores z c1.gang)) b → loads →
      gives (.place d) bound) ∧
    ((∀ x, cand x → ∀ y, ¬ fits x y) → exec (.place d) s = .next s) ∧
    (∀ slice, still → ready ranked c → worst slice b → gives (if slice then .sliceEnd d else .preempt d) (fun u => ∀ v ∈ s.runningOn c b, may slice v →
      (∃ y, u.findCtx v.handle = some y ∧ y.st = .ready) ∧ v.handle ∈ u.rr ∧
      (v.st = .running → ∀ id ∈ gangCores v.base v.gang, (u.coreAt id).handle = none))) ∧
    (∀ slice, ready ranked c → (∀ y, ¬ taken slice y) → (∀ x, ranked x → x = c) → exec (if slice then .sliceEnd d else .preempt d) s = .next s) ∧
    (∀ t, ready cand c → (∀ k ∈ s.allCores, ∀ x, k.standby = some x → x.handle ≠ c.handle) → s.imageGrant d.toNat = some (c.part, t) →
      chosen c (fun y => block c y ∧ ∀ id ∈ gangCores y c.gang, s.standbyOpen c id = true) b → c.gang = 0 → (s.coreAt b).standby = none → reaches d.toNat →
      gives (.standbyLoad d) (fun u => ∃ y, (u.coreAt b).standby = some y ∧ y.handle = c.handle ∧ (u.coreAt b).handle = (s.coreAt b).handle ∧
        (u.coreAt b).m = (s.coreAt b).m)) ∧
    (s.findCtx h = some c → s.dieUp (h.extractLsb' 30 2).toNat = true → s.ready.getLsbD (16 + (h.extractLsb' 30 2).toNat) = true →
      s.core.standby = some { handle := h, loaded := false } → s.imageWaits c = false → c.fresh = true ∨ c.broken = false → reaches s.core.die → gives (.standbyLoadDone h) (fun u =>
        u.core.standby = some { handle := h, loaded := true } ∧ u.core.held[slotFin (!s.core.slot)] = some h ∧ u.core.m = s.core.m))) ∧
  (∀ (a : Arbiter) (waiting : BitVec 6 → Bool) (d : BitVec 2) (h : BitVec 32) (s : State),
    let i : BitVec 8 := a.ptr + 1
    let e : Byte := s.qos[i.toFin]
    let named : BitVec 6 := e.extractLsb' 0 6
    (e.getLsbD 6 = true → waiting named = true → s.grant a waiting = some (named, { a with ptr := i })) ∧
    (e.getLsbD 6 = false ∨ waiting named = false → ∀ p : BitVec 6, waiting p = true →
      (∀ q : BitVec 6, waiting q = true → q ≠ p → (p - a.rrp - 1).toNat < (q - a.rrp - 1).toNat) →
      s.grant a waiting = some (p, { ptr := i, rrp := p })) ∧
    ((∀ p, waiting p = false) → s.grant a waiting = none) ∧
    (let best (x : Move × Page × Spot) : Bool := some x.1.level == (s.startable d).head?.map (fun y => y.1.level);
      s.settleAll = s → (∀ m ∈ s.moves, m.started = false → s.moveIdle m = false) → s.dieUp d.toNat = true → s.ready.getLsbD (20 + d.toNat) = true →
      (s.moves.filter (fun m => m.started && m.die == d)).length < 16 →
      (∀ p b m pg x, s.grant (s.arbs[d.toNat]'(by omega)) (fun p => (s.startable d).any (fun y => best y && y.1.part == p)) = some (p, b) →
        (s.startable d).find? (fun y => best y && y.1.part == p) = some (m, pg, x) → ∃ u, exec (.moveStart d) s = .next u ∧
          u.arbs = s.arbs.set d.toNat b (by omega) ∧ (∃ m' ∈ u.moves, m'.part = m.part ∧ m'.va = m.va ∧ m'.started = true) ∧
          ∃ y ∈ u.pages, y.part = pg.part ∧ y.va = pg.va ∧ y.st = .moving ∧ y.dest = x.tier ∧ y.toFrame = x.at_) ∧
      (s.startable d = [] → exec (.moveStart d) s = .next s)) ∧
    (∀ c, s.findCtx h = some c → c.moving = false → (∀ t, s.imageGrant c.imgDie.toNat ≠ some (c.part, t)) → exec (.swapOut h) s = .next s))

/-- R319 to R322, R325, R329, R140, R147, R148, R276, R279, R379, R400, R47, R126: what the residency engines start and finish, what a stream does
ahead of its use, how a wait ends, and how a unit that cannot be fetched or decoded faults. A fetch that stops for another reason than a fault leaves
the stream as it was. A STREAM_FETCH event fetches a whole entry (log 27), the accepted entries of every core are written before a move (log 76), and
the ticks of a recall are the tables' with the pool's latency (log 25). A slab block is emptied one page at a time. -/
def Obligations.EngineAndCoreEventsTakeEffect : Prop :=
  ∀ (d : BitVec 2) (part : BitVec 6) (va pa : Nat) (hbm : Bool) (h : BitVec 32) (c : Ctx) (p : Page) (m : Move) (id : BitVec 10) (q : QReg) (k : BitVec 4) (n : Nat) (s : State),
    let gives (i : Instr) (f : State → Prop) : Prop := ∃ u, exec i s = .next u ∧ f u
    let a := s.settleAll
    let t := s.focus id
    let queued (u : State) (x : Page) (dest : Tier) (level : Nat) : Prop := ∃ y ∈ u.moves, y.part = x.part ∧ y.va = x.va ∧ y.dest = dest ∧ y.level ≤ level ∧ y.started = false
    let goesOn (r : SReg) (v : Word) (len : Nat) (u : State) : Prop := (u.coreAt id).m.wait = none ∧ (u.coreAt id).m.img.pc = t.core.m.img.pc + BitVec.ofNat 64 len ∧
      (r ≠ 0 → (u.coreAt id).m.img.s[r.toFin] = v)
    (a.moves = [m] → m.started = false → m.die = d → a.moveIdle m = false → a.pages.find? (fun y => y.part == m.part && y.va == m.va) = some p → p.st ≠ .moving →
      a.slateStops p.part = false → a.slicesUp d.toNat p.size p.va = true → (p.demand = true ∨ a.stackFree p.tier p.frame = true ∧ (p.tier = .pool → (a.poolGroups p.part).any (fun y => y.1 == p.group) = true)) → a.dieUp d.toNat = true → a.ready.getLsbD (20 + d.toNat) = true →
      (p.st = .resident → a.writeWaits p.frame p.bytes = false) →
      ∀ x, a.spotFor p m = some x → a.stackFree x.tier x.at_ = true →
      gives (.moveStart d) (fun u => u.moves = [{ m with started := true, paths := a.movePaths m p x }] ∧ u.mem = a.mem ∧
        ∃ y ∈ u.pages, y.part = p.part ∧ y.va = p.va ∧ y.st = .moving ∧ y.dest = x.tier ∧ y.toFrame = x.at_ ∧ y.frame = p.frame)) ∧
    (s.mem.wf = true → s.pages.find? (fun y => y.part == part && y.va == va) = some p → s.moves.find? (fun y => y.part == part && y.va == va && y.started) = some m → p.st = .moving → m.broken = false → s.dieUp m.die.toNat = true →
      s.slicesUp m.die.toNat p.size p.va = true → (p.demand = true ∨ s.stackFree p.tier p.frame = true) → s.stackFree p.dest p.toFrame = true → s.endReached m.die.toNat p p.tier p.frame = true →
      s.endReached m.die.toNat p p.dest p.toFrame = true → p.gone = .none →
      gives (.moveComplete part va) (fun u => (∃ y ∈ u.pages, y.part = part ∧ y.va = va ∧ y.tier = p.dest ∧ y.frame = p.toFrame ∧ y.demand = false ∧
          y.st = (if p.open_ p.dest then .resident else .out)) ∧ MemSameBut s u p.toFrame p.bytes ∧
        ∀ i, i < p.bytes → p.open_ p.dest = true → (p.demand = true → u.mem.read (p.toFrame + i) = 0) ∧
          (p.demand = false → p.open_ p.tier = true → u.mem.read (p.toFrame + i) = s.mem.read (p.frame + i)) ∧
          (p.demand = false → p.open_ p.tier = false → p.cells.wf = true → u.mem.read (p.toFrame + i) = p.cells.read i))) ∧
    (hbm = true → s.freeHbm part + (((s.pages.filter (fun y => y.part == part)).filter (fun y => y.tier == .hbm && !y.demand && s.leaving y)).map (fun y => y.span .hbm)).sum / 0x10000 < (s.partField part 9).toNat →
      s.candidate (((s.pages.filter (fun y => y.part == part)).filter (fun y => y.tier == .hbm && !y.demand)).filter (fun y => s.engineDie y == d)) = some p →
      gives (.demote d part hbm) (fun u => queued u p .pool 3)) ∧
    (hbm = false → ∀ here, here = (s.pages.filter (fun y => y.part == part)).filter (fun y => y.tier == .vault && y.st != .empty && homeOfPa y.frame == d.toNat) →
      (s.freeVault part d.toNat).length + (here.filter s.leaving).length < (s.partField part 8).toNat → s.candidate here = some p →
      gives (.demote d part hbm) (fun u => queued u p .hbm 3)) ∧
    (s.findCtx h = some c → c.st = .parked ∨ c.st = .swapped → c.wake ≠ BitVec.allOnes 64 → p ∈ s.pages → p.owner = h → p.st = .out →
      c.wake.toNat ≤ s.ptc.toNat + (s.partField c.part 7).toNat + ((s.pages.filter (fun y => y.owner == h && y.st == .out)).map Page.recallTicks).sum →
      gives (.wakeRecallTrigger h) (fun u => queued u p p.target 2)) ∧
    (s.pages.find? (fun y => y.part == part && y.va == va) = some p → s.findCtx p.owner = some c → p.size = 0 → p.kv = false → p.st = .resident → p.tier = .hbm → 64 ≤ p.heat →
      p.hot = false → s.stackFree p.tier p.frame = true → (s.ptc - s.dies[c.rundie.toFin].window).toNat < 1000000 → (s.partField part 15).getLsbD 0 = true → p.pin = 0 → (s.partField part 8).toNat < (s.freeVault part c.rundie.toNat).length →
      gives (.hotPagePromote part va) (fun u => queued u p .vault 3 ∧ u.mem = s.mem)) ∧
    (1000000 ≤ (s.ptc - s.dies[d.toFin].window).toNat → gives (.hotWindowExpire d) (fun u => u.dies[d.toFin].window = s.dies[d.toFin].window + 1000000 ∧ u.mem = s.mem ∧
      ∀ y ∈ u.pages, ∀ o, s.findCtx y.owner = some o → o.rundie = d → y.heat = 0 ∧ y.hot = false)) ∧
    (∀ b, s.blocks.find? (fun y => y.pa == pa) = some b → s.inBlock b = [] → homeOfPa pa = d.toNat →
      gives (.compact d pa) (fun u => u.blocks = s.blocks.filter (fun y => y.pa != pa) ∧ u.pages = s.pages ∧ u.mem = s.mem)) ∧
    (∀ b, s.blocks.find? (fun y => y.pa == pa) = some b → homeOfPa pa = d.toNat → 4 * (s.inBlock b).length ≤ slabsPerBlock b.cls →
      (s.inBlock b).length ≤ ((s.blocks.filter (fun y => y.part == b.part && y.cls == b.cls && y.pa != pa)).map (fun y => (s.freeSlabs y).length)).sum →
      (∀ y ∈ s.inBlock b, ∀ x ∈ s.moves, x.part = y.part → x.va = y.va → x.kind ≠ .compact) →
      (s.inBlock b).find? (fun y => y.st == .out && s.stackFree y.tier y.frame) = some p →
      gives (.compact d pa) (fun u => queued u p .hbm 3 ∧ u.moves.length = s.moves.length + 1 ∧ u.blocks = s.blocks ∧ u.mem = s.mem)) ∧
    (t.core.handle.isSome = true → t.dieUp t.core.die = true →
      ((t.stream q).fetches = true → (t.queue q).length < 8 → (t.stream q).held = none → (t.stream q).spec < (t.stream q).n →
        (∀ e r, t.fetchEntry q = .ok (e, r) → (∀ x ∈ t.core.l1, x.stale = none) → gives (.streamFetch id q) (fun u =>
          (u.coreAt id).queues[q.toFin] = t.queue q ++ [e] ∧ (u.coreAt id).m.img.q[q.toFin] = { t.stream q with spec := (t.stream q).spec + e.count } ∧
          e.count = (t.stream q).entryCount (t.readSh (t.stream q).sh) (t.stream q).spec ∧ u.mem = s.mem)) ∧
        (∀ f, t.fetchEntry q = .error f → gives (.streamFetch id q) (fun u => (u.coreAt id).queues[q.toFin] = t.queue q ∧ u.mem = s.mem ∧
          (u.coreAt id).m.img.q[q.toFin] = (match f with | .trap _ | .park _ => { t.stream q with held := some f } | _ => t.stream q)))) ∧
      (∀ e rest, (t.stream q).dir = .write → t.queue q = e :: rest → t.entryHeld e = none → t.core.handle.bind t.postedBy = none → gives (.streamWrite id q) (fun u => (u.coreAt id).queues[q.toFin] = rest ∧
        (u.coreAt id).m.img.q[q.toFin] = { t.stream q with com := (t.stream q).com + e.count } ∧ (Lands t e.writes → u.mem = s.mem.after e.writes)))) ∧
    (∀ since due (w : WaitmReq), t.core.m.wait = some (.waitm since due w) →
      (w.park = true → 820 ≤ (s.ptc - since).toNat → gives (.waitmParkTimeout id) (fun u => (u.coreAt id).m = { t.core.m with wait := some (.waitm since true w) } ∧ u.mem = s.mem)) ∧
      (t.coreRuns = true → (∀ x ∈ t.core.l1, x.stale = none) → ∀ v, t.readWord w.sp .read w.ea (w.f.width / 8) = .ok v →
        (waitmHolds w.cond v (w.b.toNat % 2 ^ w.f.width) = true → t.core.rep = none → gives (.waitmRecheck id) (fun u => goesOn w.d (BitVec.ofNat 64 v) w.len u ∧ u.mem = s.mem)) ∧
        (waitmHolds w.cond v (w.b.toNat % 2 ^ w.f.width) = false → due = false → gives (.waitmRecheck id) (fun u => (u.coreAt id).m = t.core.m ∧ u.mem = s.mem)))) ∧
    (∀ r b len, t.core.m.wait = some (.wfe r b len) → t.coreRuns = true → t.core.rep = none → b.toNat ≤ s.ptc.toNat →
      gives (.wfeWake id) (fun u => goesOn r (t.wfeWord b) len u ∧ (t.wfeWord b).getLsbD 0 = true ∧ u.mem = s.mem)) ∧
    (∀ since tmo flag epoch step late, (s.coreAt id).m.wait = some (.ring since tmo flag epoch step late) → tmo.toNat ≤ (s.ptc - since).toNat →
      gives (.ringstepTimeout id) (fun u => (u.coreAt id).m.wait = some (.ring since tmo flag epoch step true) ∧ u.mem = s.mem)) ∧
    (s.podv = true → ∀ x, x = s.channelAt .pd 0 k.toNat → x.arrived = 0 ∨ n = x.count →
      gives (.podBarrierArrival k n) (fun u => u.mem = s.mem ∧
        u.channelAt .pd 0 k.toNat = if x.arrived + 1 = n then { x with count := n, arrived := 0, phase := !x.phase } else { x with count := n, arrived := x.arrived + 1 })) ∧
    (s.coreRuns = true → s.core.rep = none →
      (∀ ps e, s.fetchAt s.img.pc = .ok ps → decodeParcels s.levelS ps = .error e → Faults .illegalEncoding s unitSQ { code := 1, reason := e.code }) ∧
      (∀ st, s.fetchAt s.img.pc = .error st → exec .fetchFault s = .next (s.deliver unitSQ st)))

/-- R384, R386, R394, R399, R408, R419 to R421, R425, R426: the sequence of a recast group, what comes in from outside the package, and the refresh
and thermal hold of a stack, with the count of cr.lat (R422). What waits stands in a list in its order (log 74), which refreshes start and what they
meet is the schedule's (logs 44 and 68), a peer's request carries what log 69 says, and a request of a group that no personality serves is answered as
of one that is DOWN. The host reaches any HBM4E address outside the Slate region (log 46). A stack whose controller is not ready keeps requests
waiting, while one under thermal hold serves lines that L2 or the MSC holds (log 18). A read waits at a bank from the cycle in which it comes there
(log 44). -/
def Obligations.LinkAndStackEventsTakeEffect : Prop :=
  ∀ (g : BitVec 4) (key : BitVec 32) (off pa n pc : Nat) (wr progress busy : Bool) (bs : List Byte) (z : BitVec 3) (bank : BitVec 5) (idle : BitVec 8)
    (s : State),
    let gives (i : Instr) (f : State → Prop) : Prop := ∃ u, exec i s = .next u ∧ f u
    let x := s.group g.toNat
    let k := z.toNat
    let stored (u : State) (at_ : Nat) : Prop := MemSameBut s u at_ bs.length ∧ ∀ i, i < bs.length → u.mem.read (at_ + i) = bs.getD i 0
    let waits (w : ReqHold) (r : OutReq) : State := { s with heldReqs := s.heldReqs ++ [(w, r)] }
    let still (u : State) : Prop := s.heldReqs = [] → s.slate.tgt = none → u.mem = s.mem
    let y := s.pcAt k pc
    let st := s.stackAt k
    let heldIn (h : BitVec 32) (t : Nat) : Prop :=
      (∃ v ∈ s.pcs, (∃ r ∈ v.running, ∃ m, r.waiting = false ∧ t < r.since + 188 ∧ (h, m) ∈ r.held ∧ r.since + m ≤ t) ∨
        (v.allbankOn = true ∧ t < v.abSince + 438 ∧ ∃ m, (h, m) ∈ v.abHeld ∧ v.abSince + m ≤ t)) ∨
      ∃ c ∈ s.ctxs, c.handle = h ∧ c.st ≠ .free ∧ ∃ j ∈ c.stalled, (s.stackAt j).sr = .held ∨ (s.stackAt j).sr = .leaving
    let counted (h : BitVec 32) (m : Nat) : Prop := ∃ ts : List Nat, ts.Nodup ∧ ts.length = m ∧ ∀ t, t ∈ ts ↔ s.cycle ≤ t ∧ t < s.passTime.cycle ∧ heldIn h t
    (x.st = .drain → s.inFlight g.toNat = false → gives (.groupDrainDone g) (fun u => (u.group g.toNat).st = .retarget ∧ still u)) ∧
    (x.st = .drain → x.tmo.toNat ≤ (s.ptc - x.since).toNat →
      gives (.groupDrainTimeout g) (fun u => (∀ via, .flight true via ∉ u.linksOf g.toNat) ∧ (u.group g.toNat).st = .drain ∧ u.mem = s.mem)) ∧
    (x.st = .retarget → gives (.groupRetargeted g) (fun u => still u ∧ (s.heldReqs = [] → (u.group g.toNat).pers = x.next ∧ (u.group g.toNat).win = x.nextWin ∧
      (u.group g.toNat).ue = x.nextUe ∧ (u.group g.toNat).st = (if x.next = .off then .down else .train)))) ∧
    (x.st = .train → gives (.groupTrained g) (fun u => still u ∧ (s.heldReqs = [] → (u.group g.toNat).st = .active ∧ (u.group g.toNat).counters = Vector.replicate 5 0)) ∧
      gives (.groupTrainFailed g) (fun u => still u ∧ (s.heldReqs = [] → (u.group g.toNat).st = .failed ∧ ∀ via, .held via ∉ u.linksOf g.toNat))) ∧
    (x.st ≠ .down → x.st ≠ .failed → exec (.groupRequest g wr) s = .next s) ∧
    (x.st = .down ∨ x.st = .failed → gives (.groupRequest g true) (fun u => (u.group g.toNat).counters[2] = x.counters[2] + 1 ∧ u.mem = s.mem)) ∧
    (x.busy = true → 8 ≤ bs.length → bs.length ≤ 256 →
      exec (.ualinkRequestIn g pa n (some bs)) s = .next (waits (.group g.toNat) (.ualink g.toNat pa n (some bs)))) ∧
    (8 ≤ bs.length → bs.length ≤ 256 → x.busy = false → (x.pers = .ual → x.st = .active →
        ∀ p ∈ s.pages, p.st = .resident → p.tier = .hbm → p.frame ≤ pa → pa + bs.length ≤ p.frame + p.bytes → p.pin = 0) →
      exec (.ualinkRequestIn g pa n (some bs)) s = .next (s.countIsland (dieOfGroup g.toNat)) ∧
      exec (.ualinkRequestIn g pa bs.length none) s = .next (s.countIsland (dieOfGroup g.toNat))) ∧
    (x.pers = .ual → x.st = .active → 8 ≤ bs.length → bs.length ≤ 256 →
      ∀ p, s.pages.find? (fun p => p.st == .resident && p.tier == .hbm && p.pin != 0 && decide (p.frame ≤ pa) && decide (pa + bs.length ≤ p.frame + p.bytes)) = some p →
      s.dieUp (homeOfPa pa) = true → s.pathUp (dieOfGroup g.toNat) (homeOfPa pa) = true →
      (s.slateStops p.part = true → exec (.ualinkRequestIn g pa n (some bs)) s = .next (waits (.cut p.part) (.ualink g.toNat pa n (some bs)))) ∧
      (s.slateStops p.part = false → s.stackHolds pa = true →
        exec (.ualinkRequestIn g pa n (some bs)) s = .next (waits (.stack (pa / 2 ^ 36 % 8)) (.ualink g.toNat pa n (some bs)))) ∧
      (s.slateStops p.part = false → s.stackHolds pa = false →
        gives (.ualinkRequestIn g pa n (some bs)) (fun u => stored u pa) ∧ gives (.ualinkRequestIn g pa bs.length none) (fun u => u.mem = s.mem))) ∧
    (s.stackServes pa = true → s.stackHolds pa = false) ∧
    (pa < hbmTop → s.stackServes pa = false → s.controllerReady (pa / 2 ^ 36 % 8) = false → s.stackHolds pa = true) ∧
    (pa + bs.length ≤ hbmTop → (∀ r ∈ slateRegion, pa + bs.length ≤ r.1 ∨ r.1 + r.2 ≤ pa) → s.islandUp 0 = true → s.dieUp (homeOfPa pa) = true → s.pathUp 0 (homeOfPa pa) = true →
      if s.stackHolds pa = false then gives (.hostMemAccess pa n (some bs)) (fun u => stored u pa) ∧ gives (.hostMemAccess pa bs.length none) (fun u => u.mem = s.mem)
      else exec (.hostMemAccess pa n (some bs)) s = .next (waits (.stack (pa / 2 ^ 36 % 8)) (.host pa n (some bs)))) ∧
    (x.pers = .uet → x.st = .active → ∀ base len attr last va part, s.exportOf key = some (base, len, attr, last) → va = base.toNat + off → part = attr.extractLsb' 0 6 →
      off + bs.length ≤ len.toNat → attr.getLsbD 9 = true → cut va bs.length = [(va, bs.length)] → (∃ p, s.pageAt part va = some p ∧ p.st = .resident ∧ p.pin ≠ 0) →
      s.translateFor part (dieOfGroup g.toNat) .write true va = .ok (.mem pa) →
      gives (.remoteRmaIn g key off n (some bs)) (fun u => stored u pa)) ∧
    (x.st = .active → x.pers = .uet → s.exportOf key = none → exec (.remoteRmaIn g key off n (some bs)) s = .next s) ∧
    (x.busy = true → exec (.remoteRmaIn g key off n (some bs)) s = .next (waits (.group g.toNat) (.rma g.toNat key off n (some bs)))) ∧
    (x.st = .down ∨ x.st = .failed ∨ (x.st = .active ∧ x.pers ≠ .uet) → exec (.remoteRmaIn g key off n (some bs)) s = .next (s.countIsland (dieOfGroup g.toNat))) ∧
    (pc < 96 → s.controllerReady k = true → 152 * y.next ≤ s.cycles k →
      (st.sr ≠ .normal → gives (.refreshDue z pc progress busy) (fun u => (u.pcAt k pc).next = y.next + 1 ∧ (u.pcAt k pc).performed = y.performed)) ∧
      (st.sr = .normal → y.allbank = true → gives (.refreshDue z pc progress busy) (fun u => u.pcAt k pc = { y with next := y.next + 1 })) ∧
      (st.sr = .normal → y.allbank = false → y.occupied (y.next % 32) = true → gives (.refreshDue z pc progress busy) (fun u =>
        u.pcAt k pc = { y with next := y.next + 1, running := y.running.map (fun r => if r.bank = y.next % 32 then { r with queued := r.queued + 1 } else r) })) ∧
      (st.sr = .normal → y.allbank = false → y.occupied (y.next % 32) = false →
        (bankGroup (y.next % 32) ∉ s.criticalGroups k pc ∨ (progress = false ∧ busy = false) → gives (.refreshDue z pc progress busy) (fun u =>
          (u.pcAt k pc).performed = (if progress = true then y.performed else y.performed + 1) ∧ (u.pcAt k pc).next = y.next + 1 ∧ (u.pcAt k pc).occupied (y.next % 32) = true)) ∧
        (bankGroup (y.next % 32) ∈ s.criticalGroups k pc → progress = true ∨ busy = true → gives (.refreshDue z pc progress busy) (fun u =>
          if y.owed.length < 8 then (u.pcAt k pc).owed = y.owed ++ [y.next % 32] ∧ (u.pcAt k pc).postponed = y.postponed + 1
          else (u.pcAt k pc).allbank = true ∧ (u.pcAt k pc).forced = y.forced + 1)))) ∧
    (∀ r, y.running.find? (fun r => r.bank == bank.toNat && !r.waiting) = some r → r.since + 188 ≤ s.cycle → gives (.refreshEnd z pc bank) (fun u =>
      if r.queued = 0 then (u.pcAt k pc).occupied bank.toNat = false ∧ (u.pcAt k pc).performed = y.performed else (u.pcAt k pc).performed = y.performed + 1)) ∧
    (∀ r, y.running.find? (fun r => r.bank == bank.toNat && r.waiting) = some r → gives (.perBankRefreshStart z pc bank) (fun u =>
      (u.pcAt k pc).performed = y.performed + 1 ∧ ∀ r ∈ (u.pcAt k pc).running, r.bank = bank.toNat → r.waiting = false)) ∧
    (y.allbank = false → st.sr = .normal → (∀ r ∈ y.running, r.payback = false) →
      ∀ b, (y.owed.filter (fun b => idle.getLsbD (bankGroup b) && !y.occupied b)).min? = some b → gives (.paybackStart z pc idle) (fun u =>
        (u.pcAt k pc).owed = y.owed.erase b ∧ (u.pcAt k pc).performed = y.performed + 1 ∧ (u.pcAt k pc).occupied b = true)) ∧
    (y.allbank = true → y.allbankOn = false → y.running = [] → gives (.allbankStart z pc) (fun u => (u.pcAt k pc).allbankOn = true ∧ (u.pcAt k pc).abSince = s.cycle)) ∧
    (y.allbankOn = true → y.abSince + 438 ≤ s.cycle → gives (.allbankEnd z pc) (fun u => (u.pcAt k pc).allbank = false ∧ (u.pcAt k pc).owed = [])) ∧
    (∀ h, s.core.handle = some h → ∃ m, counted h m ∧ s.passTime.core.m.lat = s.core.m.lat + BitVec.ofNat 64 m) ∧
    (∀ c ∈ s.ctxs, ∃ v ∈ s.passTime.ctxs, ∃ m, counted c.handle m ∧ v.handle = c.handle ∧
      v.members.map (·.lat) = c.members.map (fun w => w.lat + BitVec.ofNat 64 m)) ∧
    gives (.criticalTempAssert z) (fun u => (u.stackAt k).critical = true ∧ (st.sr = .normal → (u.stackAt k).sr = .entering)) ∧
    (st.sr = .entering → (∀ r ∈ s.pcs, r.stack = k → r.allbank = false ∧ r.running = []) → gives (.selfrefEnter z) (fun u => (u.stackAt k).sr = .held)) ∧
    (st.critical = true → gives (.criticalTempDeassert z) (fun u => (u.stackAt k).critical = false ∧ (u.stackAt k).deassertedAt = s.ptc)) ∧
    (st.sr = .held → st.critical = false → 10000000 ≤ (s.ptc - st.deassertedAt).toNat → gives (.selfrefExitStart z) (fun u => (u.stackAt k).sr = .leaving)) ∧
    (st.sr = .leaving → st.leftAt + 4000 ≤ s.cycle → s.heldReqs = [] → gives (.exitComplete z) (fun u => (u.stackAt k).sr = .normal ∧ (u.pcAt k pc).owed = [] ∧
      s.cycles k ≤ 152 * (u.pcAt k pc).next))

/-- R402, R403, R405 to R411, R413, R414, R417, R427: the error watch, the course of a cut and its commit record, and the end of a restore. An
uncorrectable error that comes spoils a unit (log 59), the slots and records of a target are kept beside the package at their addresses, and the
record's CRC is the reflected one (log 45). A request with ENROLL or TARGET zero starts no cut, and a cut that finds an engine not ready fails (log
86). A context that is stopped with an accepted write that waits for its stack is held there (log 74). -/
def Obligations.SlateEventsTakeEffect : Prop :=
  ∀ (k : Fin 3) (g : BitVec 4) (unit : Nat × Nat) (h : BitVec 32) (c : Ctx) (cause : Fin 3) (y : Snapshot) (s : State),
    let gives (i : Instr) (f : State → Prop) : Prop := ∃ u, exec i s = .next u ∧ f u
    let x := s.slate
    let win : Nat := if x.cfg[3] = 0 then 1000000000 else x.cfg[3].toNat
    let failed (n : BitVec 4) (m : Memory) (u : State) : Prop := s.heldReqs = [] → x.pend = false →
      u.mem = m ∧ u.slate.st = .idle ∧ u.slate.failed = true ∧ u.slate.gen = 0 ∧ u.slate.staging = none ∧ u.slate.cause = n
    gives (.errorCorrected k g (some unit)) (fun u => u = { s with bad := unit :: s.bad }) ∧
    (x.cfg[6].getLsbD 0 = false → gives (.errorCorrected k g none) (fun u => u.slate = { x with counters := x.counters.set k.val (x.counters[k] + 1) k.isLt } ∧ u.mem = s.mem)) ∧
    (x.cfg[6].getLsbD 0 = true → gives (.errorCorrected k g none) (fun u => u.slate.counters = x.counters.set k.val (x.counters[k] + 1) k.isLt ∧
      (s.heldReqs = [] → u.mem = s.mem) ∧
      let th := x.cfg[(⟨k.val, by omega⟩ : Fin 7)]
      if th = 0 ∨ x.counters[k] + 1 ≠ th then u.slate = { x with counters := u.slate.counters }
      else if x.st = .idle then
        if x.cfg[4] = 0 ∨ x.cfg[5] = 0 then u.slate = { x with counters := u.slate.counters }
        else u.slate.lastGen = x.lastGen + 1 ∧ u.slate.pend = false ∧ u.slate.startedAt = s.ptc ∧
          (u.slate.st = .stopping ∧ u.slate.gen = x.lastGen + 1 ∧ u.slate.man = x.cfg[6].getLsbD 1 ∨ u.slate.st = .idle ∧ u.slate.failed = true)
      else if x.st = .restoring ∨ x.pend = true then u.slate = { x with counters := u.slate.counters }
      else u.slate = { x with counters := u.slate.counters, pend := true, pendAt := s.ptc })) ∧
    (win ≤ (s.ptc - x.winAt).toNat → gives .watchWindowExpire (fun u => u.slate.counters = Vector.replicate 3 0 ∧ u.slate.winAt = x.winAt + BitVec.ofNat 64 win ∧ u.mem = s.mem)) ∧
    (x.st = .idle → x.pend = true → s.heldReqs = [] → gives .cutStart (fun u => u.slate.pend = false ∧ u.mem = s.mem ∧
      if x.cfg[4] = 0 ∨ x.cfg[5] = 0 then u.slate.st = .idle ∧ u.slate.lastGen = x.lastGen
      else u.slate.lastGen = x.lastGen + 1 ∧ (u.slate.st = .stopping ∧ u.slate.gen = x.lastGen + 1 ∧ u.slate.startedAt = x.pendAt ∧
          (∃ t, u.slate.tgt = some t ∧ u.slate.recordAt t u.slate.z (slotOf (x.lastGen + 1)) = List.replicate 64 0) ∨ u.slate.st = .idle ∧ u.slate.failed = true))) ∧
    (s.findCtx h = some c → x.st = .stopping → x.cfg[4].getLsbD c.part.toNat = true → c.st = .running → 1000000 ≤ (s.ptc - x.cutAt).toNat →
      gives (.stopTimeout h) (fun u => ∃ v, u.findCtx h = some v ∧
        (v.st = .ready ∨ v.st = .frozen ∧ v.ret = .ready ∧ (u.postedBy h).isSome = true))) ∧
    (x.st = .stopping → (∀ v ∈ s.ctxs, v.st = .running → x.cfg[4].getLsbD v.part.toNat = false) → (∀ m ∈ s.moves, m.started = true → x.cfg[4].getLsbD m.part.toNat = false) →
      s.postedLeft x.cfg[4] = false → gives .stopDone (fun u =>
        let t := s.settleAll
        let units := t.dirtyUnits x.cfg[4] (slotOf x.gen)
        if t.sourceBad x.cfg[4] units = true then failed 2 t.mem u
        else u.slate.st = .copying ∧ u.slate.cutPtc = s.ptc ∧ u.slate.staging = some t.snapshot ∧ u.slate.copied = units ∧ u.mem = t.mem)) ∧
    (x.st = .copying → s.slateCopies = true → gives .copyDone (fun u => (s.heldReqs = [] → u.slate.st = .draining ∧ u.slate.ticks = s.ptc - x.startedAt ∧
      u.slate.bytes = BitVec.ofNat 64 s.stagingBytes ∧ u.mem = s.mem))) ∧
    (∀ t content, x.st = .draining → s.slateCopies = true → x.tgt = some t → x.staging = some content → gives .drainDone (fun u =>
      let n := slotOf x.gen
      let slot := s.drainInto (x.slotAt t x.z n) content x.copied
      let r := u.slate.recordAt t x.z n
      (x.man = true → u.slate.slotAt t x.z n = some slot ∧ u.mem = s.mem ∧ u.slate.st = .drained ∧ r = x.recordAt t x.z n) ∧
      (x.man = false → s.targetUp t = true → x.pend = false → u.slate.slotAt t x.z n = some slot ∧ u.mem = s.mem ∧ u.slate.st = .idle ∧
        u.slate.failed = false ∧ recWord r 0 = x.gen ∧ recWord r 1 = x.cutPtc ∧ recWord r 2 = x.z ∧ (x.gen ≠ 0 → recValid r = true)) ∧
      (x.man = false → s.targetUp t = false → failed 3 s.mem u))) ∧
    (x.st = .stopping ∨ x.st = .copying ∨ x.st = .draining → gives (.cutFailure cause) (failed (if cause = 0 then 2 else if cause = 1 then 3 else 5) s.mem)) ∧
    (x.st = .drained ∨ x.st = .idle ∨ x.st = .restoring → exec (.cutFailure cause) s = .next s) ∧
    (∀ t, x.st = .restoring → s.slateCopies = true → x.tgt = some t → x.slotAt t x.z (slotOf x.restoring) = some y →
      gives .restoreDone (fun u => u.slate.st = .idle ∧ u.slate.restored = some 0 ∧ u.vaultOwner = y.vaultOwner ∧ u.mem = s.writeAreas y ∧
        u.slate.dirty = [] ∧ u.slate.allDirty = (if slotOf x.restoring = 0 then 2 else 1) ∧ u.slate.home = some (t.pod, t.base, x.z) ∧
        (∀ e ∈ u.queues, y.enroll.getLsbD e.2.part.toNat = true → e.2.en = false) ∧
        ((y.ctxs.map Ctx.handle).Nodup → (∀ c ∈ y.ctxs, c.st ≠ .free ∧ (c.st = .frozen → c.ret ≠ .free)) →
          ∀ c ∈ y.ctxs, ∃ v, u.findCtx c.handle = some v ∧ v.part = c.part ∧ v.holds = [] ∧ v.st = (if c.st = .frozen then c.ret else c.st) ∧
            v.members = (c.ofRecord (s.slotContexts y)).members))) ∧
    (x.st = .restoring → gives .restoreFailure (fun u => u = { s with slate := { x with st := .idle, restored := some 2 } }))
end

