-- ==== Sys2Proof/Laws/Codes.lean ====
section
/-!
SUPPORT. Each code of a field names what it is the code of: the small lemmas of the enumerations, for the round trips of the
encoding.
-/

namespace Sys2Proof

/-- The code of a Fmt names it. -/
@[simp] theorem Fmt.ofCode_code (e : Fmt) : Fmt.ofCode e.code = some e := by cases e <;> rfl

/-- Two Fmt have one code only when they are one. -/
theorem Fmt.code_inj (x y : Fmt) (h : x.code = y.code) : x = y := by
  simpa using congrArg Fmt.ofCode h

/-- The code of a Csr names it. -/
@[simp] theorem Csr.ofCode_code (e : Csr) : Csr.ofCode e.code = some e := by cases e <;> rfl

/-- Two Csr have one code only when they are one. -/
theorem Csr.code_inj (x y : Csr) (h : x.code = y.code) : x = y := by
  simpa using congrArg Csr.ofCode h

/-- The code of a Rm names it. -/
@[simp] theorem Rm.ofCode_code (e : Rm) : Rm.ofCode e.code = e := by cases e <;> rfl

/-- The code of a Scope names it. -/
@[simp] theorem Scope.ofCode_code (e : Scope) : Scope.ofCode e.code = e := by cases e <;> rfl

/-- The code of a Space names it. -/
@[simp] theorem Space.ofCode_code (e : Space) : Space.ofCode e.code = e := by cases e <;> rfl

/-- The code of a Owner names it. -/
@[simp] theorem Owner.ofCode_code (e : Owner) : Owner.ofCode e.code = e := by cases e <;> rfl

/-- The code of a ArithVar names it. -/
@[simp] theorem ArithVar.ofCode_code (e : ArithVar) : ArithVar.ofCode e.code = e := by cases e <;> rfl

/-- The code of a MulhVar names it. -/
@[simp] theorem MulhVar.ofCode_code (e : MulhVar) : MulhVar.ofCode e.code = e := by cases e <;> rfl

/-- The code of a DivVar names it. -/
@[simp] theorem DivVar.ofCode_code (e : DivVar) : DivVar.ofCode e.code = e := by cases e <;> rfl

/-- The code of a WidthVar names it. -/
@[simp] theorem WidthVar.ofCode_code (e : WidthVar) : WidthVar.ofCode e.code = e := by cases e <;> rfl

/-- The code of a SignVar names it. -/
@[simp] theorem SignVar.ofCode_code (e : SignVar) : SignVar.ofCode e.code = e := by cases e <;> rfl

/-- The code of a MoviVar names it. -/
@[simp] theorem MoviVar.ofCode_code (e : MoviVar) : MoviVar.ofCode e.code = e := by cases e <;> rfl

/-- The code of a Cond names it. -/
@[simp] theorem Cond.ofCode_code (e : Cond) : Cond.ofCode e.code = e := by cases e <;> rfl

/-- The code of a LdW names it. -/
@[simp] theorem LdW.ofCode_code (e : LdW) : LdW.ofCode e.code = e := by cases e <;> rfl

/-- The code of a StW names it. -/
@[simp] theorem StW.ofCode_code (e : StW) : StW.ofCode e.code = e := by cases e <;> rfl

/-- The code of a VCond names it. -/
@[simp] theorem VCond.ofCode_code (e : VCond) : VCond.ofCode e.code = e := by cases e <;> rfl

/-- The code of a Order names it. -/
@[simp] theorem Order.ofCode_code (e : Order) : Order.ofCode e.code = e := by cases e <;> rfl

/-- The code of a WCond names it. -/
@[simp] theorem WCond.ofCode_code (e : WCond) : WCond.ofCode e.code = e := by cases e <;> rfl

/-- The code of a Pers names it. -/
@[simp] theorem Pers.ofCode_code (e : Pers) : Pers.ofCode e.code = e := by cases e <;> rfl

/-- A vector operand's code names it. -/
@[simp] theorem VOp.ofCode_code (e : VOp) : VOp.ofCode e.code = e := by
  cases e with
  | reg r => revert r; decide
  | queue q => revert q; decide

end Sys2Proof
end

