-- ==== Sys2Proof/Laws/Memory.lean ====
section
/-!
SUPPORT. Laws of the memory operations: what a read gives after each of them, and that each keeps the canonical form.
-/

namespace Sys2Proof.Machine

open Sys2Proof

/-! The canonical form. -/

/-- The canonical form, as two facts. -/
theorem wf_iff (m : Memory) : m.wf = true ↔ m.Pairwise (fun c d => c.1 < d.1) ∧ ∀ c ∈ m, c.2 ≠ 0 := by
  simp [Memory.wf]

/-- A part of a canonical memory is canonical. -/
theorem wf_filter (m : Memory) (p : Host.Cell → Bool) (h : m.wf = true) : Memory.wf (m.filter p) = true := by
  rw [wf_iff] at *
  exact ⟨h.1.filter _, fun c hc => h.2 c (List.mem_of_mem_filter hc)⟩

/-- The cells of a fresh run lie in it, and none is zero. -/
theorem freshCells_mem (bs : List Byte) : ∀ (a : Nat) (c : Host.Cell), c ∈ freshCells a bs → a ≤ c.1 ∧ c.1 < a + bs.length ∧ c.2 ≠ 0 := by
  induction bs with
  | nil => intro a c h; simp [freshCells] at h
  | cons b bs ih =>
    intro a c h
    simp only [freshCells] at h
    split at h
    · have := ih _ _ h
      exact ⟨by omega, by simp only [List.length_cons]; omega, this.2.2⟩
    · rcases List.mem_cons.1 h with rfl | h
      · exact ⟨Nat.le_refl _, by simp, by assumption⟩
      · have := ih _ _ h
        exact ⟨by omega, by simp only [List.length_cons]; omega, this.2.2⟩

/-- A fresh run is canonical. -/
theorem wf_freshCells (bs : List Byte) (a : Nat) : Memory.wf (freshCells a bs) = true := by
  rw [wf_iff]
  refine ⟨?_, fun c h => (freshCells_mem bs a c h).2.2⟩
  induction bs generalizing a with
  | nil => simp [freshCells]
  | cons b bs ih =>
    simp only [freshCells]
    split
    · exact ih _
    · exact List.pairwise_cons.2 ⟨fun c h => by have := freshCells_mem bs _ c h; omega, ih _⟩

/-- A splice keeps the canonical form. -/
theorem wf_splice (m : Memory) (a : Nat) (bs : List Byte) (h : m.wf = true) : (m.splice a bs).wf = true := by
  have hf := (wf_iff _).1 (wf_freshCells bs a)
  rw [wf_iff] at *
  simp only [Memory.splice]
  refine ⟨?_, ?_⟩
  · refine List.pairwise_append.2 ⟨List.pairwise_append.2 ⟨h.1.filter _, hf.1, ?_⟩, h.1.filter _, ?_⟩
    · intro c hc d hd
      have h1 := (List.mem_filter.1 hc).2
      have h2 := freshCells_mem bs a d hd
      simp at h1; omega
    · intro c hc d hd
      have h2 := (List.mem_filter.1 hd).2
      simp at h2
      rcases List.mem_append.1 hc with hc | hc
      · have h1 := (List.mem_filter.1 hc).2
        simp at h1; omega
      · have h1 := freshCells_mem bs a c hc
        omega
  · intro c hc
    rcases List.mem_append.1 hc with hc | hc
    · rcases List.mem_append.1 hc with hc | hc
      · exact h.2 c (List.mem_of_mem_filter hc)
      · exact (freshCells_mem bs a c hc).2.2
    · exact h.2 c (List.mem_of_mem_filter hc)

/-- A write of one byte keeps the canonical form. -/
theorem wf_write (m : Memory) (a : Nat) (b : Byte) (h : m.wf = true) : (m.write a b).wf = true := wf_splice m a [b] h

/-- Zeroing a run keeps the canonical form. -/
theorem wf_clear (m : Memory) (a n : Nat) (h : m.wf = true) : (m.clear a n).wf = true := wf_filter m _ h

/-- The cells that `rising` keeps: from the least address on, none zero. -/
theorem rising_mem (m : Memory) : ∀ (lo : Nat) (c : Host.Cell), c ∈ Memory.rising lo m → lo ≤ c.1 ∧ c.2 ≠ 0 ∧ c ∈ m := by
  induction m with
  | nil => intro lo c h; simp [Memory.rising] at h
  | cons d m ih =>
    intro lo c h
    simp only [Memory.rising] at h
    split at h
    · rename_i hd
      simp at hd
      rcases List.mem_cons.1 h with rfl | h
      · exact ⟨hd.1, hd.2, List.mem_cons_self ..⟩
      · have := ih _ _ h
        exact ⟨by omega, this.2.1, List.mem_cons_of_mem _ this.2.2⟩
    · have := ih _ _ h
      exact ⟨this.1, this.2.1, List.mem_cons_of_mem _ this.2.2⟩

/-- What `rising` keeps is canonical. -/
theorem wf_rising (m : Memory) (lo : Nat) : Memory.wf (Memory.rising lo m) = true := by
  rw [wf_iff]
  refine ⟨?_, fun c h => (rising_mem m lo c h).2.1⟩
  induction m generalizing lo with
  | nil => simp [Memory.rising]
  | cons d m ih =>
    simp only [Memory.rising]
    split
    · exact List.pairwise_cons.2 ⟨fun c h => by have := rising_mem m _ c h; omega, ih _⟩
    · exact ih _

/-- Placing cells keeps the canonical form. -/
theorem wf_place (m : Memory) (a n : Nat) (cs : Memory) (h : m.wf = true) : (m.place a n cs).wf = true := by
  have hin : ∀ c ∈ Memory.rising a ((cs.filter (fun c => decide (c.1 < n))).map (fun c => (a + c.1, c.2))), a ≤ c.1 ∧ c.1 < a + n ∧ c.2 ≠ 0 := by
    intro c hc
    have h1 := rising_mem _ _ c hc
    obtain ⟨d, hd, rfl⟩ := List.mem_map.1 h1.2.2
    have := (List.mem_filter.1 hd).2
    simp at this
    exact ⟨h1.1, by simp; omega, h1.2.1⟩
  have hr := (wf_iff _).1 (wf_rising ((cs.filter (fun c => decide (c.1 < n))).map (fun c => (a + c.1, c.2))) a)
  rw [wf_iff] at *
  simp only [Memory.place]
  refine ⟨?_, ?_⟩
  · refine List.pairwise_append.2 ⟨List.pairwise_append.2 ⟨h.1.filter _, hr.1, ?_⟩, h.1.filter _, ?_⟩
    · intro c hc d hd
      have h1 := (List.mem_filter.1 hc).2
      have h2 := hin d hd
      simp at h1; omega
    · intro c hc d hd
      have h2 := (List.mem_filter.1 hd).2
      simp at h2
      rcases List.mem_append.1 hc with hc | hc
      · have h1 := (List.mem_filter.1 hc).2
        simp at h1; omega
      · have h1 := hin c hc
        omega
  · intro c hc
    rcases List.mem_append.1 hc with hc | hc
    · rcases List.mem_append.1 hc with hc | hc
      · exact h.2 c (List.mem_of_mem_filter hc)
      · exact (hin c hc).2.2
    · exact h.2 c (List.mem_of_mem_filter hc)

/-! What a read gives. -/

/-- No byte is listed: it reads zero. -/
@[simp] theorem read_nil (a : Nat) : Memory.read [] a = 0 := rfl

/-- A read looks past cells at other addresses. -/
theorem read_append (m k : Memory) (a : Nat) : (∀ c ∈ m, c.1 ≠ a) → Memory.read (m ++ k) a = Memory.read k a := by
  induction m with
  | nil => simp
  | cons c m ih =>
    intro h
    have h1 := h c (List.mem_cons_self ..)
    simp only [List.cons_append, Memory.read, h1, if_false]
    exact ih (fun d hd => h d (List.mem_cons_of_mem _ hd))

/-- A read ends in the first part where it lists the address. -/
theorem read_append_left (m k : Memory) (a : Nat) : (∃ c ∈ m, c.1 = a) → Memory.read (m ++ k) a = Memory.read m a := by
  induction m with
  | nil => simp
  | cons c m ih =>
    rintro ⟨d, hd, h⟩
    by_cases hc : c.1 = a
    · simp [Memory.read, hc]
    · simp only [List.cons_append, Memory.read, hc, if_false]
      rcases List.mem_cons.1 hd with rfl | hd
      · exact absurd h hc
      · exact ih ⟨d, hd, h⟩

/-- An address that no cell lists reads zero. -/
theorem read_absent (m : Memory) (a : Nat) (h : ∀ c ∈ m, c.1 ≠ a) : Memory.read m a = 0 := by
  simpa using read_append m [] a h

/-- A filter that keeps the cells of an address does not change what it reads. -/
theorem read_filter (m : Memory) (p : Host.Cell → Bool) (a : Nat) (h : ∀ c ∈ m, c.1 = a → p c = true) :
    Memory.read (m.filter p) a = Memory.read m a := by
  induction m with
  | nil => rfl
  | cons c m ih =>
    have ih := ih (fun d hd => h d (List.mem_cons_of_mem _ hd))
    by_cases hc : c.1 = a
    · simp [h c (List.mem_cons_self ..) hc, Memory.read, hc]
    · simp only [List.filter_cons, Memory.read, hc, if_false]
      split
      · simp [Memory.read, hc, ih]
      · exact ih

/-- A fresh run reads as its bytes. -/
theorem read_freshCells (bs : List Byte) : ∀ (a k : Nat), k < bs.length → Memory.read (freshCells a bs) (a + k) = bs.getD k 0 := by
  induction bs with
  | nil => intro a k h; simp at h
  | cons b bs ih =>
    intro a k h
    cases k with
    | zero =>
      simp only [freshCells]
      split
      · rename_i hb
        subst hb
        simpa using read_absent _ _ (fun c hc => by have := freshCells_mem bs _ c hc; omega)
      · simp [Memory.read]
    | succ k =>
      have h' : k < bs.length := by simpa using h
      have e : a + (k + 1) = a + 1 + k := by omega
      simp only [freshCells]
      split
      · rw [e, ih _ _ h']; rfl
      · rw [Memory.read, if_neg (by simp), e, ih _ _ h']; rfl

/-- After a splice, the bytes of the run read as they were written. -/
theorem read_splice_in (m : Memory) (a k : Nat) (bs : List Byte) (h : k < bs.length) : (m.splice a bs).read (a + k) = bs.getD k 0 := by
  simp only [Memory.splice, List.append_assoc]
  rw [read_append _ _ _ (fun c hc => by have := (List.mem_filter.1 hc).2; simp at this; omega)]
  by_cases hc : ∃ c ∈ freshCells a bs, c.1 = a + k
  · rw [read_append_left _ _ _ hc, read_freshCells bs a k h]
  · have hn : ∀ c ∈ freshCells a bs, c.1 ≠ a + k := fun c hm he => hc ⟨c, hm, he⟩
    rw [read_append _ _ _ hn, ← read_freshCells bs a k h, read_absent _ _ hn]
    exact read_absent _ _ (fun c hm => by have := (List.mem_filter.1 hm).2; simp at this; omega)

/-- After a splice, every byte outside the run reads as before. -/
theorem read_splice_out (m : Memory) (a x : Nat) (bs : List Byte) (h : x < a ∨ a + bs.length ≤ x) : (m.splice a bs).read x = m.read x := by
  simp only [Memory.splice, List.append_assoc]
  have hf : ∀ c ∈ freshCells a bs, c.1 ≠ x := fun c hc => by have := freshCells_mem bs a c hc; omega
  rcases h with h | h
  · by_cases hc : ∃ c ∈ m.filter (fun c => decide (c.1 < a)), c.1 = x
    · rw [read_append_left _ _ _ hc]
      exact read_filter _ _ _ (fun c _ he => by simp; omega)
    · have hn : ∀ c ∈ m.filter (fun c => decide (c.1 < a)), c.1 ≠ x := fun c hm he => hc ⟨c, hm, he⟩
      rw [read_append _ _ _ hn, read_append _ _ _ hf, read_absent _ _ (fun c hm => by have := (List.mem_filter.1 hm).2; simp at this; omega)]
      exact (read_absent _ _ (fun c hm he => hn c (List.mem_filter.2 ⟨hm, by simp; omega⟩) he)).symm
  · rw [read_append _ _ _ (fun c hm => by have := (List.mem_filter.1 hm).2; simp at this; omega), read_append _ _ _ hf]
    exact read_filter _ _ _ (fun c _ he => by simp; omega)

/-- The bytes of a run are what reads give. -/
theorem bytes_eq (m : Memory) (a n : Nat) : m.bytes a n = (List.range n).map (fun i => m.read (a + i)) := by
  simp only [Memory.bytes]
  refine List.map_congr_left (fun i hi => ?_)
  have := List.mem_range.1 hi
  exact read_filter _ _ _ (fun c _ he => by simp; omega)

/-- A run of `n` bytes has `n` bytes. -/
@[simp] theorem bytes_length (m : Memory) (a n : Nat) : (m.bytes a n).length = n := by simp [Memory.bytes]

/-- A zeroed run reads zero, and the rest as before. -/
theorem read_clear (m : Memory) (a n x : Nat) : (m.clear a n).read x = if a ≤ x ∧ x < a + n then 0 else m.read x := by
  simp only [Memory.clear]
  split
  · exact read_absent _ _ (fun c hm => by have := (List.mem_filter.1 hm).2; simp at this; omega)
  · exact read_filter _ _ _ (fun c _ he => by simp; omega)

end Sys2Proof.Machine
end

