-- ==== Sys2Proof/Laws/State.lean ====
section
/-!
SUPPORT. One lemma for each field and each update of the state: what the updates of registers, flags, the program counter and
the standing of an instruction leave as it was, so that no proof unfolds a record update.
-/

namespace Sys2Proof.Machine

open Sys2Proof


/-! setImg. -/

@[simp] theorem setImg_others (s : State) (i : Image) : (s.setImg i).others = s.others := rfl
@[simp] theorem setImg_turns (s : State) (i : Image) : (s.setImg i).turns = s.turns := rfl
@[simp] theorem setImg_events (s : State) (i : Image) : (s.setImg i).events = s.events := rfl
@[simp] theorem setImg_fresh (s : State) (i : Image) : (s.setImg i).fresh = s.fresh := rfl
@[simp] theorem setImg_ptc (s : State) (i : Image) : (s.setImg i).ptc = s.ptc := rfl
@[simp] theorem setImg_clock (s : State) (i : Image) : (s.setImg i).clock = s.clock := rfl
@[simp] theorem setImg_mem (s : State) (i : Image) : (s.setImg i).mem = s.mem := rfl
@[simp] theorem setImg_bad (s : State) (i : Image) : (s.setImg i).bad = s.bad := rfl
@[simp] theorem setImg_sent (s : State) (i : Image) : (s.setImg i).sent = s.sent := rfl
@[simp] theorem setImg_vaultOwner (s : State) (i : Image) : (s.setImg i).vaultOwner = s.vaultOwner := rfl
@[simp] theorem setImg_frames (s : State) (i : Image) : (s.setImg i).frames = s.frames := rfl
@[simp] theorem setImg_blocks (s : State) (i : Image) : (s.setImg i).blocks = s.blocks := rfl
@[simp] theorem setImg_pages (s : State) (i : Image) : (s.setImg i).pages = s.pages := rfl
@[simp] theorem setImg_regions (s : State) (i : Image) : (s.setImg i).regions = s.regions := rfl
@[simp] theorem setImg_moves (s : State) (i : Image) : (s.setImg i).moves = s.moves := rfl
@[simp] theorem setImg_ctxs (s : State) (i : Image) : (s.setImg i).ctxs = s.ctxs := rfl
@[simp] theorem setImg_rr (s : State) (i : Image) : (s.setImg i).rr = s.rr := rfl
@[simp] theorem setImg_queues (s : State) (i : Image) : (s.setImg i).queues = s.queues := rfl
@[simp] theorem setImg_outstanding (s : State) (i : Image) : (s.setImg i).outstanding = s.outstanding := rfl
@[simp] theorem setImg_completions (s : State) (i : Image) : (s.setImg i).completions = s.completions := rfl
@[simp] theorem setImg_graphs (s : State) (i : Image) : (s.setImg i).graphs = s.graphs := rfl
@[simp] theorem setImg_seqno (s : State) (i : Image) : (s.setImg i).seqno = s.seqno := rfl
@[simp] theorem setImg_irqs (s : State) (i : Image) : (s.setImg i).irqs = s.irqs := rfl
@[simp] theorem setImg_parts (s : State) (i : Image) : (s.setImg i).parts = s.parts := rfl
@[simp] theorem setImg_qos (s : State) (i : Image) : (s.setImg i).qos = s.qos := rfl
@[simp] theorem setImg_arbs (s : State) (i : Image) : (s.setImg i).arbs = s.arbs := rfl
@[simp] theorem setImg_channels (s : State) (i : Image) : (s.setImg i).channels = s.channels := rfl
@[simp] theorem setImg_dies (s : State) (i : Image) : (s.setImg i).dies = s.dies := rfl
@[simp] theorem setImg_islands (s : State) (i : Image) : (s.setImg i).islands = s.islands := rfl
@[simp] theorem setImg_bup (s : State) (i : Image) : (s.setImg i).bup = s.bup := rfl
@[simp] theorem setImg_groups (s : State) (i : Image) : (s.setImg i).groups = s.groups := rfl
@[simp] theorem setImg_ready (s : State) (i : Image) : (s.setImg i).ready = s.ready := rfl
@[simp] theorem setImg_podid (s : State) (i : Image) : (s.setImg i).podid = s.podid := rfl
@[simp] theorem setImg_podv (s : State) (i : Image) : (s.setImg i).podv = s.podv := rfl
@[simp] theorem setImg_podSlow (s : State) (i : Image) : (s.setImg i).podSlow = s.podSlow := rfl
@[simp] theorem setImg_pcap (s : State) (i : Image) : (s.setImg i).pcap = s.pcap := rfl
@[simp] theorem setImg_exports (s : State) (i : Image) : (s.setImg i).exports = s.exports := rfl
@[simp] theorem setImg_heldReqs (s : State) (i : Image) : (s.setImg i).heldReqs = s.heldReqs := rfl
@[simp] theorem setImg_hbmStacks (s : State) (i : Image) : (s.setImg i).hbmStacks = s.hbmStacks := rfl
@[simp] theorem setImg_pcs (s : State) (i : Image) : (s.setImg i).pcs = s.pcs := rfl
@[simp] theorem setImg_marks (s : State) (i : Image) : (s.setImg i).marks = s.marks := rfl
@[simp] theorem setImg_slate (s : State) (i : Image) : (s.setImg i).slate = s.slate := rfl
@[simp] theorem setImg_core_id (s : State) (i : Image) : (s.setImg i).core.id = s.core.id := rfl
@[simp] theorem setImg_core_part (s : State) (i : Image) : (s.setImg i).core.part = s.core.part := rfl
@[simp] theorem setImg_core_slot (s : State) (i : Image) : (s.setImg i).core.slot = s.core.slot := rfl
@[simp] theorem setImg_core_handle (s : State) (i : Image) : (s.setImg i).core.handle = s.core.handle := rfl
@[simp] theorem setImg_core_gidx (s : State) (i : Image) : (s.setImg i).core.gidx = s.core.gidx := rfl
@[simp] theorem setImg_core_gang (s : State) (i : Image) : (s.setImg i).core.gang = s.core.gang := rfl
@[simp] theorem setImg_core_frec (s : State) (i : Image) : (s.setImg i).core.frec = s.core.frec := rfl
@[simp] theorem setImg_core_wbuf (s : State) (i : Image) : (s.setImg i).core.wbuf = s.core.wbuf := rfl
@[simp] theorem setImg_core_wfail (s : State) (i : Image) : (s.setImg i).core.wfail = s.core.wfail := rfl
@[simp] theorem setImg_core_queues (s : State) (i : Image) : (s.setImg i).core.queues = s.core.queues := rfl
@[simp] theorem setImg_core_nsSize (s : State) (i : Image) : (s.setImg i).core.nsSize = s.core.nsSize := rfl
@[simp] theorem setImg_core_nsOwner (s : State) (i : Image) : (s.setImg i).core.nsOwner = s.core.nsOwner := rfl
@[simp] theorem setImg_core_l1 (s : State) (i : Image) : (s.setImg i).core.l1 = s.core.l1 := rfl
@[simp] theorem setImg_core_rep (s : State) (i : Image) : (s.setImg i).core.rep = s.core.rep := rfl
@[simp] theorem setImg_core_standby (s : State) (i : Image) : (s.setImg i).core.standby = s.core.standby := rfl
@[simp] theorem setImg_core_held (s : State) (i : Image) : (s.setImg i).core.held = s.core.held := rfl
@[simp] theorem setImg_core_tlb (s : State) (i : Image) : (s.setImg i).core.tlb = s.core.tlb := rfl
@[simp] theorem setImg_core_cpt (s : State) (i : Image) : (s.setImg i).core.cpt = s.core.cpt := rfl
@[simp] theorem setImg_core_npt (s : State) (i : Image) : (s.setImg i).core.npt = s.core.npt := rfl
@[simp] theorem setImg_core_wtab (s : State) (i : Image) : (s.setImg i).core.wtab = s.core.wtab := rfl
@[simp] theorem setImg_core_link (s : State) (i : Image) : (s.setImg i).core.link = s.core.link := rfl
@[simp] theorem setImg_m_mr (s : State) (i : Image) : (s.setImg i).core.m.mr = s.core.m.mr := rfl
@[simp] theorem setImg_m_lat (s : State) (i : Image) : (s.setImg i).core.m.lat = s.core.m.lat := rfl
@[simp] theorem setImg_m_bar (s : State) (i : Image) : (s.setImg i).core.m.bar = s.core.m.bar := rfl
@[simp] theorem setImg_m_ended (s : State) (i : Image) : (s.setImg i).core.m.ended = s.core.m.ended := rfl
@[simp] theorem setImg_m_owed (s : State) (i : Image) : (s.setImg i).core.m.owed = s.core.m.owed := rfl
@[simp] theorem setImg_m_wait (s : State) (i : Image) : (s.setImg i).core.m.wait = s.core.m.wait := rfl
@[simp] theorem setImg_m_ns (s : State) (i : Image) : (s.setImg i).core.m.ns = s.core.m.ns := rfl

/-! writeS. -/

@[simp] theorem writeS_others (s : State) (d : SReg) (v : Word) : (s.writeS d v).others = s.others := by unfold State.writeS; split <;> rfl
@[simp] theorem writeS_turns (s : State) (d : SReg) (v : Word) : (s.writeS d v).turns = s.turns := by unfold State.writeS; split <;> rfl
@[simp] theorem writeS_events (s : State) (d : SReg) (v : Word) : (s.writeS d v).events = s.events := by unfold State.writeS; split <;> rfl
@[simp] theorem writeS_fresh (s : State) (d : SReg) (v : Word) : (s.writeS d v).fresh = s.fresh := by unfold State.writeS; split <;> rfl
@[simp] theorem writeS_ptc (s : State) (d : SReg) (v : Word) : (s.writeS d v).ptc = s.ptc := by unfold State.writeS; split <;> rfl
@[simp] theorem writeS_clock (s : State) (d : SReg) (v : Word) : (s.writeS d v).clock = s.clock := by unfold State.writeS; split <;> rfl
@[simp] theorem writeS_mem (s : State) (d : SReg) (v : Word) : (s.writeS d v).mem = s.mem := by unfold State.writeS; split <;> rfl
@[simp] theorem writeS_bad (s : State) (d : SReg) (v : Word) : (s.writeS d v).bad = s.bad := by unfold State.writeS; split <;> rfl
@[simp] theorem writeS_sent (s : State) (d : SReg) (v : Word) : (s.writeS d v).sent = s.sent := by unfold State.writeS; split <;> rfl
@[simp] theorem writeS_vaultOwner (s : State) (d : SReg) (v : Word) : (s.writeS d v).vaultOwner = s.vaultOwner := by unfold State.writeS; split <;> rfl
@[simp] theorem writeS_frames (s : State) (d : SReg) (v : Word) : (s.writeS d v).frames = s.frames := by unfold State.writeS; split <;> rfl
@[simp] theorem writeS_blocks (s : State) (d : SReg) (v : Word) : (s.writeS d v).blocks = s.blocks := by unfold State.writeS; split <;> rfl
@[simp] theorem writeS_pages (s : State) (d : SReg) (v : Word) : (s.writeS d v).pages = s.pages := by unfold State.writeS; split <;> rfl
@[simp] theorem writeS_regions (s : State) (d : SReg) (v : Word) : (s.writeS d v).regions = s.regions := by unfold State.writeS; split <;> rfl
@[simp] theorem writeS_moves (s : State) (d : SReg) (v : Word) : (s.writeS d v).moves = s.moves := by unfold State.writeS; split <;> rfl
@[simp] theorem writeS_ctxs (s : State) (d : SReg) (v : Word) : (s.writeS d v).ctxs = s.ctxs := by unfold State.writeS; split <;> rfl
@[simp] theorem writeS_rr (s : State) (d : SReg) (v : Word) : (s.writeS d v).rr = s.rr := by unfold State.writeS; split <;> rfl
@[simp] theorem writeS_queues (s : State) (d : SReg) (v : Word) : (s.writeS d v).queues = s.queues := by unfold State.writeS; split <;> rfl
@[simp] theorem writeS_outstanding (s : State) (d : SReg) (v : Word) : (s.writeS d v).outstanding = s.outstanding := by unfold State.writeS; split <;> rfl
@[simp] theorem writeS_completions (s : State) (d : SReg) (v : Word) : (s.writeS d v).completions = s.completions := by unfold State.writeS; split <;> rfl
@[simp] theorem writeS_graphs (s : State) (d : SReg) (v : Word) : (s.writeS d v).graphs = s.graphs := by unfold State.writeS; split <;> rfl
@[simp] theorem writeS_seqno (s : State) (d : SReg) (v : Word) : (s.writeS d v).seqno = s.seqno := by unfold State.writeS; split <;> rfl
@[simp] theorem writeS_irqs (s : State) (d : SReg) (v : Word) : (s.writeS d v).irqs = s.irqs := by unfold State.writeS; split <;> rfl
@[simp] theorem writeS_parts (s : State) (d : SReg) (v : Word) : (s.writeS d v).parts = s.parts := by unfold State.writeS; split <;> rfl
@[simp] theorem writeS_qos (s : State) (d : SReg) (v : Word) : (s.writeS d v).qos = s.qos := by unfold State.writeS; split <;> rfl
@[simp] theorem writeS_arbs (s : State) (d : SReg) (v : Word) : (s.writeS d v).arbs = s.arbs := by unfold State.writeS; split <;> rfl
@[simp] theorem writeS_channels (s : State) (d : SReg) (v : Word) : (s.writeS d v).channels = s.channels := by unfold State.writeS; split <;> rfl
@[simp] theorem writeS_dies (s : State) (d : SReg) (v : Word) : (s.writeS d v).dies = s.dies := by unfold State.writeS; split <;> rfl
@[simp] theorem writeS_islands (s : State) (d : SReg) (v : Word) : (s.writeS d v).islands = s.islands := by unfold State.writeS; split <;> rfl
@[simp] theorem writeS_bup (s : State) (d : SReg) (v : Word) : (s.writeS d v).bup = s.bup := by unfold State.writeS; split <;> rfl
@[simp] theorem writeS_groups (s : State) (d : SReg) (v : Word) : (s.writeS d v).groups = s.groups := by unfold State.writeS; split <;> rfl
@[simp] theorem writeS_ready (s : State) (d : SReg) (v : Word) : (s.writeS d v).ready = s.ready := by unfold State.writeS; split <;> rfl
@[simp] theorem writeS_podid (s : State) (d : SReg) (v : Word) : (s.writeS d v).podid = s.podid := by unfold State.writeS; split <;> rfl
@[simp] theorem writeS_podv (s : State) (d : SReg) (v : Word) : (s.writeS d v).podv = s.podv := by unfold State.writeS; split <;> rfl
@[simp] theorem writeS_podSlow (s : State) (d : SReg) (v : Word) : (s.writeS d v).podSlow = s.podSlow := by unfold State.writeS; split <;> rfl
@[simp] theorem writeS_pcap (s : State) (d : SReg) (v : Word) : (s.writeS d v).pcap = s.pcap := by unfold State.writeS; split <;> rfl
@[simp] theorem writeS_exports (s : State) (d : SReg) (v : Word) : (s.writeS d v).exports = s.exports := by unfold State.writeS; split <;> rfl
@[simp] theorem writeS_heldReqs (s : State) (d : SReg) (v : Word) : (s.writeS d v).heldReqs = s.heldReqs := by unfold State.writeS; split <;> rfl
@[simp] theorem writeS_hbmStacks (s : State) (d : SReg) (v : Word) : (s.writeS d v).hbmStacks = s.hbmStacks := by unfold State.writeS; split <;> rfl
@[simp] theorem writeS_pcs (s : State) (d : SReg) (v : Word) : (s.writeS d v).pcs = s.pcs := by unfold State.writeS; split <;> rfl
@[simp] theorem writeS_marks (s : State) (d : SReg) (v : Word) : (s.writeS d v).marks = s.marks := by unfold State.writeS; split <;> rfl
@[simp] theorem writeS_slate (s : State) (d : SReg) (v : Word) : (s.writeS d v).slate = s.slate := by unfold State.writeS; split <;> rfl
@[simp] theorem writeS_core_id (s : State) (d : SReg) (v : Word) : (s.writeS d v).core.id = s.core.id := by unfold State.writeS; split <;> rfl
@[simp] theorem writeS_core_part (s : State) (d : SReg) (v : Word) : (s.writeS d v).core.part = s.core.part := by unfold State.writeS; split <;> rfl
@[simp] theorem writeS_core_slot (s : State) (d : SReg) (v : Word) : (s.writeS d v).core.slot = s.core.slot := by unfold State.writeS; split <;> rfl
@[simp] theorem writeS_core_handle (s : State) (d : SReg) (v : Word) : (s.writeS d v).core.handle = s.core.handle := by unfold State.writeS; split <;> rfl
@[simp] theorem writeS_core_gidx (s : State) (d : SReg) (v : Word) : (s.writeS d v).core.gidx = s.core.gidx := by unfold State.writeS; split <;> rfl
@[simp] theorem writeS_core_gang (s : State) (d : SReg) (v : Word) : (s.writeS d v).core.gang = s.core.gang := by unfold State.writeS; split <;> rfl
@[simp] theorem writeS_core_frec (s : State) (d : SReg) (v : Word) : (s.writeS d v).core.frec = s.core.frec := by unfold State.writeS; split <;> rfl
@[simp] theorem writeS_core_wbuf (s : State) (d : SReg) (v : Word) : (s.writeS d v).core.wbuf = s.core.wbuf := by unfold State.writeS; split <;> rfl
@[simp] theorem writeS_core_wfail (s : State) (d : SReg) (v : Word) : (s.writeS d v).core.wfail = s.core.wfail := by unfold State.writeS; split <;> rfl
@[simp] theorem writeS_core_queues (s : State) (d : SReg) (v : Word) : (s.writeS d v).core.queues = s.core.queues := by unfold State.writeS; split <;> rfl
@[simp] theorem writeS_core_nsSize (s : State) (d : SReg) (v : Word) : (s.writeS d v).core.nsSize = s.core.nsSize := by unfold State.writeS; split <;> rfl
@[simp] theorem writeS_core_nsOwner (s : State) (d : SReg) (v : Word) : (s.writeS d v).core.nsOwner = s.core.nsOwner := by unfold State.writeS; split <;> rfl
@[simp] theorem writeS_core_l1 (s : State) (d : SReg) (v : Word) : (s.writeS d v).core.l1 = s.core.l1 := by unfold State.writeS; split <;> rfl
@[simp] theorem writeS_core_rep (s : State) (d : SReg) (v : Word) : (s.writeS d v).core.rep = s.core.rep := by unfold State.writeS; split <;> rfl
@[simp] theorem writeS_core_standby (s : State) (d : SReg) (v : Word) : (s.writeS d v).core.standby = s.core.standby := by unfold State.writeS; split <;> rfl
@[simp] theorem writeS_core_held (s : State) (d : SReg) (v : Word) : (s.writeS d v).core.held = s.core.held := by unfold State.writeS; split <;> rfl
@[simp] theorem writeS_core_tlb (s : State) (d : SReg) (v : Word) : (s.writeS d v).core.tlb = s.core.tlb := by unfold State.writeS; split <;> rfl
@[simp] theorem writeS_core_cpt (s : State) (d : SReg) (v : Word) : (s.writeS d v).core.cpt = s.core.cpt := by unfold State.writeS; split <;> rfl
@[simp] theorem writeS_core_npt (s : State) (d : SReg) (v : Word) : (s.writeS d v).core.npt = s.core.npt := by unfold State.writeS; split <;> rfl
@[simp] theorem writeS_core_wtab (s : State) (d : SReg) (v : Word) : (s.writeS d v).core.wtab = s.core.wtab := by unfold State.writeS; split <;> rfl
@[simp] theorem writeS_core_link (s : State) (d : SReg) (v : Word) : (s.writeS d v).core.link = s.core.link := by unfold State.writeS; split <;> rfl
@[simp] theorem writeS_m_mr (s : State) (d : SReg) (v : Word) : (s.writeS d v).core.m.mr = s.core.m.mr := by unfold State.writeS; split <;> rfl
@[simp] theorem writeS_m_lat (s : State) (d : SReg) (v : Word) : (s.writeS d v).core.m.lat = s.core.m.lat := by unfold State.writeS; split <;> rfl
@[simp] theorem writeS_m_bar (s : State) (d : SReg) (v : Word) : (s.writeS d v).core.m.bar = s.core.m.bar := by unfold State.writeS; split <;> rfl
@[simp] theorem writeS_m_ended (s : State) (d : SReg) (v : Word) : (s.writeS d v).core.m.ended = s.core.m.ended := by unfold State.writeS; split <;> rfl
@[simp] theorem writeS_m_owed (s : State) (d : SReg) (v : Word) : (s.writeS d v).core.m.owed = s.core.m.owed := by unfold State.writeS; split <;> rfl
@[simp] theorem writeS_m_wait (s : State) (d : SReg) (v : Word) : (s.writeS d v).core.m.wait = s.core.m.wait := by unfold State.writeS; split <;> rfl
@[simp] theorem writeS_m_ns (s : State) (d : SReg) (v : Word) : (s.writeS d v).core.m.ns = s.core.m.ns := by unfold State.writeS; split <;> rfl

/-! writeP. -/

@[simp] theorem writeP_others (s : State) (d : PReg) (v : Bool) : (s.writeP d v).others = s.others := by unfold State.writeP; split <;> rfl
@[simp] theorem writeP_turns (s : State) (d : PReg) (v : Bool) : (s.writeP d v).turns = s.turns := by unfold State.writeP; split <;> rfl
@[simp] theorem writeP_events (s : State) (d : PReg) (v : Bool) : (s.writeP d v).events = s.events := by unfold State.writeP; split <;> rfl
@[simp] theorem writeP_fresh (s : State) (d : PReg) (v : Bool) : (s.writeP d v).fresh = s.fresh := by unfold State.writeP; split <;> rfl
@[simp] theorem writeP_ptc (s : State) (d : PReg) (v : Bool) : (s.writeP d v).ptc = s.ptc := by unfold State.writeP; split <;> rfl
@[simp] theorem writeP_clock (s : State) (d : PReg) (v : Bool) : (s.writeP d v).clock = s.clock := by unfold State.writeP; split <;> rfl
@[simp] theorem writeP_mem (s : State) (d : PReg) (v : Bool) : (s.writeP d v).mem = s.mem := by unfold State.writeP; split <;> rfl
@[simp] theorem writeP_bad (s : State) (d : PReg) (v : Bool) : (s.writeP d v).bad = s.bad := by unfold State.writeP; split <;> rfl
@[simp] theorem writeP_sent (s : State) (d : PReg) (v : Bool) : (s.writeP d v).sent = s.sent := by unfold State.writeP; split <;> rfl
@[simp] theorem writeP_vaultOwner (s : State) (d : PReg) (v : Bool) : (s.writeP d v).vaultOwner = s.vaultOwner := by unfold State.writeP; split <;> rfl
@[simp] theorem writeP_frames (s : State) (d : PReg) (v : Bool) : (s.writeP d v).frames = s.frames := by unfold State.writeP; split <;> rfl
@[simp] theorem writeP_blocks (s : State) (d : PReg) (v : Bool) : (s.writeP d v).blocks = s.blocks := by unfold State.writeP; split <;> rfl
@[simp] theorem writeP_pages (s : State) (d : PReg) (v : Bool) : (s.writeP d v).pages = s.pages := by unfold State.writeP; split <;> rfl
@[simp] theorem writeP_regions (s : State) (d : PReg) (v : Bool) : (s.writeP d v).regions = s.regions := by unfold State.writeP; split <;> rfl
@[simp] theorem writeP_moves (s : State) (d : PReg) (v : Bool) : (s.writeP d v).moves = s.moves := by unfold State.writeP; split <;> rfl
@[simp] theorem writeP_ctxs (s : State) (d : PReg) (v : Bool) : (s.writeP d v).ctxs = s.ctxs := by unfold State.writeP; split <;> rfl
@[simp] theorem writeP_rr (s : State) (d : PReg) (v : Bool) : (s.writeP d v).rr = s.rr := by unfold State.writeP; split <;> rfl
@[simp] theorem writeP_queues (s : State) (d : PReg) (v : Bool) : (s.writeP d v).queues = s.queues := by unfold State.writeP; split <;> rfl
@[simp] theorem writeP_outstanding (s : State) (d : PReg) (v : Bool) : (s.writeP d v).outstanding = s.outstanding := by unfold State.writeP; split <;> rfl
@[simp] theorem writeP_completions (s : State) (d : PReg) (v : Bool) : (s.writeP d v).completions = s.completions := by unfold State.writeP; split <;> rfl
@[simp] theorem writeP_graphs (s : State) (d : PReg) (v : Bool) : (s.writeP d v).graphs = s.graphs := by unfold State.writeP; split <;> rfl
@[simp] theorem writeP_seqno (s : State) (d : PReg) (v : Bool) : (s.writeP d v).seqno = s.seqno := by unfold State.writeP; split <;> rfl
@[simp] theorem writeP_irqs (s : State) (d : PReg) (v : Bool) : (s.writeP d v).irqs = s.irqs := by unfold State.writeP; split <;> rfl
@[simp] theorem writeP_parts (s : State) (d : PReg) (v : Bool) : (s.writeP d v).parts = s.parts := by unfold State.writeP; split <;> rfl
@[simp] theorem writeP_qos (s : State) (d : PReg) (v : Bool) : (s.writeP d v).qos = s.qos := by unfold State.writeP; split <;> rfl
@[simp] theorem writeP_arbs (s : State) (d : PReg) (v : Bool) : (s.writeP d v).arbs = s.arbs := by unfold State.writeP; split <;> rfl
@[simp] theorem writeP_channels (s : State) (d : PReg) (v : Bool) : (s.writeP d v).channels = s.channels := by unfold State.writeP; split <;> rfl
@[simp] theorem writeP_dies (s : State) (d : PReg) (v : Bool) : (s.writeP d v).dies = s.dies := by unfold State.writeP; split <;> rfl
@[simp] theorem writeP_islands (s : State) (d : PReg) (v : Bool) : (s.writeP d v).islands = s.islands := by unfold State.writeP; split <;> rfl
@[simp] theorem writeP_bup (s : State) (d : PReg) (v : Bool) : (s.writeP d v).bup = s.bup := by unfold State.writeP; split <;> rfl
@[simp] theorem writeP_groups (s : State) (d : PReg) (v : Bool) : (s.writeP d v).groups = s.groups := by unfold State.writeP; split <;> rfl
@[simp] theorem writeP_ready (s : State) (d : PReg) (v : Bool) : (s.writeP d v).ready = s.ready := by unfold State.writeP; split <;> rfl
@[simp] theorem writeP_podid (s : State) (d : PReg) (v : Bool) : (s.writeP d v).podid = s.podid := by unfold State.writeP; split <;> rfl
@[simp] theorem writeP_podv (s : State) (d : PReg) (v : Bool) : (s.writeP d v).podv = s.podv := by unfold State.writeP; split <;> rfl
@[simp] theorem writeP_podSlow (s : State) (d : PReg) (v : Bool) : (s.writeP d v).podSlow = s.podSlow := by unfold State.writeP; split <;> rfl
@[simp] theorem writeP_pcap (s : State) (d : PReg) (v : Bool) : (s.writeP d v).pcap = s.pcap := by unfold State.writeP; split <;> rfl
@[simp] theorem writeP_exports (s : State) (d : PReg) (v : Bool) : (s.writeP d v).exports = s.exports := by unfold State.writeP; split <;> rfl
@[simp] theorem writeP_heldReqs (s : State) (d : PReg) (v : Bool) : (s.writeP d v).heldReqs = s.heldReqs := by unfold State.writeP; split <;> rfl
@[simp] theorem writeP_hbmStacks (s : State) (d : PReg) (v : Bool) : (s.writeP d v).hbmStacks = s.hbmStacks := by unfold State.writeP; split <;> rfl
@[simp] theorem writeP_pcs (s : State) (d : PReg) (v : Bool) : (s.writeP d v).pcs = s.pcs := by unfold State.writeP; split <;> rfl
@[simp] theorem writeP_marks (s : State) (d : PReg) (v : Bool) : (s.writeP d v).marks = s.marks := by unfold State.writeP; split <;> rfl
@[simp] theorem writeP_slate (s : State) (d : PReg) (v : Bool) : (s.writeP d v).slate = s.slate := by unfold State.writeP; split <;> rfl
@[simp] theorem writeP_core_id (s : State) (d : PReg) (v : Bool) : (s.writeP d v).core.id = s.core.id := by unfold State.writeP; split <;> rfl
@[simp] theorem writeP_core_part (s : State) (d : PReg) (v : Bool) : (s.writeP d v).core.part = s.core.part := by unfold State.writeP; split <;> rfl
@[simp] theorem writeP_core_slot (s : State) (d : PReg) (v : Bool) : (s.writeP d v).core.slot = s.core.slot := by unfold State.writeP; split <;> rfl
@[simp] theorem writeP_core_handle (s : State) (d : PReg) (v : Bool) : (s.writeP d v).core.handle = s.core.handle := by unfold State.writeP; split <;> rfl
@[simp] theorem writeP_core_gidx (s : State) (d : PReg) (v : Bool) : (s.writeP d v).core.gidx = s.core.gidx := by unfold State.writeP; split <;> rfl
@[simp] theorem writeP_core_gang (s : State) (d : PReg) (v : Bool) : (s.writeP d v).core.gang = s.core.gang := by unfold State.writeP; split <;> rfl
@[simp] theorem writeP_core_frec (s : State) (d : PReg) (v : Bool) : (s.writeP d v).core.frec = s.core.frec := by unfold State.writeP; split <;> rfl
@[simp] theorem writeP_core_wbuf (s : State) (d : PReg) (v : Bool) : (s.writeP d v).core.wbuf = s.core.wbuf := by unfold State.writeP; split <;> rfl
@[simp] theorem writeP_core_wfail (s : State) (d : PReg) (v : Bool) : (s.writeP d v).core.wfail = s.core.wfail := by unfold State.writeP; split <;> rfl
@[simp] theorem writeP_core_queues (s : State) (d : PReg) (v : Bool) : (s.writeP d v).core.queues = s.core.queues := by unfold State.writeP; split <;> rfl
@[simp] theorem writeP_core_nsSize (s : State) (d : PReg) (v : Bool) : (s.writeP d v).core.nsSize = s.core.nsSize := by unfold State.writeP; split <;> rfl
@[simp] theorem writeP_core_nsOwner (s : State) (d : PReg) (v : Bool) : (s.writeP d v).core.nsOwner = s.core.nsOwner := by unfold State.writeP; split <;> rfl
@[simp] theorem writeP_core_l1 (s : State) (d : PReg) (v : Bool) : (s.writeP d v).core.l1 = s.core.l1 := by unfold State.writeP; split <;> rfl
@[simp] theorem writeP_core_rep (s : State) (d : PReg) (v : Bool) : (s.writeP d v).core.rep = s.core.rep := by unfold State.writeP; split <;> rfl
@[simp] theorem writeP_core_standby (s : State) (d : PReg) (v : Bool) : (s.writeP d v).core.standby = s.core.standby := by unfold State.writeP; split <;> rfl
@[simp] theorem writeP_core_held (s : State) (d : PReg) (v : Bool) : (s.writeP d v).core.held = s.core.held := by unfold State.writeP; split <;> rfl
@[simp] theorem writeP_core_tlb (s : State) (d : PReg) (v : Bool) : (s.writeP d v).core.tlb = s.core.tlb := by unfold State.writeP; split <;> rfl
@[simp] theorem writeP_core_cpt (s : State) (d : PReg) (v : Bool) : (s.writeP d v).core.cpt = s.core.cpt := by unfold State.writeP; split <;> rfl
@[simp] theorem writeP_core_npt (s : State) (d : PReg) (v : Bool) : (s.writeP d v).core.npt = s.core.npt := by unfold State.writeP; split <;> rfl
@[simp] theorem writeP_core_wtab (s : State) (d : PReg) (v : Bool) : (s.writeP d v).core.wtab = s.core.wtab := by unfold State.writeP; split <;> rfl
@[simp] theorem writeP_core_link (s : State) (d : PReg) (v : Bool) : (s.writeP d v).core.link = s.core.link := by unfold State.writeP; split <;> rfl
@[simp] theorem writeP_m_mr (s : State) (d : PReg) (v : Bool) : (s.writeP d v).core.m.mr = s.core.m.mr := by unfold State.writeP; split <;> rfl
@[simp] theorem writeP_m_lat (s : State) (d : PReg) (v : Bool) : (s.writeP d v).core.m.lat = s.core.m.lat := by unfold State.writeP; split <;> rfl
@[simp] theorem writeP_m_bar (s : State) (d : PReg) (v : Bool) : (s.writeP d v).core.m.bar = s.core.m.bar := by unfold State.writeP; split <;> rfl
@[simp] theorem writeP_m_ended (s : State) (d : PReg) (v : Bool) : (s.writeP d v).core.m.ended = s.core.m.ended := by unfold State.writeP; split <;> rfl
@[simp] theorem writeP_m_owed (s : State) (d : PReg) (v : Bool) : (s.writeP d v).core.m.owed = s.core.m.owed := by unfold State.writeP; split <;> rfl
@[simp] theorem writeP_m_wait (s : State) (d : PReg) (v : Bool) : (s.writeP d v).core.m.wait = s.core.m.wait := by unfold State.writeP; split <;> rfl
@[simp] theorem writeP_m_ns (s : State) (d : PReg) (v : Bool) : (s.writeP d v).core.m.ns = s.core.m.ns := by unfold State.writeP; split <;> rfl

/-! writeM. -/

@[simp] theorem writeM_others (s : State) (d : MReg) (v : BitVec 1024) : (s.writeM d v).others = s.others := by unfold State.writeM; split <;> rfl
@[simp] theorem writeM_turns (s : State) (d : MReg) (v : BitVec 1024) : (s.writeM d v).turns = s.turns := by unfold State.writeM; split <;> rfl
@[simp] theorem writeM_events (s : State) (d : MReg) (v : BitVec 1024) : (s.writeM d v).events = s.events := by unfold State.writeM; split <;> rfl
@[simp] theorem writeM_fresh (s : State) (d : MReg) (v : BitVec 1024) : (s.writeM d v).fresh = s.fresh := by unfold State.writeM; split <;> rfl
@[simp] theorem writeM_ptc (s : State) (d : MReg) (v : BitVec 1024) : (s.writeM d v).ptc = s.ptc := by unfold State.writeM; split <;> rfl
@[simp] theorem writeM_clock (s : State) (d : MReg) (v : BitVec 1024) : (s.writeM d v).clock = s.clock := by unfold State.writeM; split <;> rfl
@[simp] theorem writeM_mem (s : State) (d : MReg) (v : BitVec 1024) : (s.writeM d v).mem = s.mem := by unfold State.writeM; split <;> rfl
@[simp] theorem writeM_bad (s : State) (d : MReg) (v : BitVec 1024) : (s.writeM d v).bad = s.bad := by unfold State.writeM; split <;> rfl
@[simp] theorem writeM_sent (s : State) (d : MReg) (v : BitVec 1024) : (s.writeM d v).sent = s.sent := by unfold State.writeM; split <;> rfl
@[simp] theorem writeM_vaultOwner (s : State) (d : MReg) (v : BitVec 1024) : (s.writeM d v).vaultOwner = s.vaultOwner := by unfold State.writeM; split <;> rfl
@[simp] theorem writeM_frames (s : State) (d : MReg) (v : BitVec 1024) : (s.writeM d v).frames = s.frames := by unfold State.writeM; split <;> rfl
@[simp] theorem writeM_blocks (s : State) (d : MReg) (v : BitVec 1024) : (s.writeM d v).blocks = s.blocks := by unfold State.writeM; split <;> rfl
@[simp] theorem writeM_pages (s : State) (d : MReg) (v : BitVec 1024) : (s.writeM d v).pages = s.pages := by unfold State.writeM; split <;> rfl
@[simp] theorem writeM_regions (s : State) (d : MReg) (v : BitVec 1024) : (s.writeM d v).regions = s.regions := by unfold State.writeM; split <;> rfl
@[simp] theorem writeM_moves (s : State) (d : MReg) (v : BitVec 1024) : (s.writeM d v).moves = s.moves := by unfold State.writeM; split <;> rfl
@[simp] theorem writeM_ctxs (s : State) (d : MReg) (v : BitVec 1024) : (s.writeM d v).ctxs = s.ctxs := by unfold State.writeM; split <;> rfl
@[simp] theorem writeM_rr (s : State) (d : MReg) (v : BitVec 1024) : (s.writeM d v).rr = s.rr := by unfold State.writeM; split <;> rfl
@[simp] theorem writeM_queues (s : State) (d : MReg) (v : BitVec 1024) : (s.writeM d v).queues = s.queues := by unfold State.writeM; split <;> rfl
@[simp] theorem writeM_outstanding (s : State) (d : MReg) (v : BitVec 1024) : (s.writeM d v).outstanding = s.outstanding := by unfold State.writeM; split <;> rfl
@[simp] theorem writeM_completions (s : State) (d : MReg) (v : BitVec 1024) : (s.writeM d v).completions = s.completions := by unfold State.writeM; split <;> rfl
@[simp] theorem writeM_graphs (s : State) (d : MReg) (v : BitVec 1024) : (s.writeM d v).graphs = s.graphs := by unfold State.writeM; split <;> rfl
@[simp] theorem writeM_seqno (s : State) (d : MReg) (v : BitVec 1024) : (s.writeM d v).seqno = s.seqno := by unfold State.writeM; split <;> rfl
@[simp] theorem writeM_irqs (s : State) (d : MReg) (v : BitVec 1024) : (s.writeM d v).irqs = s.irqs := by unfold State.writeM; split <;> rfl
@[simp] theorem writeM_parts (s : State) (d : MReg) (v : BitVec 1024) : (s.writeM d v).parts = s.parts := by unfold State.writeM; split <;> rfl
@[simp] theorem writeM_qos (s : State) (d : MReg) (v : BitVec 1024) : (s.writeM d v).qos = s.qos := by unfold State.writeM; split <;> rfl
@[simp] theorem writeM_arbs (s : State) (d : MReg) (v : BitVec 1024) : (s.writeM d v).arbs = s.arbs := by unfold State.writeM; split <;> rfl
@[simp] theorem writeM_channels (s : State) (d : MReg) (v : BitVec 1024) : (s.writeM d v).channels = s.channels := by unfold State.writeM; split <;> rfl
@[simp] theorem writeM_dies (s : State) (d : MReg) (v : BitVec 1024) : (s.writeM d v).dies = s.dies := by unfold State.writeM; split <;> rfl
@[simp] theorem writeM_islands (s : State) (d : MReg) (v : BitVec 1024) : (s.writeM d v).islands = s.islands := by unfold State.writeM; split <;> rfl
@[simp] theorem writeM_bup (s : State) (d : MReg) (v : BitVec 1024) : (s.writeM d v).bup = s.bup := by unfold State.writeM; split <;> rfl
@[simp] theorem writeM_groups (s : State) (d : MReg) (v : BitVec 1024) : (s.writeM d v).groups = s.groups := by unfold State.writeM; split <;> rfl
@[simp] theorem writeM_ready (s : State) (d : MReg) (v : BitVec 1024) : (s.writeM d v).ready = s.ready := by unfold State.writeM; split <;> rfl
@[simp] theorem writeM_podid (s : State) (d : MReg) (v : BitVec 1024) : (s.writeM d v).podid = s.podid := by unfold State.writeM; split <;> rfl
@[simp] theorem writeM_podv (s : State) (d : MReg) (v : BitVec 1024) : (s.writeM d v).podv = s.podv := by unfold State.writeM; split <;> rfl
@[simp] theorem writeM_podSlow (s : State) (d : MReg) (v : BitVec 1024) : (s.writeM d v).podSlow = s.podSlow := by unfold State.writeM; split <;> rfl
@[simp] theorem writeM_pcap (s : State) (d : MReg) (v : BitVec 1024) : (s.writeM d v).pcap = s.pcap := by unfold State.writeM; split <;> rfl
@[simp] theorem writeM_exports (s : State) (d : MReg) (v : BitVec 1024) : (s.writeM d v).exports = s.exports := by unfold State.writeM; split <;> rfl
@[simp] theorem writeM_heldReqs (s : State) (d : MReg) (v : BitVec 1024) : (s.writeM d v).heldReqs = s.heldReqs := by unfold State.writeM; split <;> rfl
@[simp] theorem writeM_hbmStacks (s : State) (d : MReg) (v : BitVec 1024) : (s.writeM d v).hbmStacks = s.hbmStacks := by unfold State.writeM; split <;> rfl
@[simp] theorem writeM_pcs (s : State) (d : MReg) (v : BitVec 1024) : (s.writeM d v).pcs = s.pcs := by unfold State.writeM; split <;> rfl
@[simp] theorem writeM_marks (s : State) (d : MReg) (v : BitVec 1024) : (s.writeM d v).marks = s.marks := by unfold State.writeM; split <;> rfl
@[simp] theorem writeM_slate (s : State) (d : MReg) (v : BitVec 1024) : (s.writeM d v).slate = s.slate := by unfold State.writeM; split <;> rfl
@[simp] theorem writeM_core_id (s : State) (d : MReg) (v : BitVec 1024) : (s.writeM d v).core.id = s.core.id := by unfold State.writeM; split <;> rfl
@[simp] theorem writeM_core_part (s : State) (d : MReg) (v : BitVec 1024) : (s.writeM d v).core.part = s.core.part := by unfold State.writeM; split <;> rfl
@[simp] theorem writeM_core_slot (s : State) (d : MReg) (v : BitVec 1024) : (s.writeM d v).core.slot = s.core.slot := by unfold State.writeM; split <;> rfl
@[simp] theorem writeM_core_handle (s : State) (d : MReg) (v : BitVec 1024) : (s.writeM d v).core.handle = s.core.handle := by unfold State.writeM; split <;> rfl
@[simp] theorem writeM_core_gidx (s : State) (d : MReg) (v : BitVec 1024) : (s.writeM d v).core.gidx = s.core.gidx := by unfold State.writeM; split <;> rfl
@[simp] theorem writeM_core_gang (s : State) (d : MReg) (v : BitVec 1024) : (s.writeM d v).core.gang = s.core.gang := by unfold State.writeM; split <;> rfl
@[simp] theorem writeM_core_frec (s : State) (d : MReg) (v : BitVec 1024) : (s.writeM d v).core.frec = s.core.frec := by unfold State.writeM; split <;> rfl
@[simp] theorem writeM_core_wbuf (s : State) (d : MReg) (v : BitVec 1024) : (s.writeM d v).core.wbuf = s.core.wbuf := by unfold State.writeM; split <;> rfl
@[simp] theorem writeM_core_wfail (s : State) (d : MReg) (v : BitVec 1024) : (s.writeM d v).core.wfail = s.core.wfail := by unfold State.writeM; split <;> rfl
@[simp] theorem writeM_core_queues (s : State) (d : MReg) (v : BitVec 1024) : (s.writeM d v).core.queues = s.core.queues := by unfold State.writeM; split <;> rfl
@[simp] theorem writeM_core_nsSize (s : State) (d : MReg) (v : BitVec 1024) : (s.writeM d v).core.nsSize = s.core.nsSize := by unfold State.writeM; split <;> rfl
@[simp] theorem writeM_core_nsOwner (s : State) (d : MReg) (v : BitVec 1024) : (s.writeM d v).core.nsOwner = s.core.nsOwner := by unfold State.writeM; split <;> rfl
@[simp] theorem writeM_core_l1 (s : State) (d : MReg) (v : BitVec 1024) : (s.writeM d v).core.l1 = s.core.l1 := by unfold State.writeM; split <;> rfl
@[simp] theorem writeM_core_rep (s : State) (d : MReg) (v : BitVec 1024) : (s.writeM d v).core.rep = s.core.rep := by unfold State.writeM; split <;> rfl
@[simp] theorem writeM_core_standby (s : State) (d : MReg) (v : BitVec 1024) : (s.writeM d v).core.standby = s.core.standby := by unfold State.writeM; split <;> rfl
@[simp] theorem writeM_core_held (s : State) (d : MReg) (v : BitVec 1024) : (s.writeM d v).core.held = s.core.held := by unfold State.writeM; split <;> rfl
@[simp] theorem writeM_core_tlb (s : State) (d : MReg) (v : BitVec 1024) : (s.writeM d v).core.tlb = s.core.tlb := by unfold State.writeM; split <;> rfl
@[simp] theorem writeM_core_cpt (s : State) (d : MReg) (v : BitVec 1024) : (s.writeM d v).core.cpt = s.core.cpt := by unfold State.writeM; split <;> rfl
@[simp] theorem writeM_core_npt (s : State) (d : MReg) (v : BitVec 1024) : (s.writeM d v).core.npt = s.core.npt := by unfold State.writeM; split <;> rfl
@[simp] theorem writeM_core_wtab (s : State) (d : MReg) (v : BitVec 1024) : (s.writeM d v).core.wtab = s.core.wtab := by unfold State.writeM; split <;> rfl
@[simp] theorem writeM_core_link (s : State) (d : MReg) (v : BitVec 1024) : (s.writeM d v).core.link = s.core.link := by unfold State.writeM; split <;> rfl
@[simp] theorem writeM_m_mr (s : State) (d : MReg) (v : BitVec 1024) : (s.writeM d v).core.m.mr = s.core.m.mr := by unfold State.writeM; split <;> rfl
@[simp] theorem writeM_m_lat (s : State) (d : MReg) (v : BitVec 1024) : (s.writeM d v).core.m.lat = s.core.m.lat := by unfold State.writeM; split <;> rfl
@[simp] theorem writeM_m_bar (s : State) (d : MReg) (v : BitVec 1024) : (s.writeM d v).core.m.bar = s.core.m.bar := by unfold State.writeM; split <;> rfl
@[simp] theorem writeM_m_ended (s : State) (d : MReg) (v : BitVec 1024) : (s.writeM d v).core.m.ended = s.core.m.ended := by unfold State.writeM; split <;> rfl
@[simp] theorem writeM_m_owed (s : State) (d : MReg) (v : BitVec 1024) : (s.writeM d v).core.m.owed = s.core.m.owed := by unfold State.writeM; split <;> rfl
@[simp] theorem writeM_m_wait (s : State) (d : MReg) (v : BitVec 1024) : (s.writeM d v).core.m.wait = s.core.m.wait := by unfold State.writeM; split <;> rfl
@[simp] theorem writeM_m_ns (s : State) (d : MReg) (v : BitVec 1024) : (s.writeM d v).core.m.ns = s.core.m.ns := by unfold State.writeM; split <;> rfl

/-! writeSh. -/

@[simp] theorem writeSh_others (s : State) (d : ShReg) (v : BitVec 512) : (s.writeSh d v).others = s.others := rfl
@[simp] theorem writeSh_turns (s : State) (d : ShReg) (v : BitVec 512) : (s.writeSh d v).turns = s.turns := rfl
@[simp] theorem writeSh_events (s : State) (d : ShReg) (v : BitVec 512) : (s.writeSh d v).events = s.events := rfl
@[simp] theorem writeSh_fresh (s : State) (d : ShReg) (v : BitVec 512) : (s.writeSh d v).fresh = s.fresh := rfl
@[simp] theorem writeSh_ptc (s : State) (d : ShReg) (v : BitVec 512) : (s.writeSh d v).ptc = s.ptc := rfl
@[simp] theorem writeSh_clock (s : State) (d : ShReg) (v : BitVec 512) : (s.writeSh d v).clock = s.clock := rfl
@[simp] theorem writeSh_mem (s : State) (d : ShReg) (v : BitVec 512) : (s.writeSh d v).mem = s.mem := rfl
@[simp] theorem writeSh_bad (s : State) (d : ShReg) (v : BitVec 512) : (s.writeSh d v).bad = s.bad := rfl
@[simp] theorem writeSh_sent (s : State) (d : ShReg) (v : BitVec 512) : (s.writeSh d v).sent = s.sent := rfl
@[simp] theorem writeSh_vaultOwner (s : State) (d : ShReg) (v : BitVec 512) : (s.writeSh d v).vaultOwner = s.vaultOwner := rfl
@[simp] theorem writeSh_frames (s : State) (d : ShReg) (v : BitVec 512) : (s.writeSh d v).frames = s.frames := rfl
@[simp] theorem writeSh_blocks (s : State) (d : ShReg) (v : BitVec 512) : (s.writeSh d v).blocks = s.blocks := rfl
@[simp] theorem writeSh_pages (s : State) (d : ShReg) (v : BitVec 512) : (s.writeSh d v).pages = s.pages := rfl
@[simp] theorem writeSh_regions (s : State) (d : ShReg) (v : BitVec 512) : (s.writeSh d v).regions = s.regions := rfl
@[simp] theorem writeSh_moves (s : State) (d : ShReg) (v : BitVec 512) : (s.writeSh d v).moves = s.moves := rfl
@[simp] theorem writeSh_ctxs (s : State) (d : ShReg) (v : BitVec 512) : (s.writeSh d v).ctxs = s.ctxs := rfl
@[simp] theorem writeSh_rr (s : State) (d : ShReg) (v : BitVec 512) : (s.writeSh d v).rr = s.rr := rfl
@[simp] theorem writeSh_queues (s : State) (d : ShReg) (v : BitVec 512) : (s.writeSh d v).queues = s.queues := rfl
@[simp] theorem writeSh_outstanding (s : State) (d : ShReg) (v : BitVec 512) : (s.writeSh d v).outstanding = s.outstanding := rfl
@[simp] theorem writeSh_completions (s : State) (d : ShReg) (v : BitVec 512) : (s.writeSh d v).completions = s.completions := rfl
@[simp] theorem writeSh_graphs (s : State) (d : ShReg) (v : BitVec 512) : (s.writeSh d v).graphs = s.graphs := rfl
@[simp] theorem writeSh_seqno (s : State) (d : ShReg) (v : BitVec 512) : (s.writeSh d v).seqno = s.seqno := rfl
@[simp] theorem writeSh_irqs (s : State) (d : ShReg) (v : BitVec 512) : (s.writeSh d v).irqs = s.irqs := rfl
@[simp] theorem writeSh_parts (s : State) (d : ShReg) (v : BitVec 512) : (s.writeSh d v).parts = s.parts := rfl
@[simp] theorem writeSh_qos (s : State) (d : ShReg) (v : BitVec 512) : (s.writeSh d v).qos = s.qos := rfl
@[simp] theorem writeSh_arbs (s : State) (d : ShReg) (v : BitVec 512) : (s.writeSh d v).arbs = s.arbs := rfl
@[simp] theorem writeSh_channels (s : State) (d : ShReg) (v : BitVec 512) : (s.writeSh d v).channels = s.channels := rfl
@[simp] theorem writeSh_dies (s : State) (d : ShReg) (v : BitVec 512) : (s.writeSh d v).dies = s.dies := rfl
@[simp] theorem writeSh_islands (s : State) (d : ShReg) (v : BitVec 512) : (s.writeSh d v).islands = s.islands := rfl
@[simp] theorem writeSh_bup (s : State) (d : ShReg) (v : BitVec 512) : (s.writeSh d v).bup = s.bup := rfl
@[simp] theorem writeSh_groups (s : State) (d : ShReg) (v : BitVec 512) : (s.writeSh d v).groups = s.groups := rfl
@[simp] theorem writeSh_ready (s : State) (d : ShReg) (v : BitVec 512) : (s.writeSh d v).ready = s.ready := rfl
@[simp] theorem writeSh_podid (s : State) (d : ShReg) (v : BitVec 512) : (s.writeSh d v).podid = s.podid := rfl
@[simp] theorem writeSh_podv (s : State) (d : ShReg) (v : BitVec 512) : (s.writeSh d v).podv = s.podv := rfl
@[simp] theorem writeSh_podSlow (s : State) (d : ShReg) (v : BitVec 512) : (s.writeSh d v).podSlow = s.podSlow := rfl
@[simp] theorem writeSh_pcap (s : State) (d : ShReg) (v : BitVec 512) : (s.writeSh d v).pcap = s.pcap := rfl
@[simp] theorem writeSh_exports (s : State) (d : ShReg) (v : BitVec 512) : (s.writeSh d v).exports = s.exports := rfl
@[simp] theorem writeSh_heldReqs (s : State) (d : ShReg) (v : BitVec 512) : (s.writeSh d v).heldReqs = s.heldReqs := rfl
@[simp] theorem writeSh_hbmStacks (s : State) (d : ShReg) (v : BitVec 512) : (s.writeSh d v).hbmStacks = s.hbmStacks := rfl
@[simp] theorem writeSh_pcs (s : State) (d : ShReg) (v : BitVec 512) : (s.writeSh d v).pcs = s.pcs := rfl
@[simp] theorem writeSh_marks (s : State) (d : ShReg) (v : BitVec 512) : (s.writeSh d v).marks = s.marks := rfl
@[simp] theorem writeSh_slate (s : State) (d : ShReg) (v : BitVec 512) : (s.writeSh d v).slate = s.slate := rfl
@[simp] theorem writeSh_core_id (s : State) (d : ShReg) (v : BitVec 512) : (s.writeSh d v).core.id = s.core.id := rfl
@[simp] theorem writeSh_core_part (s : State) (d : ShReg) (v : BitVec 512) : (s.writeSh d v).core.part = s.core.part := rfl
@[simp] theorem writeSh_core_slot (s : State) (d : ShReg) (v : BitVec 512) : (s.writeSh d v).core.slot = s.core.slot := rfl
@[simp] theorem writeSh_core_handle (s : State) (d : ShReg) (v : BitVec 512) : (s.writeSh d v).core.handle = s.core.handle := rfl
@[simp] theorem writeSh_core_gidx (s : State) (d : ShReg) (v : BitVec 512) : (s.writeSh d v).core.gidx = s.core.gidx := rfl
@[simp] theorem writeSh_core_gang (s : State) (d : ShReg) (v : BitVec 512) : (s.writeSh d v).core.gang = s.core.gang := rfl
@[simp] theorem writeSh_core_frec (s : State) (d : ShReg) (v : BitVec 512) : (s.writeSh d v).core.frec = s.core.frec := rfl
@[simp] theorem writeSh_core_wbuf (s : State) (d : ShReg) (v : BitVec 512) : (s.writeSh d v).core.wbuf = s.core.wbuf := rfl
@[simp] theorem writeSh_core_wfail (s : State) (d : ShReg) (v : BitVec 512) : (s.writeSh d v).core.wfail = s.core.wfail := rfl
@[simp] theorem writeSh_core_queues (s : State) (d : ShReg) (v : BitVec 512) : (s.writeSh d v).core.queues = s.core.queues := rfl
@[simp] theorem writeSh_core_nsSize (s : State) (d : ShReg) (v : BitVec 512) : (s.writeSh d v).core.nsSize = s.core.nsSize := rfl
@[simp] theorem writeSh_core_nsOwner (s : State) (d : ShReg) (v : BitVec 512) : (s.writeSh d v).core.nsOwner = s.core.nsOwner := rfl
@[simp] theorem writeSh_core_l1 (s : State) (d : ShReg) (v : BitVec 512) : (s.writeSh d v).core.l1 = s.core.l1 := rfl
@[simp] theorem writeSh_core_rep (s : State) (d : ShReg) (v : BitVec 512) : (s.writeSh d v).core.rep = s.core.rep := rfl
@[simp] theorem writeSh_core_standby (s : State) (d : ShReg) (v : BitVec 512) : (s.writeSh d v).core.standby = s.core.standby := rfl
@[simp] theorem writeSh_core_held (s : State) (d : ShReg) (v : BitVec 512) : (s.writeSh d v).core.held = s.core.held := rfl
@[simp] theorem writeSh_core_tlb (s : State) (d : ShReg) (v : BitVec 512) : (s.writeSh d v).core.tlb = s.core.tlb := rfl
@[simp] theorem writeSh_core_cpt (s : State) (d : ShReg) (v : BitVec 512) : (s.writeSh d v).core.cpt = s.core.cpt := rfl
@[simp] theorem writeSh_core_npt (s : State) (d : ShReg) (v : BitVec 512) : (s.writeSh d v).core.npt = s.core.npt := rfl
@[simp] theorem writeSh_core_wtab (s : State) (d : ShReg) (v : BitVec 512) : (s.writeSh d v).core.wtab = s.core.wtab := rfl
@[simp] theorem writeSh_core_link (s : State) (d : ShReg) (v : BitVec 512) : (s.writeSh d v).core.link = s.core.link := rfl
@[simp] theorem writeSh_m_mr (s : State) (d : ShReg) (v : BitVec 512) : (s.writeSh d v).core.m.mr = s.core.m.mr := rfl
@[simp] theorem writeSh_m_lat (s : State) (d : ShReg) (v : BitVec 512) : (s.writeSh d v).core.m.lat = s.core.m.lat := rfl
@[simp] theorem writeSh_m_bar (s : State) (d : ShReg) (v : BitVec 512) : (s.writeSh d v).core.m.bar = s.core.m.bar := rfl
@[simp] theorem writeSh_m_ended (s : State) (d : ShReg) (v : BitVec 512) : (s.writeSh d v).core.m.ended = s.core.m.ended := rfl
@[simp] theorem writeSh_m_owed (s : State) (d : ShReg) (v : BitVec 512) : (s.writeSh d v).core.m.owed = s.core.m.owed := rfl
@[simp] theorem writeSh_m_wait (s : State) (d : ShReg) (v : BitVec 512) : (s.writeSh d v).core.m.wait = s.core.m.wait := rfl
@[simp] theorem writeSh_m_ns (s : State) (d : ShReg) (v : BitVec 512) : (s.writeSh d v).core.m.ns = s.core.m.ns := rfl

/-! setPc. -/

@[simp] theorem setPc_others (s : State) (v : Word) : (s.setPc v).others = s.others := rfl
@[simp] theorem setPc_turns (s : State) (v : Word) : (s.setPc v).turns = s.turns := rfl
@[simp] theorem setPc_events (s : State) (v : Word) : (s.setPc v).events = s.events := rfl
@[simp] theorem setPc_fresh (s : State) (v : Word) : (s.setPc v).fresh = s.fresh := rfl
@[simp] theorem setPc_ptc (s : State) (v : Word) : (s.setPc v).ptc = s.ptc := rfl
@[simp] theorem setPc_clock (s : State) (v : Word) : (s.setPc v).clock = s.clock := rfl
@[simp] theorem setPc_mem (s : State) (v : Word) : (s.setPc v).mem = s.mem := rfl
@[simp] theorem setPc_bad (s : State) (v : Word) : (s.setPc v).bad = s.bad := rfl
@[simp] theorem setPc_sent (s : State) (v : Word) : (s.setPc v).sent = s.sent := rfl
@[simp] theorem setPc_vaultOwner (s : State) (v : Word) : (s.setPc v).vaultOwner = s.vaultOwner := rfl
@[simp] theorem setPc_frames (s : State) (v : Word) : (s.setPc v).frames = s.frames := rfl
@[simp] theorem setPc_blocks (s : State) (v : Word) : (s.setPc v).blocks = s.blocks := rfl
@[simp] theorem setPc_pages (s : State) (v : Word) : (s.setPc v).pages = s.pages := rfl
@[simp] theorem setPc_regions (s : State) (v : Word) : (s.setPc v).regions = s.regions := rfl
@[simp] theorem setPc_moves (s : State) (v : Word) : (s.setPc v).moves = s.moves := rfl
@[simp] theorem setPc_ctxs (s : State) (v : Word) : (s.setPc v).ctxs = s.ctxs := rfl
@[simp] theorem setPc_rr (s : State) (v : Word) : (s.setPc v).rr = s.rr := rfl
@[simp] theorem setPc_queues (s : State) (v : Word) : (s.setPc v).queues = s.queues := rfl
@[simp] theorem setPc_outstanding (s : State) (v : Word) : (s.setPc v).outstanding = s.outstanding := rfl
@[simp] theorem setPc_completions (s : State) (v : Word) : (s.setPc v).completions = s.completions := rfl
@[simp] theorem setPc_graphs (s : State) (v : Word) : (s.setPc v).graphs = s.graphs := rfl
@[simp] theorem setPc_seqno (s : State) (v : Word) : (s.setPc v).seqno = s.seqno := rfl
@[simp] theorem setPc_irqs (s : State) (v : Word) : (s.setPc v).irqs = s.irqs := rfl
@[simp] theorem setPc_parts (s : State) (v : Word) : (s.setPc v).parts = s.parts := rfl
@[simp] theorem setPc_qos (s : State) (v : Word) : (s.setPc v).qos = s.qos := rfl
@[simp] theorem setPc_arbs (s : State) (v : Word) : (s.setPc v).arbs = s.arbs := rfl
@[simp] theorem setPc_channels (s : State) (v : Word) : (s.setPc v).channels = s.channels := rfl
@[simp] theorem setPc_dies (s : State) (v : Word) : (s.setPc v).dies = s.dies := rfl
@[simp] theorem setPc_islands (s : State) (v : Word) : (s.setPc v).islands = s.islands := rfl
@[simp] theorem setPc_bup (s : State) (v : Word) : (s.setPc v).bup = s.bup := rfl
@[simp] theorem setPc_groups (s : State) (v : Word) : (s.setPc v).groups = s.groups := rfl
@[simp] theorem setPc_ready (s : State) (v : Word) : (s.setPc v).ready = s.ready := rfl
@[simp] theorem setPc_podid (s : State) (v : Word) : (s.setPc v).podid = s.podid := rfl
@[simp] theorem setPc_podv (s : State) (v : Word) : (s.setPc v).podv = s.podv := rfl
@[simp] theorem setPc_podSlow (s : State) (v : Word) : (s.setPc v).podSlow = s.podSlow := rfl
@[simp] theorem setPc_pcap (s : State) (v : Word) : (s.setPc v).pcap = s.pcap := rfl
@[simp] theorem setPc_exports (s : State) (v : Word) : (s.setPc v).exports = s.exports := rfl
@[simp] theorem setPc_heldReqs (s : State) (v : Word) : (s.setPc v).heldReqs = s.heldReqs := rfl
@[simp] theorem setPc_hbmStacks (s : State) (v : Word) : (s.setPc v).hbmStacks = s.hbmStacks := rfl
@[simp] theorem setPc_pcs (s : State) (v : Word) : (s.setPc v).pcs = s.pcs := rfl
@[simp] theorem setPc_marks (s : State) (v : Word) : (s.setPc v).marks = s.marks := rfl
@[simp] theorem setPc_slate (s : State) (v : Word) : (s.setPc v).slate = s.slate := rfl
@[simp] theorem setPc_core_id (s : State) (v : Word) : (s.setPc v).core.id = s.core.id := rfl
@[simp] theorem setPc_core_part (s : State) (v : Word) : (s.setPc v).core.part = s.core.part := rfl
@[simp] theorem setPc_core_slot (s : State) (v : Word) : (s.setPc v).core.slot = s.core.slot := rfl
@[simp] theorem setPc_core_handle (s : State) (v : Word) : (s.setPc v).core.handle = s.core.handle := rfl
@[simp] theorem setPc_core_gidx (s : State) (v : Word) : (s.setPc v).core.gidx = s.core.gidx := rfl
@[simp] theorem setPc_core_gang (s : State) (v : Word) : (s.setPc v).core.gang = s.core.gang := rfl
@[simp] theorem setPc_core_frec (s : State) (v : Word) : (s.setPc v).core.frec = s.core.frec := rfl
@[simp] theorem setPc_core_wbuf (s : State) (v : Word) : (s.setPc v).core.wbuf = s.core.wbuf := rfl
@[simp] theorem setPc_core_wfail (s : State) (v : Word) : (s.setPc v).core.wfail = s.core.wfail := rfl
@[simp] theorem setPc_core_queues (s : State) (v : Word) : (s.setPc v).core.queues = s.core.queues := rfl
@[simp] theorem setPc_core_nsSize (s : State) (v : Word) : (s.setPc v).core.nsSize = s.core.nsSize := rfl
@[simp] theorem setPc_core_nsOwner (s : State) (v : Word) : (s.setPc v).core.nsOwner = s.core.nsOwner := rfl
@[simp] theorem setPc_core_l1 (s : State) (v : Word) : (s.setPc v).core.l1 = s.core.l1 := rfl
@[simp] theorem setPc_core_rep (s : State) (v : Word) : (s.setPc v).core.rep = s.core.rep := rfl
@[simp] theorem setPc_core_standby (s : State) (v : Word) : (s.setPc v).core.standby = s.core.standby := rfl
@[simp] theorem setPc_core_held (s : State) (v : Word) : (s.setPc v).core.held = s.core.held := rfl
@[simp] theorem setPc_core_tlb (s : State) (v : Word) : (s.setPc v).core.tlb = s.core.tlb := rfl
@[simp] theorem setPc_core_cpt (s : State) (v : Word) : (s.setPc v).core.cpt = s.core.cpt := rfl
@[simp] theorem setPc_core_npt (s : State) (v : Word) : (s.setPc v).core.npt = s.core.npt := rfl
@[simp] theorem setPc_core_wtab (s : State) (v : Word) : (s.setPc v).core.wtab = s.core.wtab := rfl
@[simp] theorem setPc_core_link (s : State) (v : Word) : (s.setPc v).core.link = s.core.link := rfl
@[simp] theorem setPc_m_mr (s : State) (v : Word) : (s.setPc v).core.m.mr = s.core.m.mr := rfl
@[simp] theorem setPc_m_lat (s : State) (v : Word) : (s.setPc v).core.m.lat = s.core.m.lat := rfl
@[simp] theorem setPc_m_bar (s : State) (v : Word) : (s.setPc v).core.m.bar = s.core.m.bar := rfl
@[simp] theorem setPc_m_ended (s : State) (v : Word) : (s.setPc v).core.m.ended = s.core.m.ended := rfl
@[simp] theorem setPc_m_owed (s : State) (v : Word) : (s.setPc v).core.m.owed = s.core.m.owed := rfl
@[simp] theorem setPc_m_wait (s : State) (v : Word) : (s.setPc v).core.m.wait = s.core.m.wait := rfl
@[simp] theorem setPc_m_ns (s : State) (v : Word) : (s.setPc v).core.m.ns = s.core.m.ns := rfl

/-! orFlags. -/

@[simp] theorem orFlags_others (s : State) (f : Flags) : (s.orFlags f).others = s.others := rfl
@[simp] theorem orFlags_turns (s : State) (f : Flags) : (s.orFlags f).turns = s.turns := rfl
@[simp] theorem orFlags_events (s : State) (f : Flags) : (s.orFlags f).events = s.events := rfl
@[simp] theorem orFlags_fresh (s : State) (f : Flags) : (s.orFlags f).fresh = s.fresh := rfl
@[simp] theorem orFlags_ptc (s : State) (f : Flags) : (s.orFlags f).ptc = s.ptc := rfl
@[simp] theorem orFlags_clock (s : State) (f : Flags) : (s.orFlags f).clock = s.clock := rfl
@[simp] theorem orFlags_mem (s : State) (f : Flags) : (s.orFlags f).mem = s.mem := rfl
@[simp] theorem orFlags_bad (s : State) (f : Flags) : (s.orFlags f).bad = s.bad := rfl
@[simp] theorem orFlags_sent (s : State) (f : Flags) : (s.orFlags f).sent = s.sent := rfl
@[simp] theorem orFlags_vaultOwner (s : State) (f : Flags) : (s.orFlags f).vaultOwner = s.vaultOwner := rfl
@[simp] theorem orFlags_frames (s : State) (f : Flags) : (s.orFlags f).frames = s.frames := rfl
@[simp] theorem orFlags_blocks (s : State) (f : Flags) : (s.orFlags f).blocks = s.blocks := rfl
@[simp] theorem orFlags_pages (s : State) (f : Flags) : (s.orFlags f).pages = s.pages := rfl
@[simp] theorem orFlags_regions (s : State) (f : Flags) : (s.orFlags f).regions = s.regions := rfl
@[simp] theorem orFlags_moves (s : State) (f : Flags) : (s.orFlags f).moves = s.moves := rfl
@[simp] theorem orFlags_ctxs (s : State) (f : Flags) : (s.orFlags f).ctxs = s.ctxs := rfl
@[simp] theorem orFlags_rr (s : State) (f : Flags) : (s.orFlags f).rr = s.rr := rfl
@[simp] theorem orFlags_queues (s : State) (f : Flags) : (s.orFlags f).queues = s.queues := rfl
@[simp] theorem orFlags_outstanding (s : State) (f : Flags) : (s.orFlags f).outstanding = s.outstanding := rfl
@[simp] theorem orFlags_completions (s : State) (f : Flags) : (s.orFlags f).completions = s.completions := rfl
@[simp] theorem orFlags_graphs (s : State) (f : Flags) : (s.orFlags f).graphs = s.graphs := rfl
@[simp] theorem orFlags_seqno (s : State) (f : Flags) : (s.orFlags f).seqno = s.seqno := rfl
@[simp] theorem orFlags_irqs (s : State) (f : Flags) : (s.orFlags f).irqs = s.irqs := rfl
@[simp] theorem orFlags_parts (s : State) (f : Flags) : (s.orFlags f).parts = s.parts := rfl
@[simp] theorem orFlags_qos (s : State) (f : Flags) : (s.orFlags f).qos = s.qos := rfl
@[simp] theorem orFlags_arbs (s : State) (f : Flags) : (s.orFlags f).arbs = s.arbs := rfl
@[simp] theorem orFlags_channels (s : State) (f : Flags) : (s.orFlags f).channels = s.channels := rfl
@[simp] theorem orFlags_dies (s : State) (f : Flags) : (s.orFlags f).dies = s.dies := rfl
@[simp] theorem orFlags_islands (s : State) (f : Flags) : (s.orFlags f).islands = s.islands := rfl
@[simp] theorem orFlags_bup (s : State) (f : Flags) : (s.orFlags f).bup = s.bup := rfl
@[simp] theorem orFlags_groups (s : State) (f : Flags) : (s.orFlags f).groups = s.groups := rfl
@[simp] theorem orFlags_ready (s : State) (f : Flags) : (s.orFlags f).ready = s.ready := rfl
@[simp] theorem orFlags_podid (s : State) (f : Flags) : (s.orFlags f).podid = s.podid := rfl
@[simp] theorem orFlags_podv (s : State) (f : Flags) : (s.orFlags f).podv = s.podv := rfl
@[simp] theorem orFlags_podSlow (s : State) (f : Flags) : (s.orFlags f).podSlow = s.podSlow := rfl
@[simp] theorem orFlags_pcap (s : State) (f : Flags) : (s.orFlags f).pcap = s.pcap := rfl
@[simp] theorem orFlags_exports (s : State) (f : Flags) : (s.orFlags f).exports = s.exports := rfl
@[simp] theorem orFlags_heldReqs (s : State) (f : Flags) : (s.orFlags f).heldReqs = s.heldReqs := rfl
@[simp] theorem orFlags_hbmStacks (s : State) (f : Flags) : (s.orFlags f).hbmStacks = s.hbmStacks := rfl
@[simp] theorem orFlags_pcs (s : State) (f : Flags) : (s.orFlags f).pcs = s.pcs := rfl
@[simp] theorem orFlags_marks (s : State) (f : Flags) : (s.orFlags f).marks = s.marks := rfl
@[simp] theorem orFlags_slate (s : State) (f : Flags) : (s.orFlags f).slate = s.slate := rfl
@[simp] theorem orFlags_core_id (s : State) (f : Flags) : (s.orFlags f).core.id = s.core.id := rfl
@[simp] theorem orFlags_core_part (s : State) (f : Flags) : (s.orFlags f).core.part = s.core.part := rfl
@[simp] theorem orFlags_core_slot (s : State) (f : Flags) : (s.orFlags f).core.slot = s.core.slot := rfl
@[simp] theorem orFlags_core_handle (s : State) (f : Flags) : (s.orFlags f).core.handle = s.core.handle := rfl
@[simp] theorem orFlags_core_gidx (s : State) (f : Flags) : (s.orFlags f).core.gidx = s.core.gidx := rfl
@[simp] theorem orFlags_core_gang (s : State) (f : Flags) : (s.orFlags f).core.gang = s.core.gang := rfl
@[simp] theorem orFlags_core_frec (s : State) (f : Flags) : (s.orFlags f).core.frec = s.core.frec := rfl
@[simp] theorem orFlags_core_wbuf (s : State) (f : Flags) : (s.orFlags f).core.wbuf = s.core.wbuf := rfl
@[simp] theorem orFlags_core_wfail (s : State) (f : Flags) : (s.orFlags f).core.wfail = s.core.wfail := rfl
@[simp] theorem orFlags_core_queues (s : State) (f : Flags) : (s.orFlags f).core.queues = s.core.queues := rfl
@[simp] theorem orFlags_core_nsSize (s : State) (f : Flags) : (s.orFlags f).core.nsSize = s.core.nsSize := rfl
@[simp] theorem orFlags_core_nsOwner (s : State) (f : Flags) : (s.orFlags f).core.nsOwner = s.core.nsOwner := rfl
@[simp] theorem orFlags_core_l1 (s : State) (f : Flags) : (s.orFlags f).core.l1 = s.core.l1 := rfl
@[simp] theorem orFlags_core_rep (s : State) (f : Flags) : (s.orFlags f).core.rep = s.core.rep := rfl
@[simp] theorem orFlags_core_standby (s : State) (f : Flags) : (s.orFlags f).core.standby = s.core.standby := rfl
@[simp] theorem orFlags_core_held (s : State) (f : Flags) : (s.orFlags f).core.held = s.core.held := rfl
@[simp] theorem orFlags_core_tlb (s : State) (f : Flags) : (s.orFlags f).core.tlb = s.core.tlb := rfl
@[simp] theorem orFlags_core_cpt (s : State) (f : Flags) : (s.orFlags f).core.cpt = s.core.cpt := rfl
@[simp] theorem orFlags_core_npt (s : State) (f : Flags) : (s.orFlags f).core.npt = s.core.npt := rfl
@[simp] theorem orFlags_core_wtab (s : State) (f : Flags) : (s.orFlags f).core.wtab = s.core.wtab := rfl
@[simp] theorem orFlags_core_link (s : State) (f : Flags) : (s.orFlags f).core.link = s.core.link := rfl
@[simp] theorem orFlags_m_mr (s : State) (f : Flags) : (s.orFlags f).core.m.mr = s.core.m.mr := rfl
@[simp] theorem orFlags_m_lat (s : State) (f : Flags) : (s.orFlags f).core.m.lat = s.core.m.lat := rfl
@[simp] theorem orFlags_m_bar (s : State) (f : Flags) : (s.orFlags f).core.m.bar = s.core.m.bar := rfl
@[simp] theorem orFlags_m_ended (s : State) (f : Flags) : (s.orFlags f).core.m.ended = s.core.m.ended := rfl
@[simp] theorem orFlags_m_owed (s : State) (f : Flags) : (s.orFlags f).core.m.owed = s.core.m.owed := rfl
@[simp] theorem orFlags_m_wait (s : State) (f : Flags) : (s.orFlags f).core.m.wait = s.core.m.wait := rfl
@[simp] theorem orFlags_m_ns (s : State) (f : Flags) : (s.orFlags f).core.m.ns = s.core.m.ns := rfl

/-! setRepIdx. -/

@[simp] theorem setRepIdx_others (s : State) (k : Nat) : (s.setRepIdx k).others = s.others := rfl
@[simp] theorem setRepIdx_turns (s : State) (k : Nat) : (s.setRepIdx k).turns = s.turns := rfl
@[simp] theorem setRepIdx_events (s : State) (k : Nat) : (s.setRepIdx k).events = s.events := rfl
@[simp] theorem setRepIdx_fresh (s : State) (k : Nat) : (s.setRepIdx k).fresh = s.fresh := rfl
@[simp] theorem setRepIdx_ptc (s : State) (k : Nat) : (s.setRepIdx k).ptc = s.ptc := rfl
@[simp] theorem setRepIdx_clock (s : State) (k : Nat) : (s.setRepIdx k).clock = s.clock := rfl
@[simp] theorem setRepIdx_mem (s : State) (k : Nat) : (s.setRepIdx k).mem = s.mem := rfl
@[simp] theorem setRepIdx_bad (s : State) (k : Nat) : (s.setRepIdx k).bad = s.bad := rfl
@[simp] theorem setRepIdx_sent (s : State) (k : Nat) : (s.setRepIdx k).sent = s.sent := rfl
@[simp] theorem setRepIdx_vaultOwner (s : State) (k : Nat) : (s.setRepIdx k).vaultOwner = s.vaultOwner := rfl
@[simp] theorem setRepIdx_frames (s : State) (k : Nat) : (s.setRepIdx k).frames = s.frames := rfl
@[simp] theorem setRepIdx_blocks (s : State) (k : Nat) : (s.setRepIdx k).blocks = s.blocks := rfl
@[simp] theorem setRepIdx_pages (s : State) (k : Nat) : (s.setRepIdx k).pages = s.pages := rfl
@[simp] theorem setRepIdx_regions (s : State) (k : Nat) : (s.setRepIdx k).regions = s.regions := rfl
@[simp] theorem setRepIdx_moves (s : State) (k : Nat) : (s.setRepIdx k).moves = s.moves := rfl
@[simp] theorem setRepIdx_ctxs (s : State) (k : Nat) : (s.setRepIdx k).ctxs = s.ctxs := rfl
@[simp] theorem setRepIdx_rr (s : State) (k : Nat) : (s.setRepIdx k).rr = s.rr := rfl
@[simp] theorem setRepIdx_queues (s : State) (k : Nat) : (s.setRepIdx k).queues = s.queues := rfl
@[simp] theorem setRepIdx_outstanding (s : State) (k : Nat) : (s.setRepIdx k).outstanding = s.outstanding := rfl
@[simp] theorem setRepIdx_completions (s : State) (k : Nat) : (s.setRepIdx k).completions = s.completions := rfl
@[simp] theorem setRepIdx_graphs (s : State) (k : Nat) : (s.setRepIdx k).graphs = s.graphs := rfl
@[simp] theorem setRepIdx_seqno (s : State) (k : Nat) : (s.setRepIdx k).seqno = s.seqno := rfl
@[simp] theorem setRepIdx_irqs (s : State) (k : Nat) : (s.setRepIdx k).irqs = s.irqs := rfl
@[simp] theorem setRepIdx_parts (s : State) (k : Nat) : (s.setRepIdx k).parts = s.parts := rfl
@[simp] theorem setRepIdx_qos (s : State) (k : Nat) : (s.setRepIdx k).qos = s.qos := rfl
@[simp] theorem setRepIdx_arbs (s : State) (k : Nat) : (s.setRepIdx k).arbs = s.arbs := rfl
@[simp] theorem setRepIdx_channels (s : State) (k : Nat) : (s.setRepIdx k).channels = s.channels := rfl
@[simp] theorem setRepIdx_dies (s : State) (k : Nat) : (s.setRepIdx k).dies = s.dies := rfl
@[simp] theorem setRepIdx_islands (s : State) (k : Nat) : (s.setRepIdx k).islands = s.islands := rfl
@[simp] theorem setRepIdx_bup (s : State) (k : Nat) : (s.setRepIdx k).bup = s.bup := rfl
@[simp] theorem setRepIdx_groups (s : State) (k : Nat) : (s.setRepIdx k).groups = s.groups := rfl
@[simp] theorem setRepIdx_ready (s : State) (k : Nat) : (s.setRepIdx k).ready = s.ready := rfl
@[simp] theorem setRepIdx_podid (s : State) (k : Nat) : (s.setRepIdx k).podid = s.podid := rfl
@[simp] theorem setRepIdx_podv (s : State) (k : Nat) : (s.setRepIdx k).podv = s.podv := rfl
@[simp] theorem setRepIdx_podSlow (s : State) (k : Nat) : (s.setRepIdx k).podSlow = s.podSlow := rfl
@[simp] theorem setRepIdx_pcap (s : State) (k : Nat) : (s.setRepIdx k).pcap = s.pcap := rfl
@[simp] theorem setRepIdx_exports (s : State) (k : Nat) : (s.setRepIdx k).exports = s.exports := rfl
@[simp] theorem setRepIdx_heldReqs (s : State) (k : Nat) : (s.setRepIdx k).heldReqs = s.heldReqs := rfl
@[simp] theorem setRepIdx_hbmStacks (s : State) (k : Nat) : (s.setRepIdx k).hbmStacks = s.hbmStacks := rfl
@[simp] theorem setRepIdx_pcs (s : State) (k : Nat) : (s.setRepIdx k).pcs = s.pcs := rfl
@[simp] theorem setRepIdx_marks (s : State) (k : Nat) : (s.setRepIdx k).marks = s.marks := rfl
@[simp] theorem setRepIdx_slate (s : State) (k : Nat) : (s.setRepIdx k).slate = s.slate := rfl
@[simp] theorem setRepIdx_core_id (s : State) (k : Nat) : (s.setRepIdx k).core.id = s.core.id := rfl
@[simp] theorem setRepIdx_core_part (s : State) (k : Nat) : (s.setRepIdx k).core.part = s.core.part := rfl
@[simp] theorem setRepIdx_core_slot (s : State) (k : Nat) : (s.setRepIdx k).core.slot = s.core.slot := rfl
@[simp] theorem setRepIdx_core_handle (s : State) (k : Nat) : (s.setRepIdx k).core.handle = s.core.handle := rfl
@[simp] theorem setRepIdx_core_gidx (s : State) (k : Nat) : (s.setRepIdx k).core.gidx = s.core.gidx := rfl
@[simp] theorem setRepIdx_core_gang (s : State) (k : Nat) : (s.setRepIdx k).core.gang = s.core.gang := rfl
@[simp] theorem setRepIdx_core_frec (s : State) (k : Nat) : (s.setRepIdx k).core.frec = s.core.frec := rfl
@[simp] theorem setRepIdx_core_wbuf (s : State) (k : Nat) : (s.setRepIdx k).core.wbuf = s.core.wbuf := rfl
@[simp] theorem setRepIdx_core_wfail (s : State) (k : Nat) : (s.setRepIdx k).core.wfail = s.core.wfail := rfl
@[simp] theorem setRepIdx_core_queues (s : State) (k : Nat) : (s.setRepIdx k).core.queues = s.core.queues := rfl
@[simp] theorem setRepIdx_core_nsSize (s : State) (k : Nat) : (s.setRepIdx k).core.nsSize = s.core.nsSize := rfl
@[simp] theorem setRepIdx_core_nsOwner (s : State) (k : Nat) : (s.setRepIdx k).core.nsOwner = s.core.nsOwner := rfl
@[simp] theorem setRepIdx_core_l1 (s : State) (k : Nat) : (s.setRepIdx k).core.l1 = s.core.l1 := rfl
@[simp] theorem setRepIdx_core_rep (s : State) (k : Nat) : (s.setRepIdx k).core.rep = s.core.rep := rfl
@[simp] theorem setRepIdx_core_standby (s : State) (k : Nat) : (s.setRepIdx k).core.standby = s.core.standby := rfl
@[simp] theorem setRepIdx_core_held (s : State) (k : Nat) : (s.setRepIdx k).core.held = s.core.held := rfl
@[simp] theorem setRepIdx_core_tlb (s : State) (k : Nat) : (s.setRepIdx k).core.tlb = s.core.tlb := rfl
@[simp] theorem setRepIdx_core_cpt (s : State) (k : Nat) : (s.setRepIdx k).core.cpt = s.core.cpt := rfl
@[simp] theorem setRepIdx_core_npt (s : State) (k : Nat) : (s.setRepIdx k).core.npt = s.core.npt := rfl
@[simp] theorem setRepIdx_core_wtab (s : State) (k : Nat) : (s.setRepIdx k).core.wtab = s.core.wtab := rfl
@[simp] theorem setRepIdx_core_link (s : State) (k : Nat) : (s.setRepIdx k).core.link = s.core.link := rfl
@[simp] theorem setRepIdx_m_mr (s : State) (k : Nat) : (s.setRepIdx k).core.m.mr = s.core.m.mr := rfl
@[simp] theorem setRepIdx_m_lat (s : State) (k : Nat) : (s.setRepIdx k).core.m.lat = s.core.m.lat := rfl
@[simp] theorem setRepIdx_m_bar (s : State) (k : Nat) : (s.setRepIdx k).core.m.bar = s.core.m.bar := rfl
@[simp] theorem setRepIdx_m_ended (s : State) (k : Nat) : (s.setRepIdx k).core.m.ended = s.core.m.ended := rfl
@[simp] theorem setRepIdx_m_owed (s : State) (k : Nat) : (s.setRepIdx k).core.m.owed = s.core.m.owed := rfl
@[simp] theorem setRepIdx_m_wait (s : State) (k : Nat) : (s.setRepIdx k).core.m.wait = s.core.m.wait := rfl
@[simp] theorem setRepIdx_m_ns (s : State) (k : Nat) : (s.setRepIdx k).core.m.ns = s.core.m.ns := rfl

/-! unlink. -/

@[simp] theorem unlink_others (s : State) : (s.unlink).others = s.others := rfl
@[simp] theorem unlink_turns (s : State) : (s.unlink).turns = s.turns := rfl
@[simp] theorem unlink_events (s : State) : (s.unlink).events = s.events := rfl
@[simp] theorem unlink_fresh (s : State) : (s.unlink).fresh = s.fresh := rfl
@[simp] theorem unlink_ptc (s : State) : (s.unlink).ptc = s.ptc := rfl
@[simp] theorem unlink_clock (s : State) : (s.unlink).clock = s.clock := rfl
@[simp] theorem unlink_mem (s : State) : (s.unlink).mem = s.mem := rfl
@[simp] theorem unlink_bad (s : State) : (s.unlink).bad = s.bad := rfl
@[simp] theorem unlink_sent (s : State) : (s.unlink).sent = s.sent := rfl
@[simp] theorem unlink_vaultOwner (s : State) : (s.unlink).vaultOwner = s.vaultOwner := rfl
@[simp] theorem unlink_frames (s : State) : (s.unlink).frames = s.frames := rfl
@[simp] theorem unlink_blocks (s : State) : (s.unlink).blocks = s.blocks := rfl
@[simp] theorem unlink_pages (s : State) : (s.unlink).pages = s.pages := rfl
@[simp] theorem unlink_regions (s : State) : (s.unlink).regions = s.regions := rfl
@[simp] theorem unlink_moves (s : State) : (s.unlink).moves = s.moves := rfl
@[simp] theorem unlink_ctxs (s : State) : (s.unlink).ctxs = s.ctxs := rfl
@[simp] theorem unlink_rr (s : State) : (s.unlink).rr = s.rr := rfl
@[simp] theorem unlink_queues (s : State) : (s.unlink).queues = s.queues := rfl
@[simp] theorem unlink_outstanding (s : State) : (s.unlink).outstanding = s.outstanding := rfl
@[simp] theorem unlink_completions (s : State) : (s.unlink).completions = s.completions := rfl
@[simp] theorem unlink_graphs (s : State) : (s.unlink).graphs = s.graphs := rfl
@[simp] theorem unlink_seqno (s : State) : (s.unlink).seqno = s.seqno := rfl
@[simp] theorem unlink_irqs (s : State) : (s.unlink).irqs = s.irqs := rfl
@[simp] theorem unlink_parts (s : State) : (s.unlink).parts = s.parts := rfl
@[simp] theorem unlink_qos (s : State) : (s.unlink).qos = s.qos := rfl
@[simp] theorem unlink_arbs (s : State) : (s.unlink).arbs = s.arbs := rfl
@[simp] theorem unlink_channels (s : State) : (s.unlink).channels = s.channels := rfl
@[simp] theorem unlink_dies (s : State) : (s.unlink).dies = s.dies := rfl
@[simp] theorem unlink_islands (s : State) : (s.unlink).islands = s.islands := rfl
@[simp] theorem unlink_bup (s : State) : (s.unlink).bup = s.bup := rfl
@[simp] theorem unlink_groups (s : State) : (s.unlink).groups = s.groups := rfl
@[simp] theorem unlink_ready (s : State) : (s.unlink).ready = s.ready := rfl
@[simp] theorem unlink_podid (s : State) : (s.unlink).podid = s.podid := rfl
@[simp] theorem unlink_podv (s : State) : (s.unlink).podv = s.podv := rfl
@[simp] theorem unlink_podSlow (s : State) : (s.unlink).podSlow = s.podSlow := rfl
@[simp] theorem unlink_pcap (s : State) : (s.unlink).pcap = s.pcap := rfl
@[simp] theorem unlink_exports (s : State) : (s.unlink).exports = s.exports := rfl
@[simp] theorem unlink_heldReqs (s : State) : (s.unlink).heldReqs = s.heldReqs := rfl
@[simp] theorem unlink_hbmStacks (s : State) : (s.unlink).hbmStacks = s.hbmStacks := rfl
@[simp] theorem unlink_pcs (s : State) : (s.unlink).pcs = s.pcs := rfl
@[simp] theorem unlink_marks (s : State) : (s.unlink).marks = s.marks := rfl
@[simp] theorem unlink_slate (s : State) : (s.unlink).slate = s.slate := rfl
@[simp] theorem unlink_core_id (s : State) : (s.unlink).core.id = s.core.id := rfl
@[simp] theorem unlink_core_part (s : State) : (s.unlink).core.part = s.core.part := rfl
@[simp] theorem unlink_core_slot (s : State) : (s.unlink).core.slot = s.core.slot := rfl
@[simp] theorem unlink_core_handle (s : State) : (s.unlink).core.handle = s.core.handle := rfl
@[simp] theorem unlink_core_gidx (s : State) : (s.unlink).core.gidx = s.core.gidx := rfl
@[simp] theorem unlink_core_gang (s : State) : (s.unlink).core.gang = s.core.gang := rfl
@[simp] theorem unlink_core_frec (s : State) : (s.unlink).core.frec = s.core.frec := rfl
@[simp] theorem unlink_core_wbuf (s : State) : (s.unlink).core.wbuf = s.core.wbuf := rfl
@[simp] theorem unlink_core_wfail (s : State) : (s.unlink).core.wfail = s.core.wfail := rfl
@[simp] theorem unlink_core_queues (s : State) : (s.unlink).core.queues = s.core.queues := rfl
@[simp] theorem unlink_core_nsSize (s : State) : (s.unlink).core.nsSize = s.core.nsSize := rfl
@[simp] theorem unlink_core_nsOwner (s : State) : (s.unlink).core.nsOwner = s.core.nsOwner := rfl
@[simp] theorem unlink_core_l1 (s : State) : (s.unlink).core.l1 = s.core.l1 := rfl
@[simp] theorem unlink_core_rep (s : State) : (s.unlink).core.rep = s.core.rep := rfl
@[simp] theorem unlink_core_standby (s : State) : (s.unlink).core.standby = s.core.standby := rfl
@[simp] theorem unlink_core_held (s : State) : (s.unlink).core.held = s.core.held := rfl
@[simp] theorem unlink_core_tlb (s : State) : (s.unlink).core.tlb = s.core.tlb := rfl
@[simp] theorem unlink_core_cpt (s : State) : (s.unlink).core.cpt = s.core.cpt := rfl
@[simp] theorem unlink_core_npt (s : State) : (s.unlink).core.npt = s.core.npt := rfl
@[simp] theorem unlink_core_wtab (s : State) : (s.unlink).core.wtab = s.core.wtab := rfl
@[simp] theorem unlink_core_link (s : State) : s.unlink.core.link = none := rfl
@[simp] theorem unlink_core_m (s : State) : (s.unlink).core.m = s.core.m := rfl

/-! The image. -/

@[simp] theorem setImg_img (s : State) (i : Image) : (s.setImg i).img = i := rfl
@[simp] theorem setImg_setImg (s : State) (i j : Image) : (s.setImg i).setImg j = s.setImg j := rfl
@[simp] theorem setImg_self (s : State) : s.setImg s.img = s := rfl
@[simp] theorem writeS_img_rs (s : State) (d : SReg) (v : Word) : (s.writeS d v).img.rs = s.img.rs := by unfold State.writeS; split <;> rfl
@[simp] theorem writeS_img_p (s : State) (d : SReg) (v : Word) : (s.writeS d v).img.p = s.img.p := by unfold State.writeS; split <;> rfl
@[simp] theorem writeS_img_m (s : State) (d : SReg) (v : Word) : (s.writeS d v).img.m = s.img.m := by unfold State.writeS; split <;> rfl
@[simp] theorem writeS_img_sh (s : State) (d : SReg) (v : Word) : (s.writeS d v).img.sh = s.img.sh := by unfold State.writeS; split <;> rfl
@[simp] theorem writeS_img_status (s : State) (d : SReg) (v : Word) : (s.writeS d v).img.status = s.img.status := by unfold State.writeS; split <;> rfl
@[simp] theorem writeS_img_viewV (s : State) (d : SReg) (v : Word) : (s.writeS d v).img.viewV = s.img.viewV := by unfold State.writeS; split <;> rfl
@[simp] theorem writeS_img_viewT (s : State) (d : SReg) (v : Word) : (s.writeS d v).img.viewT = s.img.viewT := by unfold State.writeS; split <;> rfl
@[simp] theorem writeS_img_viewAcc (s : State) (d : SReg) (v : Word) : (s.writeS d v).img.viewAcc = s.img.viewAcc := by unfold State.writeS; split <;> rfl
@[simp] theorem writeS_img_seed (s : State) (d : SReg) (v : Word) : (s.writeS d v).img.seed = s.img.seed := by unfold State.writeS; split <;> rfl
@[simp] theorem writeS_img_ctr (s : State) (d : SReg) (v : Word) : (s.writeS d v).img.ctr = s.img.ctr := by unfold State.writeS; split <;> rfl
@[simp] theorem writeS_img_pc (s : State) (d : SReg) (v : Word) : (s.writeS d v).img.pc = s.img.pc := by unfold State.writeS; split <;> rfl
@[simp] theorem writeS_img_q (s : State) (d : SReg) (v : Word) : (s.writeS d v).img.q = s.img.q := by unfold State.writeS; split <;> rfl
@[simp] theorem writeS_img_scq (s : State) (d : SReg) (v : Word) : (s.writeS d v).img.scq = s.img.scq := by unfold State.writeS; split <;> rfl
@[simp] theorem writeS_img_late (s : State) (d : SReg) (v : Word) : (s.writeS d v).img.late = s.img.late := by unfold State.writeS; split <;> rfl
@[simp] theorem writeS_img_held (s : State) (d : SReg) (v : Word) : (s.writeS d v).img.held = s.img.held := by unfold State.writeS; split <;> rfl
@[simp] theorem writeP_img_rs (s : State) (d : PReg) (v : Bool) : (s.writeP d v).img.rs = s.img.rs := by unfold State.writeP; split <;> rfl
@[simp] theorem writeP_img_s (s : State) (d : PReg) (v : Bool) : (s.writeP d v).img.s = s.img.s := by unfold State.writeP; split <;> rfl
@[simp] theorem writeP_img_m (s : State) (d : PReg) (v : Bool) : (s.writeP d v).img.m = s.img.m := by unfold State.writeP; split <;> rfl
@[simp] theorem writeP_img_sh (s : State) (d : PReg) (v : Bool) : (s.writeP d v).img.sh = s.img.sh := by unfold State.writeP; split <;> rfl
@[simp] theorem writeP_img_status (s : State) (d : PReg) (v : Bool) : (s.writeP d v).img.status = s.img.status := by unfold State.writeP; split <;> rfl
@[simp] theorem writeP_img_viewV (s : State) (d : PReg) (v : Bool) : (s.writeP d v).img.viewV = s.img.viewV := by unfold State.writeP; split <;> rfl
@[simp] theorem writeP_img_viewT (s : State) (d : PReg) (v : Bool) : (s.writeP d v).img.viewT = s.img.viewT := by unfold State.writeP; split <;> rfl
@[simp] theorem writeP_img_viewAcc (s : State) (d : PReg) (v : Bool) : (s.writeP d v).img.viewAcc = s.img.viewAcc := by unfold State.writeP; split <;> rfl
@[simp] theorem writeP_img_seed (s : State) (d : PReg) (v : Bool) : (s.writeP d v).img.seed = s.img.seed := by unfold State.writeP; split <;> rfl
@[simp] theorem writeP_img_ctr (s : State) (d : PReg) (v : Bool) : (s.writeP d v).img.ctr = s.img.ctr := by unfold State.writeP; split <;> rfl
@[simp] theorem writeP_img_pc (s : State) (d : PReg) (v : Bool) : (s.writeP d v).img.pc = s.img.pc := by unfold State.writeP; split <;> rfl
@[simp] theorem writeP_img_q (s : State) (d : PReg) (v : Bool) : (s.writeP d v).img.q = s.img.q := by unfold State.writeP; split <;> rfl
@[simp] theorem writeP_img_scq (s : State) (d : PReg) (v : Bool) : (s.writeP d v).img.scq = s.img.scq := by unfold State.writeP; split <;> rfl
@[simp] theorem writeP_img_late (s : State) (d : PReg) (v : Bool) : (s.writeP d v).img.late = s.img.late := by unfold State.writeP; split <;> rfl
@[simp] theorem writeP_img_held (s : State) (d : PReg) (v : Bool) : (s.writeP d v).img.held = s.img.held := by unfold State.writeP; split <;> rfl
@[simp] theorem writeM_img_rs (s : State) (d : MReg) (v : BitVec 1024) : (s.writeM d v).img.rs = s.img.rs := by unfold State.writeM; split <;> rfl
@[simp] theorem writeM_img_s (s : State) (d : MReg) (v : BitVec 1024) : (s.writeM d v).img.s = s.img.s := by unfold State.writeM; split <;> rfl
@[simp] theorem writeM_img_p (s : State) (d : MReg) (v : BitVec 1024) : (s.writeM d v).img.p = s.img.p := by unfold State.writeM; split <;> rfl
@[simp] theorem writeM_img_sh (s : State) (d : MReg) (v : BitVec 1024) : (s.writeM d v).img.sh = s.img.sh := by unfold State.writeM; split <;> rfl
@[simp] theorem writeM_img_status (s : State) (d : MReg) (v : BitVec 1024) : (s.writeM d v).img.status = s.img.status := by unfold State.writeM; split <;> rfl
@[simp] theorem writeM_img_viewV (s : State) (d : MReg) (v : BitVec 1024) : (s.writeM d v).img.viewV = s.img.viewV := by unfold State.writeM; split <;> rfl
@[simp] theorem writeM_img_viewT (s : State) (d : MReg) (v : BitVec 1024) : (s.writeM d v).img.viewT = s.img.viewT := by unfold State.writeM; split <;> rfl
@[simp] theorem writeM_img_viewAcc (s : State) (d : MReg) (v : BitVec 1024) : (s.writeM d v).img.viewAcc = s.img.viewAcc := by unfold State.writeM; split <;> rfl
@[simp] theorem writeM_img_seed (s : State) (d : MReg) (v : BitVec 1024) : (s.writeM d v).img.seed = s.img.seed := by unfold State.writeM; split <;> rfl
@[simp] theorem writeM_img_ctr (s : State) (d : MReg) (v : BitVec 1024) : (s.writeM d v).img.ctr = s.img.ctr := by unfold State.writeM; split <;> rfl
@[simp] theorem writeM_img_pc (s : State) (d : MReg) (v : BitVec 1024) : (s.writeM d v).img.pc = s.img.pc := by unfold State.writeM; split <;> rfl
@[simp] theorem writeM_img_q (s : State) (d : MReg) (v : BitVec 1024) : (s.writeM d v).img.q = s.img.q := by unfold State.writeM; split <;> rfl
@[simp] theorem writeM_img_scq (s : State) (d : MReg) (v : BitVec 1024) : (s.writeM d v).img.scq = s.img.scq := by unfold State.writeM; split <;> rfl
@[simp] theorem writeM_img_late (s : State) (d : MReg) (v : BitVec 1024) : (s.writeM d v).img.late = s.img.late := by unfold State.writeM; split <;> rfl
@[simp] theorem writeM_img_held (s : State) (d : MReg) (v : BitVec 1024) : (s.writeM d v).img.held = s.img.held := by unfold State.writeM; split <;> rfl
@[simp] theorem writeSh_img_rs (s : State) (d : ShReg) (v : BitVec 512) : (s.writeSh d v).img.rs = s.img.rs := rfl
@[simp] theorem writeSh_img_s (s : State) (d : ShReg) (v : BitVec 512) : (s.writeSh d v).img.s = s.img.s := rfl
@[simp] theorem writeSh_img_p (s : State) (d : ShReg) (v : BitVec 512) : (s.writeSh d v).img.p = s.img.p := rfl
@[simp] theorem writeSh_img_m (s : State) (d : ShReg) (v : BitVec 512) : (s.writeSh d v).img.m = s.img.m := rfl
@[simp] theorem writeSh_img_status (s : State) (d : ShReg) (v : BitVec 512) : (s.writeSh d v).img.status = s.img.status := rfl
@[simp] theorem writeSh_img_viewV (s : State) (d : ShReg) (v : BitVec 512) : (s.writeSh d v).img.viewV = s.img.viewV := rfl
@[simp] theorem writeSh_img_viewT (s : State) (d : ShReg) (v : BitVec 512) : (s.writeSh d v).img.viewT = s.img.viewT := rfl
@[simp] theorem writeSh_img_viewAcc (s : State) (d : ShReg) (v : BitVec 512) : (s.writeSh d v).img.viewAcc = s.img.viewAcc := rfl
@[simp] theorem writeSh_img_seed (s : State) (d : ShReg) (v : BitVec 512) : (s.writeSh d v).img.seed = s.img.seed := rfl
@[simp] theorem writeSh_img_ctr (s : State) (d : ShReg) (v : BitVec 512) : (s.writeSh d v).img.ctr = s.img.ctr := rfl
@[simp] theorem writeSh_img_pc (s : State) (d : ShReg) (v : BitVec 512) : (s.writeSh d v).img.pc = s.img.pc := rfl
@[simp] theorem writeSh_img_q (s : State) (d : ShReg) (v : BitVec 512) : (s.writeSh d v).img.q = s.img.q := rfl
@[simp] theorem writeSh_img_scq (s : State) (d : ShReg) (v : BitVec 512) : (s.writeSh d v).img.scq = s.img.scq := rfl
@[simp] theorem writeSh_img_late (s : State) (d : ShReg) (v : BitVec 512) : (s.writeSh d v).img.late = s.img.late := rfl
@[simp] theorem writeSh_img_held (s : State) (d : ShReg) (v : BitVec 512) : (s.writeSh d v).img.held = s.img.held := rfl
@[simp] theorem setPc_img_rs (s : State) (v : Word) : (s.setPc v).img.rs = s.img.rs := rfl
@[simp] theorem setPc_img_s (s : State) (v : Word) : (s.setPc v).img.s = s.img.s := rfl
@[simp] theorem setPc_img_p (s : State) (v : Word) : (s.setPc v).img.p = s.img.p := rfl
@[simp] theorem setPc_img_m (s : State) (v : Word) : (s.setPc v).img.m = s.img.m := rfl
@[simp] theorem setPc_img_sh (s : State) (v : Word) : (s.setPc v).img.sh = s.img.sh := rfl
@[simp] theorem setPc_img_status (s : State) (v : Word) : (s.setPc v).img.status = s.img.status := rfl
@[simp] theorem setPc_img_viewV (s : State) (v : Word) : (s.setPc v).img.viewV = s.img.viewV := rfl
@[simp] theorem setPc_img_viewT (s : State) (v : Word) : (s.setPc v).img.viewT = s.img.viewT := rfl
@[simp] theorem setPc_img_viewAcc (s : State) (v : Word) : (s.setPc v).img.viewAcc = s.img.viewAcc := rfl
@[simp] theorem setPc_img_seed (s : State) (v : Word) : (s.setPc v).img.seed = s.img.seed := rfl
@[simp] theorem setPc_img_ctr (s : State) (v : Word) : (s.setPc v).img.ctr = s.img.ctr := rfl
@[simp] theorem setPc_img_q (s : State) (v : Word) : (s.setPc v).img.q = s.img.q := rfl
@[simp] theorem setPc_img_scq (s : State) (v : Word) : (s.setPc v).img.scq = s.img.scq := rfl
@[simp] theorem setPc_img_late (s : State) (v : Word) : (s.setPc v).img.late = s.img.late := rfl
@[simp] theorem setPc_img_held (s : State) (v : Word) : (s.setPc v).img.held = s.img.held := rfl
@[simp] theorem orFlags_img_rs (s : State) (f : Flags) : (s.orFlags f).img.rs = s.img.rs := rfl
@[simp] theorem orFlags_img_s (s : State) (f : Flags) : (s.orFlags f).img.s = s.img.s := rfl
@[simp] theorem orFlags_img_p (s : State) (f : Flags) : (s.orFlags f).img.p = s.img.p := rfl
@[simp] theorem orFlags_img_m (s : State) (f : Flags) : (s.orFlags f).img.m = s.img.m := rfl
@[simp] theorem orFlags_img_sh (s : State) (f : Flags) : (s.orFlags f).img.sh = s.img.sh := rfl
@[simp] theorem orFlags_img_viewV (s : State) (f : Flags) : (s.orFlags f).img.viewV = s.img.viewV := rfl
@[simp] theorem orFlags_img_viewT (s : State) (f : Flags) : (s.orFlags f).img.viewT = s.img.viewT := rfl
@[simp] theorem orFlags_img_viewAcc (s : State) (f : Flags) : (s.orFlags f).img.viewAcc = s.img.viewAcc := rfl
@[simp] theorem orFlags_img_seed (s : State) (f : Flags) : (s.orFlags f).img.seed = s.img.seed := rfl
@[simp] theorem orFlags_img_ctr (s : State) (f : Flags) : (s.orFlags f).img.ctr = s.img.ctr := rfl
@[simp] theorem orFlags_img_pc (s : State) (f : Flags) : (s.orFlags f).img.pc = s.img.pc := rfl
@[simp] theorem orFlags_img_q (s : State) (f : Flags) : (s.orFlags f).img.q = s.img.q := rfl
@[simp] theorem orFlags_img_scq (s : State) (f : Flags) : (s.orFlags f).img.scq = s.img.scq := rfl
@[simp] theorem orFlags_img_late (s : State) (f : Flags) : (s.orFlags f).img.late = s.img.late := rfl
@[simp] theorem orFlags_img_held (s : State) (f : Flags) : (s.orFlags f).img.held = s.img.held := rfl
@[simp] theorem setRepIdx_img_rs (s : State) (k : Nat) : (s.setRepIdx k).img.rs = s.img.rs := rfl
@[simp] theorem setRepIdx_img_s (s : State) (k : Nat) : (s.setRepIdx k).img.s = s.img.s := rfl
@[simp] theorem setRepIdx_img_p (s : State) (k : Nat) : (s.setRepIdx k).img.p = s.img.p := rfl
@[simp] theorem setRepIdx_img_m (s : State) (k : Nat) : (s.setRepIdx k).img.m = s.img.m := rfl
@[simp] theorem setRepIdx_img_sh (s : State) (k : Nat) : (s.setRepIdx k).img.sh = s.img.sh := rfl
@[simp] theorem setRepIdx_img_viewV (s : State) (k : Nat) : (s.setRepIdx k).img.viewV = s.img.viewV := rfl
@[simp] theorem setRepIdx_img_viewT (s : State) (k : Nat) : (s.setRepIdx k).img.viewT = s.img.viewT := rfl
@[simp] theorem setRepIdx_img_viewAcc (s : State) (k : Nat) : (s.setRepIdx k).img.viewAcc = s.img.viewAcc := rfl
@[simp] theorem setRepIdx_img_seed (s : State) (k : Nat) : (s.setRepIdx k).img.seed = s.img.seed := rfl
@[simp] theorem setRepIdx_img_ctr (s : State) (k : Nat) : (s.setRepIdx k).img.ctr = s.img.ctr := rfl
@[simp] theorem setRepIdx_img_pc (s : State) (k : Nat) : (s.setRepIdx k).img.pc = s.img.pc := rfl
@[simp] theorem setRepIdx_img_q (s : State) (k : Nat) : (s.setRepIdx k).img.q = s.img.q := rfl
@[simp] theorem setRepIdx_img_scq (s : State) (k : Nat) : (s.setRepIdx k).img.scq = s.img.scq := rfl
@[simp] theorem setRepIdx_img_late (s : State) (k : Nat) : (s.setRepIdx k).img.late = s.img.late := rfl
@[simp] theorem setRepIdx_img_held (s : State) (k : Nat) : (s.setRepIdx k).img.held = s.img.held := rfl
@[simp] theorem unlink_img_rs (s : State) : (s.unlink).img.rs = s.img.rs := rfl
@[simp] theorem unlink_img_s (s : State) : (s.unlink).img.s = s.img.s := rfl
@[simp] theorem unlink_img_p (s : State) : (s.unlink).img.p = s.img.p := rfl
@[simp] theorem unlink_img_m (s : State) : (s.unlink).img.m = s.img.m := rfl
@[simp] theorem unlink_img_sh (s : State) : (s.unlink).img.sh = s.img.sh := rfl
@[simp] theorem unlink_img_status (s : State) : (s.unlink).img.status = s.img.status := rfl
@[simp] theorem unlink_img_viewV (s : State) : (s.unlink).img.viewV = s.img.viewV := rfl
@[simp] theorem unlink_img_viewT (s : State) : (s.unlink).img.viewT = s.img.viewT := rfl
@[simp] theorem unlink_img_viewAcc (s : State) : (s.unlink).img.viewAcc = s.img.viewAcc := rfl
@[simp] theorem unlink_img_seed (s : State) : (s.unlink).img.seed = s.img.seed := rfl
@[simp] theorem unlink_img_ctr (s : State) : (s.unlink).img.ctr = s.img.ctr := rfl
@[simp] theorem unlink_img_pc (s : State) : (s.unlink).img.pc = s.img.pc := rfl
@[simp] theorem unlink_img_q (s : State) : (s.unlink).img.q = s.img.q := rfl
@[simp] theorem unlink_img_scq (s : State) : (s.unlink).img.scq = s.img.scq := rfl
@[simp] theorem unlink_img_late (s : State) : (s.unlink).img.late = s.img.late := rfl
@[simp] theorem unlink_img_held (s : State) : (s.unlink).img.held = s.img.held := rfl
@[simp] theorem setPc_pc (s : State) (v : Word) : (s.setPc v).img.pc = v := rfl

/-! Going on. -/

/-- Outside a REP unit an instruction goes on behind itself. -/
theorem retire_none (s : State) (n : Nat) (h : s.core.rep = none) : s.retire n = s.unlink.setPc (s.img.pc + BitVec.ofNat 64 n) := by
  simp only [State.retire, unlink_core_rep, h]
  rfl

/-- A repetition that is not the last leaves the program counter. -/
theorem retire_again (s : State) (n : Nat) (r : Rep) (h : s.core.rep = some r) (hk : s.repIdx < r.cnt.toNat) :
    s.retire n = s.unlink.setRepIdx (s.repIdx + 1) := by
  have e : s.unlink.repIdx = s.repIdx := rfl
  simp only [State.retire, unlink_core_rep, h, e, hk, if_true]

/-- The last repetition ends its unit. -/
theorem retire_last (s : State) (n : Nat) (r : Rep) (h : s.core.rep = some r) (hk : ¬ s.repIdx < r.cnt.toNat) :
    s.retire n = { (s.unlink.setRepIdx 0).setPc (s.img.pc + BitVec.ofNat 64 n) with
                     core := { ((s.unlink.setRepIdx 0).setPc (s.img.pc + BitVec.ofNat 64 n)).core with rep := none } } := by
  have e : s.unlink.repIdx = s.repIdx := rfl
  simp only [State.retire, unlink_core_rep, h, e, hk, if_false]
  rfl

/-- Going on changes the core alone. -/
theorem retire_core (s : State) (n : Nat) : s.retire n = { s with core := (s.retire n).core } := by
  unfold State.retire
  dsimp only
  split
  · rfl
  · split <;> rfl

@[simp] theorem retire_others (s : State) (n : Nat) : (s.retire n).others = s.others := by rw [retire_core]
@[simp] theorem retire_turns (s : State) (n : Nat) : (s.retire n).turns = s.turns := by rw [retire_core]
@[simp] theorem retire_events (s : State) (n : Nat) : (s.retire n).events = s.events := by rw [retire_core]
@[simp] theorem retire_fresh (s : State) (n : Nat) : (s.retire n).fresh = s.fresh := by rw [retire_core]
@[simp] theorem retire_ptc (s : State) (n : Nat) : (s.retire n).ptc = s.ptc := by rw [retire_core]
@[simp] theorem retire_clock (s : State) (n : Nat) : (s.retire n).clock = s.clock := by rw [retire_core]
@[simp] theorem retire_mem (s : State) (n : Nat) : (s.retire n).mem = s.mem := by rw [retire_core]
@[simp] theorem retire_bad (s : State) (n : Nat) : (s.retire n).bad = s.bad := by rw [retire_core]
@[simp] theorem retire_sent (s : State) (n : Nat) : (s.retire n).sent = s.sent := by rw [retire_core]
@[simp] theorem retire_vaultOwner (s : State) (n : Nat) : (s.retire n).vaultOwner = s.vaultOwner := by rw [retire_core]
@[simp] theorem retire_frames (s : State) (n : Nat) : (s.retire n).frames = s.frames := by rw [retire_core]
@[simp] theorem retire_blocks (s : State) (n : Nat) : (s.retire n).blocks = s.blocks := by rw [retire_core]
@[simp] theorem retire_pages (s : State) (n : Nat) : (s.retire n).pages = s.pages := by rw [retire_core]
@[simp] theorem retire_regions (s : State) (n : Nat) : (s.retire n).regions = s.regions := by rw [retire_core]
@[simp] theorem retire_moves (s : State) (n : Nat) : (s.retire n).moves = s.moves := by rw [retire_core]
@[simp] theorem retire_ctxs (s : State) (n : Nat) : (s.retire n).ctxs = s.ctxs := by rw [retire_core]
@[simp] theorem retire_rr (s : State) (n : Nat) : (s.retire n).rr = s.rr := by rw [retire_core]
@[simp] theorem retire_queues (s : State) (n : Nat) : (s.retire n).queues = s.queues := by rw [retire_core]
@[simp] theorem retire_outstanding (s : State) (n : Nat) : (s.retire n).outstanding = s.outstanding := by rw [retire_core]
@[simp] theorem retire_completions (s : State) (n : Nat) : (s.retire n).completions = s.completions := by rw [retire_core]
@[simp] theorem retire_graphs (s : State) (n : Nat) : (s.retire n).graphs = s.graphs := by rw [retire_core]
@[simp] theorem retire_seqno (s : State) (n : Nat) : (s.retire n).seqno = s.seqno := by rw [retire_core]
@[simp] theorem retire_irqs (s : State) (n : Nat) : (s.retire n).irqs = s.irqs := by rw [retire_core]
@[simp] theorem retire_parts (s : State) (n : Nat) : (s.retire n).parts = s.parts := by rw [retire_core]
@[simp] theorem retire_qos (s : State) (n : Nat) : (s.retire n).qos = s.qos := by rw [retire_core]
@[simp] theorem retire_arbs (s : State) (n : Nat) : (s.retire n).arbs = s.arbs := by rw [retire_core]
@[simp] theorem retire_channels (s : State) (n : Nat) : (s.retire n).channels = s.channels := by rw [retire_core]
@[simp] theorem retire_dies (s : State) (n : Nat) : (s.retire n).dies = s.dies := by rw [retire_core]
@[simp] theorem retire_islands (s : State) (n : Nat) : (s.retire n).islands = s.islands := by rw [retire_core]
@[simp] theorem retire_bup (s : State) (n : Nat) : (s.retire n).bup = s.bup := by rw [retire_core]
@[simp] theorem retire_groups (s : State) (n : Nat) : (s.retire n).groups = s.groups := by rw [retire_core]
@[simp] theorem retire_ready (s : State) (n : Nat) : (s.retire n).ready = s.ready := by rw [retire_core]
@[simp] theorem retire_podid (s : State) (n : Nat) : (s.retire n).podid = s.podid := by rw [retire_core]
@[simp] theorem retire_podv (s : State) (n : Nat) : (s.retire n).podv = s.podv := by rw [retire_core]
@[simp] theorem retire_podSlow (s : State) (n : Nat) : (s.retire n).podSlow = s.podSlow := by rw [retire_core]
@[simp] theorem retire_pcap (s : State) (n : Nat) : (s.retire n).pcap = s.pcap := by rw [retire_core]
@[simp] theorem retire_exports (s : State) (n : Nat) : (s.retire n).exports = s.exports := by rw [retire_core]
@[simp] theorem retire_heldReqs (s : State) (n : Nat) : (s.retire n).heldReqs = s.heldReqs := by rw [retire_core]
@[simp] theorem retire_hbmStacks (s : State) (n : Nat) : (s.retire n).hbmStacks = s.hbmStacks := by rw [retire_core]
@[simp] theorem retire_pcs (s : State) (n : Nat) : (s.retire n).pcs = s.pcs := by rw [retire_core]
@[simp] theorem retire_marks (s : State) (n : Nat) : (s.retire n).marks = s.marks := by rw [retire_core]
@[simp] theorem retire_slate (s : State) (n : Nat) : (s.retire n).slate = s.slate := by rw [retire_core]

/-! The members of the image that going on leaves. -/

@[simp] theorem retire_img_rs (s : State) (n : Nat) : (s.retire n).img.rs = s.img.rs := by unfold State.retire; dsimp only; split; (· rfl); (· split <;> rfl)
@[simp] theorem retire_img_s (s : State) (n : Nat) : (s.retire n).img.s = s.img.s := by unfold State.retire; dsimp only; split; (· rfl); (· split <;> rfl)
@[simp] theorem retire_img_p (s : State) (n : Nat) : (s.retire n).img.p = s.img.p := by unfold State.retire; dsimp only; split; (· rfl); (· split <;> rfl)
@[simp] theorem retire_img_m (s : State) (n : Nat) : (s.retire n).img.m = s.img.m := by unfold State.retire; dsimp only; split; (· rfl); (· split <;> rfl)
@[simp] theorem retire_img_sh (s : State) (n : Nat) : (s.retire n).img.sh = s.img.sh := by unfold State.retire; dsimp only; split; (· rfl); (· split <;> rfl)
@[simp] theorem retire_img_viewV (s : State) (n : Nat) : (s.retire n).img.viewV = s.img.viewV := by unfold State.retire; dsimp only; split; (· rfl); (· split <;> rfl)
@[simp] theorem retire_img_viewT (s : State) (n : Nat) : (s.retire n).img.viewT = s.img.viewT := by unfold State.retire; dsimp only; split; (· rfl); (· split <;> rfl)
@[simp] theorem retire_img_viewAcc (s : State) (n : Nat) : (s.retire n).img.viewAcc = s.img.viewAcc := by unfold State.retire; dsimp only; split; (· rfl); (· split <;> rfl)
@[simp] theorem retire_img_seed (s : State) (n : Nat) : (s.retire n).img.seed = s.img.seed := by unfold State.retire; dsimp only; split; (· rfl); (· split <;> rfl)
@[simp] theorem retire_img_ctr (s : State) (n : Nat) : (s.retire n).img.ctr = s.img.ctr := by unfold State.retire; dsimp only; split; (· rfl); (· split <;> rfl)
@[simp] theorem retire_img_q (s : State) (n : Nat) : (s.retire n).img.q = s.img.q := by unfold State.retire; dsimp only; split; (· rfl); (· split <;> rfl)
@[simp] theorem retire_img_scq (s : State) (n : Nat) : (s.retire n).img.scq = s.img.scq := by unfold State.retire; dsimp only; split; (· rfl); (· split <;> rfl)
@[simp] theorem retire_img_late (s : State) (n : Nat) : (s.retire n).img.late = s.img.late := by unfold State.retire; dsimp only; split; (· rfl); (· split <;> rfl)
@[simp] theorem retire_img_held (s : State) (n : Nat) : (s.retire n).img.held = s.img.held := by unfold State.retire; dsimp only; split; (· rfl); (· split <;> rfl)

end Sys2Proof.Machine
end

