-- ==== Sys2Proof/Laws/Ops.lean ====
section
/-!
SUPPORT. What the shared operations can do, said once: how an instruction under a guard ends, what a store of the program thread
does to memory, that reset is canonical, and the registers behind a write.
-/

namespace Sys2Proof.Machine

open Sys2Proof

/-! How an instruction ends (R37, R350, R352). -/

/-- A false guard: nothing but going on. -/
theorem perform_skip {unit : Nat} {g : Guard} {len : Nat} {body : State → Except Stop State} {s : State} (h : s.guardTrue g = false) :
    perform unit g len body s = .next (s.retire len) := by simp [perform, h]

/-- The effect, then going on. -/
theorem perform_ok {unit : Nat} {g : Guard} {len : Nat} {body : State → Except Stop State} {s t : State} (h : s.guardTrue g = true)
    (hb : body s = .ok t) : perform unit g len body s = .next (t.retire len) := by simp [perform, h, hb]

/-- A fault, on the state before. -/
theorem perform_fault {unit : Nat} {g : Guard} {len : Nat} {body : State → Except Stop State} {s : State} {st : Stop} (h : s.guardTrue g = true)
    (hb : body s = .error st) : perform unit g len body s = .next (s.deliver unit st) := by simp [perform, h, hb]

/-- Everything that `perform` can do. -/
theorem perform_cases {unit : Nat} {g : Guard} {len : Nat} {body : State → Except Stop State} {s u : State} (h : perform unit g len body s = .next u) :
    (s.guardTrue g = false ∧ u = s.retire len) ∨ (s.guardTrue g = true ∧ ∃ t, body s = .ok t ∧ u = t.retire len) ∨
      (s.guardTrue g = true ∧ ∃ st, body s = .error st ∧ u = s.deliver unit st) := by
  cases hg : s.guardTrue g with
  | false => rw [perform_skip hg] at h; cases h; exact .inl ⟨rfl, rfl⟩
  | true =>
    cases hb : body s with
    | ok t => rw [perform_ok hg hb] at h; cases h; exact .inr (.inl ⟨rfl, t, rfl, rfl⟩)
    | error st => rw [perform_fault hg hb] at h; cases h; exact .inr (.inr ⟨rfl, st, rfl, rfl⟩)

/-- A false guard: nothing but going on. -/
theorem performPure_skip {g : Guard} {len : Nat} {body : State → State} {s : State} (h : s.guardTrue g = false) :
    performPure g len body s = .next (s.retire len) := by simp [performPure, h]

/-- The effect, then going on. -/
theorem performPure_ok {g : Guard} {len : Nat} {body : State → State} {s : State} (h : s.guardTrue g = true) :
    performPure g len body s = .next ((body s).retire len) := by simp [performPure, h]

/-- Everything that `performPure` can do. -/
theorem performPure_cases {g : Guard} {len : Nat} {body : State → State} {s u : State} (h : performPure g len body s = .next u) :
    (s.guardTrue g = false ∧ u = s.retire len) ∨ (s.guardTrue g = true ∧ u = (body s).retire len) := by
  cases hg : s.guardTrue g with
  | false => rw [performPure_skip hg] at h; cases h; exact .inl ⟨rfl, rfl⟩
  | true => rw [performPure_ok hg] at h; cases h; exact .inr ⟨rfl, rfl⟩

/-- A false guard: nothing but going on. -/
theorem runFate_skip {unit : Nat} {g : Guard} {len : Nat} {body : State → Except Stop Fate} {s : State} (h : s.guardTrue g = false) :
    runFate unit g len body s = .next (s.retire len) := by simp [runFate, h]

/-- The fate of the effect. -/
theorem runFate_ok {unit : Nat} {g : Guard} {len : Nat} {body : State → Except Stop Fate} {s : State} {f : Fate} (h : s.guardTrue g = true)
    (hb : body s = .ok f) : runFate unit g len body s = .next (f.close len) := by simp [runFate, h, hb]

/-- A fault, on the state before. -/
theorem runFate_fault {unit : Nat} {g : Guard} {len : Nat} {body : State → Except Stop Fate} {s : State} {st : Stop} (h : s.guardTrue g = true)
    (hb : body s = .error st) : runFate unit g len body s = .next (s.deliver unit st) := by simp [runFate, h, hb]

/-- Everything that `runFate` can do. -/
theorem runFate_cases {unit : Nat} {g : Guard} {len : Nat} {body : State → Except Stop Fate} {s u : State} (h : runFate unit g len body s = .next u) :
    (s.guardTrue g = false ∧ u = s.retire len) ∨ (s.guardTrue g = true ∧ ∃ f, body s = .ok f ∧ u = f.close len) ∨
      (s.guardTrue g = true ∧ ∃ st, body s = .error st ∧ u = s.deliver unit st) := by
  cases hg : s.guardTrue g with
  | false => rw [runFate_skip hg] at h; cases h; exact .inl ⟨rfl, rfl⟩
  | true =>
    cases hb : body s with
    | ok f => rw [runFate_ok hg hb] at h; cases h; exact .inr (.inl ⟨rfl, f, rfl, rfl⟩)
    | error st => rw [runFate_fault hg hb] at h; cases h; exact .inr (.inr ⟨rfl, st, rfl, rfl⟩)

/-! Registers. -/

/-- s0 reads zero. -/
@[simp] theorem readS_zero (s : State) : s.readS 0 = 0 := rfl

/-- A write to s0 is discarded. -/
@[simp] theorem writeS_zero (s : State) (v : Word) : s.writeS 0 v = s := rfl

/-- A scalar reads what was written to it. -/
theorem readS_writeS_self (s : State) (d : SReg) (v : Word) (h : d ≠ 0) : (s.writeS d v).readS d = v := by
  unfold State.writeS State.readS
  rw [if_neg h, if_neg h, setImg_img]
  exact Vector.getElem_set_self ..

/-- A write leaves the other scalars. -/
theorem readS_writeS_other (s : State) (d r : SReg) (v : Word) (h : r ≠ d) : (s.writeS d v).readS r = s.readS r := by
  have hn : d.toNat ≠ r.toNat := fun e => h (BitVec.eq_of_toNat_eq e).symm
  by_cases hd : d = 0
  · subst hd; rfl
  · unfold State.writeS State.readS
    rw [if_neg hd, setImg_img]
    split
    · rfl
    · exact Vector.getElem_set_ne d.isLt r.isLt hn

/-- p0 reads one. -/
@[simp] theorem readP_zero (s : State) : s.readP 0 = true := rfl

/-- A write to p0 is discarded. -/
@[simp] theorem writeP_zero (s : State) (v : Bool) : s.writeP 0 v = s := rfl

/-- m0 reads all ones. -/
@[simp] theorem readM_zero (s : State) : s.readM 0 = BitVec.allOnes 1024 := rfl

/-- A write to m0 is discarded. -/
@[simp] theorem writeM_zero (s : State) (v : BitVec 1024) : s.writeM 0 v = s := rfl

/-- Going on leaves every scalar. -/
@[simp] theorem readS_retire (s : State) (n : Nat) (r : SReg) : (s.retire n).readS r = s.readS r := by
  unfold State.readS; simp

/-- Going on leaves every predicate. -/
@[simp] theorem readP_retire (s : State) (n : Nat) (p : PReg) : (s.retire n).readP p = s.readP p := by
  unfold State.readP; simp

/-- Going on leaves every mask. -/
@[simp] theorem readM_retire (s : State) (n : Nat) (m : MReg) : (s.retire n).readM m = s.readM m := by
  unfold State.readM; simp

/-! Memory behind a store. -/

/-- A store of the program thread splices its bytes in. -/
@[simp] theorem store_mem (s : State) (pa : Nat) (bs : List Byte) : (s.store pa bs).mem = s.mem.splice pa bs := rfl

/-- A store keeps the canonical form. -/
theorem store_wf (s : State) (pa : Nat) (bs : List Byte) (h : s.mem.wf = true) : (s.store pa bs).mem.wf = true := wf_splice _ _ _ h

/-- Dropping copies leaves memory. -/
@[simp] theorem snoop_mem (s : State) (pa n : Nat) : (s.snoop pa n).mem = s.mem := rfl

/-- An island's count of absent answers leaves memory. -/
@[simp] theorem countIsland_mem (s : State) (a : Nat) : (s.countIsland a).mem = s.mem := by
  unfold State.countIsland
  dsimp only
  split <;> rfl

/-- Counting an absent endpoint leaves memory. -/
@[simp] theorem countAbsent_mem (s : State) (e d : Nat) : (s.countAbsent e d).mem = s.mem := countIsland_mem ..

/-- Counting a poisoned write leaves memory. -/
@[simp] theorem countPoison_mem (s : State) (e g : Nat) : (s.countPoison e g).mem = s.mem := by simp [State.countPoison]

/-- Writing pod memory leaves memory. -/
@[simp] theorem sendPod_mem (s : State) (a : Nat) (bs : List Byte) : (s.sendPod a bs).mem = s.mem := rfl

/-- A store at a place keeps the canonical form, wherever the place is. -/
theorem storeAt_wf (s : State) (l : Loc) (bs : List Byte) (h : s.mem.wf = true) : (s.storeAt l bs).mem.wf = true := by
  unfold State.storeAt
  split <;> first | exact store_wf _ _ _ h | simpa using h

/-- A store of parts keeps the canonical form. -/
theorem storeParts_wf (ps : List (Loc × Nat)) : ∀ (s : State) (bs : List Byte), s.mem.wf = true → (s.storeParts ps bs).mem.wf = true := by
  induction ps with
  | nil => intro s bs h; exact h
  | cons p ps ih => intro s bs h; exact ih _ _ (storeAt_wf _ _ _ h)

/-- Reset memory is canonical. -/
theorem reset_wf : State.reset.mem.wf = true := rfl

/-! Noting accesses, and errors. -/

/-- Noting that lines were reached leaves memory. -/
@[simp] theorem noteLines_mem (s : State) (ls : List Nat) : (s.noteLines ls).mem = s.mem := rfl

/-- Learning a translation leaves memory. -/
@[simp] theorem learn_mem (s : State) (pa n : Nat) : (s.learn pa n).mem = s.mem := rfl

/-- Learning translations leaves everything outside the core. -/
theorem foldl_learn_core (ps : List Nat) : ∀ s : State, ps.foldl (fun t pa => t.learn pa 4) s = { s with core := (ps.foldl (fun t pa => t.learn pa 4) s).core } := by
  induction ps with
  | nil => intro s; rfl
  | cons p ps ih => intro s; rw [List.foldl_cons, ih]; rfl

/-- The fetch changes the pages' accesses and the core's translations alone. -/
theorem noteFetch_core (s : State) : s.noteFetch = { s with core := s.noteFetch.core, pages := s.noteFetch.pages } := by
  unfold State.noteFetch
  split
  · rfl
  · split
    · rfl
    · dsimp only
      rw [foldl_learn_core]
      rfl

/-- The fetch leaves memory. -/
@[simp] theorem noteFetch_mem (s : State) : s.noteFetch.mem = s.mem := by rw [noteFetch_core]

/-- With no error in the register space no operand is bad. -/
theorem operandError_none (s : State) (d : Decoded) (h : ∀ u ∈ s.bad, u.1 ≠ 0) : s.operandError d = none := by
  have : s.bad.all (fun u => u.1 != 0) = true := by simpa using h
  simp [State.operandError, this]

/-! Giving the turn. -/

/-- Giving the turn to a core leaves memory. -/
@[simp] theorem focus_mem (s : State) (id : BitVec 10) : (s.focus id).mem = s.mem := by
  unfold State.focus; split <;> rfl

/-- Time passes without a change of memory. -/
@[simp] theorem passTime_mem (s : State) : s.passTime.mem = s.mem := rfl

/-- A turn is taken without a change of memory. -/
@[simp] theorem tick_mem (s : State) : s.tick.mem = s.mem := by
  unfold State.tick; dsimp only; split <;> simp

/-- A fold whose every step leaves the start as it is. -/
theorem foldl_same {α β : Type} (f : β → α → β) (b : β) (l : List α) (h : ∀ x ∈ l, f b x = b) : l.foldl f b = b := by
  induction l with
  | nil => rfl
  | cons x l ih =>
    rw [List.foldl_cons, h x List.mem_cons_self]
    exact ih (fun y hy => h y (List.mem_cons_of_mem _ hy))

/-- With no write stream open, the posted writes of the core are done (R148). -/
theorem settleWrites_none (s : State) (mask : BitVec 16) (h : ∀ q : Fin 8, s.img.q[q].dir ≠ .write) : s.settleWrites mask = s :=
  foldl_same _ _ _ (fun q _ => if_neg (by simp only [Bool.and_eq_true, beq_iff_eq]; exact fun hd => h q hd.1))

/-- With no write stream open and no accepted write of the context waiting at a stack, none is held (R426). -/
theorem writesHeld_none (s : State) (mask : BitVec 16) (h : ∀ q : Fin 8, s.img.q[q].dir ≠ .write)
    (hp : s.core.handle.bind s.postedBy = none) : s.writesHeld mask = none := by
  unfold State.writesHeld
  split
  · rfl
  · rw [hp, Option.orElse_none, List.findSome?_eq_none_iff]
    exact fun q _ => if_neg (by simp only [Bool.and_eq_true, beq_iff_eq]; exact fun hd => h q hd.1)

/-- Then there is nothing to wait for (R263, R264). -/
theorem settled_none (s : State) (mask : BitVec 16) (h : ∀ q : Fin 8, s.img.q[q].dir ≠ .write)
    (hp : s.core.handle.bind s.postedBy = none) : s.settled mask = .ok s := by
  unfold State.settled
  rw [writesHeld_none s mask h hp, settleWrites_none s mask h]

/-- The same for a member alone in its gang (R338). -/
theorem quiet_none (s : State) (h : ∀ q : Fin 8, s.img.q[q].dir ≠ .write) (hp : s.core.handle.bind s.postedBy = none)
    (hg : ∀ c, s.self = some c → c.gang = 0) : s.quiet = .ok s := by
  unfold State.quiet
  split
  · rename_i c hc
    rw [if_pos (by simp [hg c hc])]
    exact settled_none s _ h hp
  · exact settled_none s _ h hp

/-- What a step is, by the choice made (R29, R47). -/
theorem step_cases (s : State) : step s = match s.tick.choose with
    | .idle => .next s.tick
    | .skip => .next s.tick.popEvent
    | .event i => exec i s.tick.popEvent
    | .run d => (match s.tick.startError d with
        | none => exec d.instr s.tick.noteFetch
        | some (unit, e) => .next (s.tick.deliver unit e))
    | .illegal => exec .illegalEncoding s.tick
    | .fetchFault => exec .fetchFault s.tick
    | .noMemory pa => .fault (.noSuchAddress pa) := rfl

end Sys2Proof.Machine
end

