-- ==== Sys2Proof/Tests/Slice0.lean ====
section
/-!
SUPPORT. Tests: ill-formed terms that the checks refuse, words written out from the worked encodings of the manual, a few single
steps with results worked by hand from the rules, and for each statement a state and operands that meet its hypotheses.
-/

set_option maxRecDepth 100000
set_option Elab.async false

namespace Sys2Proof.Tests

open Sys2Proof Sys2Proof.Machine

/-- The guard that is always true (R37). -/
abbrev yes : Guard := ⟨0, false⟩

/-! Ill-formed terms: one for each check. -/

theorem test_ill_guards :
    (Instr.add ⟨0, true⟩ false 1 2 3).wellFormed = false ∧ (Instr.haltc ⟨0, true⟩).wellFormed = false ∧
    (Instr.vnot ⟨0, true⟩ .int8 (.reg 0) (.reg 0) 0).wellFormed = false := by decide

theorem test_ill_spaces_and_registers :
    (Instr.lds64 yes .d 0 .reg 1 2 3).wellFormed = false ∧ (Instr.shst yes 0 .reg 1 2 3).wellFormed = false ∧
    (Instr.csrw yes 1 .core).wellFormed = false ∧ (Instr.csrw yes 1 .ctx).wellFormed = false ∧ (Instr.csrw yes 1 .dmap).wellFormed = false ∧
    (Instr.wload yes .bf16 0 .reg false false false 0 1 2).wellFormed = false ∧ (Instr.wtab yes 0 .reg 1 2).wellFormed = false ∧
    (Instr.gather yes .co 0 .reg 1 2 3).wellFormed = false ∧ (Instr.xpose yes .bf16 .co 0 .reg .ns 1 2 3).wellFormed = false ∧
    (Instr.aor yes .int32 .co 0 .reg .rlx 1 2 3).wellFormed = false ∧ (Instr.signal yes .int64 .co 0 .reg false 1 2).wellFormed = false ∧
    (Instr.ownGive yes .co .virt .thread .ce 1 0).wellFormed = false ∧ (Instr.ownTest yes .reg 1 2 0).wellFormed = false ∧
    (Instr.copy yes .co 0 .virt .virt 1 2 3).wellFormed = false := by decide

theorem test_ill_formats :
    (Instr.vadd yes .int64 .rne false (.reg 0) (.reg 1) (.reg 2) 0).wellFormed = false ∧
    (Instr.vadd yes .int32 .rtz false (.reg 0) (.reg 1) (.reg 2) 0).wellFormed = false ∧
    (Instr.vshl yes .fp32 (.reg 0) (.reg 1) (.reg 2) 0).wellFormed = false ∧ (Instr.vrcp yes .int8 .rne false (.reg 0) (.reg 1) 0).wellFormed = false ∧
    (Instr.vsplatLit yes .uint8 .sr false (.reg 0) 1 0).wellFormed = false ∧
    (Instr.qcvt yes .fp32 .bf16 .rne (.reg 0) (.reg 1) 0).wellFormed = false ∧ (Instr.qcvt yes .e2m1 .fp32 .rne (.reg 0) (.reg 8) 0).wellFormed = false ∧
    (Instr.qdcvt yes .fp32 .e2m1 .rne false (.reg 0) (.reg 1) 0).wellFormed = false ∧
    (Instr.lq yes .bf16 .bf16 false 0 (.reg 1) 2).wellFormed = false ∧ (Instr.rngget yes .int32 (.reg 0) 0).wellFormed = false ∧
    (Instr.mma yes .fp32 false 0 (.tile 0) 0).wellFormed = false ∧ (Instr.mmal yes .int8 false 0 (.tile 0) 0).wellFormed = false ∧
    (Instr.cfillLit yes .int64 .co 0 .ns 1 2 8).wellFormed = false ∧ (Instr.wload yes .fp32 0 .ns false false false 0 1 2).wellFormed = false ∧
    (Instr.wload yes .bf16 0 .ns true false false 0 1 2).wellFormed = false ∧ (Instr.wload yes .e2m1 0 .ns false true false 0 1 2).wellFormed = false ∧
    (Instr.wload yes .bf16 0 .ns false false true 0 1 2).wellFormed = false ∧
    (Instr.aadd yes .fp32 .sr .co 0 .ns .rlx 1 2 3).wellFormed = false ∧ (Instr.aadd yes .int32 .rtz .co 0 .ns .rlx 1 2 3).wellFormed = false ∧
    (Instr.aor yes .fp32 .co 0 .ns .rlx 1 2 3).wellFormed = false ∧ (Instr.vaor yes .fp32 .co 0 .ns 0 1 2 (.reg 3)).wellFormed = false ∧
    (Instr.waitm yes .int32 .co 0 .ns .eq false 1 2 3).wellFormed = false := by decide

theorem test_ill_pairs_and_alignment :
    (Instr.vcvt yes .fp32 .uint4 .rne false (.reg 0) (.reg 1)).wellFormed = false ∧
    (Instr.vcvt yes .fp32 .bf16 .rne false (.reg 1) (.reg 2)).wellFormed = false ∧
    (Instr.vcvt yes .fp32 .bf16 .rne false (.reg 2) (.reg 1)).wellFormed = true ∧
    (Instr.vcvt yes .int16 .int8 .rtz false (.reg 2) (.reg 1)).wellFormed = false ∧
    (Instr.vwadd yes .int8 .int16 .rne false (.reg 0) (.reg 1) (.reg 2)).wellFormed = false ∧
    (Instr.vnarrow yes .int16 .int8 .rne false (.reg 0) (.reg 2) 1).wellFormed = false ∧
    (Instr.vzip yes .int8 (.reg 1) (.reg 2) (.reg 3)).wellFormed = false ∧ (Instr.vperm yes .int8 (.reg 0) (.reg 1) (.reg 55) 0).wellFormed = false ∧
    (Instr.vperm yes .int8 (.reg 0) (.reg 1) (.reg 54) 0).wellFormed = true ∧ (Instr.vperm yes .int8 (.reg 0) (.reg 1) (.queue 0) 0).wellFormed = false ∧
    (Instr.mmas yes .bf16 false 0 (.tile 0) 1 2).wellFormed = false := by decide

theorem test_ill_operands :
    (Instr.mdrain yes .bf16 .rne false .pk 0 .virt false (.tile 0) 0 1).wellFormed = false ∧
    (Instr.mdrain yes .int4 .rne false .co 0 .virt false (.tile 0) 0 1).wellFormed = false ∧
    (Instr.ownGive yes .co .ns .res .ce 1 0).wellFormed = false ∧ (Instr.bar yes .co 1 2 3).wellFormed = false ∧
    (Instr.park yes false false false 1).wellFormed = false ∧ (Instr.ctxset yes 1 2 4).wellFormed = false ∧
    (Instr.partcfg yes 16 false 1 2 3).wellFormed = false ∧ (Instr.partcfg yes 19 true 1 2 0).wellFormed = false ∧
    (Instr.partcfg yes 3 true 1 2 4).wellFormed = false ∧ (Instr.partcfgLit yes 3 true 1 2 4).wellFormed = false ∧
    (Instr.qoscfg yes true 1 2 3).wellFormed = false ∧ (Instr.qoscfgLit yes true 1 2 3).wellFormed = false := by decide

/-! Decoding: words of the manual's worked encodings, chapter by chapter. -/

/-- The parcels decode at level S to an instruction, with nothing left over. -/
noncomputable def reads (ps : List Parcel) (i : Instr) : Bool :=
  match decode true (ps.flatMap parcelBytes) with
  | .ok (j, rest) => decide (j = i) && rest.isEmpty
  | .error _ => false

theorem test_reads_scalar :
    reads [0x1440C008] (.add yes false 3 4 5) ∧ reads [0x0040C00A, 0x00000000, 0x000186A0] (.add96 yes false .x false 3 4 100000) ∧
    reads [0xFFF1E8C0] (.addi ⟨2, true⟩ false 7 (-1)) ∧ reads [0xFFE140B8] (.movi yes false 5 (-2)) ∧ reads [0xFFFEC4F8] (.br ⟨1, false⟩ (-5)) ∧
    reads [0xFFD24118] (.loop yes 9 (-3)) ∧ reads [0x00000128] (.nop yes false) ∧ reads [0x00000130] (.endTask yes) ∧
    reads [0x0000341B] (.rep 1 5 3) ∧ reads [0x2482000C] (.add yes true 8 8 9) ∧ reads [0x30B28019, 0x01000001] (.mul64 yes false .w true 10 11 12) ∧
    reads [0x003040D0] (.cmp yes false 1 3 0) ∧ reads [0x144080D1, 0x00000004] (.cmp64 yes false .ltu 2 4 5) ∧
    reads [0x1440C0A9, 0x00000600] (.sel64 yes false 3 4 5 6) ∧ reads [0x000140BA, 0x00000002, 0x12345678] (.movi96 yes false .hi 5 0x12345678) ∧
    reads [0x0041413A, 0x00000101, 0x00000040] (.lds96 yes .w 0 .vault 5 4 64) ∧ reads [0x00040108] (.call yes 16) ∧ reads [0x03F00110] (.ret yes 63) ∧
    reads [0x00900100] (.jmp yes 9) ∧ reads [0x00018148] (.csrr yes 6 .status) ∧ reads [0x0101C150] (.csrw yes 7 .viewV) ∧
    reads [0x001100B0] (.mov yes false 4 1) ∧ reads [0x0042C138] (.lds yes 11 4 0) ∧ reads [0x00428140] (.sts yes 10 4 0) := by
  decide +kernel

theorem test_reads_access :
    reads [0x002E0185, 0x5] (.openR yes 0 0 2) ∧ reads [0x142E4185, 0x7] (.openG yes 0 1 2 5) ∧ reads [0x000E0186, 8, 0x10] (.advLit yes 0 16) ∧
    reads [0x0000C186, 2, 0x2000] (.shsetLit yes 3 0x2000 0) ∧ reads [0x0381C185, 0x10E] (.posr yes 7 0 1) ∧
    reads [0x18110185, 0xC210] (.vld yes 3 4 1 6 2) ∧ reads [0x24400185, 0x12] (.scld yes 0 4 9) := by
  decide +kernel

theorem test_reads_vector :
    reads [0x27808189, 0x2C000000] (.vadd yes .bf16 .rne false (.reg 2) (.queue 0) (.reg 9) 0) ∧
    reads [0x18510189, 0x2D600002] (.vmul yes .bf16 .rup true (.reg 4) (.reg 5) (.reg 6) 0) ∧
    reads [0x0010418A, 0x2E000000, 0x3F000000] (.vaddLit yes .fp32 .rne false (.reg 1) (.reg 1) 0x3F000000 0) ∧
    reads [0x28920189, 0x2C000303] (.vfma yes .bf16 .rne false 8 (.reg 9) (.reg 10) 3) ∧
    reads [0x14450189, 0x0A00031A] (.vwmul yes .int16 .int8 .rne false (.reg 20) (.reg 4) (.reg 5)) ∧
    reads [0x1C608189, 0x2E000213] (.vcmp yes .fp32 2 (.reg 6) (.reg 7) .lt) ∧
    reads [0x03A04189, 0x2E80041C] (.vredsum yes .fp32 .sr false (.reg 1) (.queue 2) 4) ∧
    reads [0x0000C18A, 0x2C000016, 0x3FC00000] (.vsplatLit yes .bf16 .rne false (.reg 3) 0x3FC00000 0) ∧
    reads [0x0022418A, 0x06000027, 0x11] (.vextLit yes .int8 9 (.reg 2) 17) ∧
    reads [0x02830189, 0x27001618] (.vcvt yes .e4m3 .bf16 .rne true (.reg 12) (.reg 40)) ∧ reads [0x00714189, 0x32] (.mpopc yes 5 7) ∧
    reads [0x08510189, 0x1000000E] (.vshl yes .uint32 (.reg 4) (.reg 5) (.reg 2) 0) := by
  decide +kernel

theorem test_reads_conversion :
    reads [0x01020191, 0x20801600] (.qcvt yes .e2m1 .bf16 .sr (.reg 8) (.reg 16) 0) ∧
    reads [0x04450191, 0x2C001301] (.qdcvt yes .bf16 .e4m3 .rne false (.reg 20) (.reg 4) 1) ∧
    reads [0x00278192, 0x41001602, 0x3F80] (.lqLit yes .l16 .bf16 true 30 (.reg 2) 0x3F80) ∧
    reads [0x15E30191, 0x2E002003] (.ldq yes .fp32 .l16 .rne false 12 (.reg 30) 5) ∧
    reads [0x00210192, 0x40001605, 0x3F80] (.lstatLit yes .l16 .bf16 4 (.reg 2) 0x3F80) ∧ reads [0x1C000191, 6] (.rngseed yes 7) ∧
    reads [0x0000C191, 0x0C000207] (.rngget yes .uint16 (.reg 3) 2) ∧ reads [0x00024192, 9, 3] (.scpopLit yes 9 3) := by
  decide +kernel

theorem test_reads_matrix :
    reads [0x0F800199, 0x26000000] (.mma yes .e4m3 false 0 (.queue 0) 3) ∧
    reads [0x13A04199, 0x21000501] (.mmas yes .e2m1 true 1 (.queue 2) 4 5) ∧
    reads [0x00408199, 0x2C000C02] (.mmag yes .bf16 false 2 4 0 (.reg 12)) ∧ reads [0x1B90C199, 0x2C002003] (.mmal yes .bf16 false 3 (.queue 1) 6) ∧
    reads [0x00014199, 4] (.mzero yes 5) ∧ reads [0x50020199, 0x2C0C0205] (.mdrain yes .bf16 .rne false .pk 0 .ns false (.tile 8) 0 20) ∧
    reads [0x0000019A, 6, 1] (.mcfgLit yes 1) ∧ reads [0x00A08199, 0x42000007] (.wload yes .cb3 0 .virt false false false 2 10 0) ∧
    reads [0x00B1019A, 0x20000407, 0x1040] (.wloadLit yes .e2m1 0 .virt true false false 4 11 4160) ∧
    reads [0x00C00199, 8] (.wtab yes 0 .virt 12 0) ∧ reads [0x04014199, 9] (.wstat yes 5 1) ∧ reads [0x00018199, 0xA] (.mstat yes 6 0) := by
  decide +kernel

theorem test_reads_copy_and_sync :
    reads [0x005101A2, 0x80200, 0x1000] (.copyLit yes .di 0 .ns .virt 4 5 4096) ∧ reads [0x0070C1A1, 0xC0001] (.copyn yes .pk 0 3 7) ∧
    reads [0x142181A1, 0x80102] (.gather yes .di 0 .vault 6 2 5) ∧ reads [0x289201A1, 0x2C000A04] (.xpose yes .bf16 .co 0 .ns .ns 8 9 10) ∧
    reads [0x000141A2, 0x10000205, 0x2000] (.cfillLit yes .uint32 .co 0 .ns 5 0 8192) ∧ reads [0x0000C1A2, 6, 0x38000] (.phaseLit yes 3 229376) ∧
    reads [0x006101A2, 7, 0x200] (.vpushLit yes 0 4 6 512) ∧ reads [0x004001A1, 8] (.cwb yes 4 0) ∧
    reads [0x000001AA, 0xC0000, 6] (.fenceLit yes .pk 6) ∧ reads [0x1C6141A9, 0x12080401] (.aadd yes .int64 .rne .di 0 .virt .acq 5 6 7) ∧
    reads [0x2440C1A9, 0x10000208] (.acas yes .uint32 .co 0 .ns .rlx 3 4 9) ∧ reads [0x244201A9, 0x10040A09] (.vaor yes .uint32 .qd 0 .ns 2 8 4 (.reg 9)) ∧
    reads [0x0C4041A9, 0x20C] (.ownGive yes .co .ns .thread .ce 4 3) ∧ reads [0x0C4001A9, 0x20D] (.ownTake yes .ns .thread 4 3) ∧
    reads [0x003241A9, 0x4000F] (.bar yes .qd 9 3 0) ∧ reads [0x30B281A9, 0x100C0811] (.waitm yes .uint32 .pk 0 .virt .geu false 10 11 12) ∧
    reads [0x00B001AA, 0x100C0412, 1] (.signalLit yes .uint32 .pk 0 .virt true 11 1) ∧
    reads [0x0CC101A9, 0x10040509] (.vaor yes .uint32 .qd 0 .vault 1 4 12 (.reg 3)) := by
  decide +kernel

theorem test_reads_contexts_and_pages :
    reads [0x000141B1, 0] (.cswap yes 5) ∧ reads [0x000001B1, 1] (.yield yes) ∧ reads [0x000181B1, 0x302] (.park yes true true false 6) ∧
    reads [0x000001B2, 0x103, 0x1E8480] (.wakeatLit yes true 2000000) ∧ reads [0x289201B1, 4] (.ctxnew yes 8 9 10) ∧
    reads [0x0040C1B1, 0x206] (.ctxq yes 3 4 2) ∧ reads [0x144001B1, 0x607] (.ctxset yes 4 5 6) ∧ reads [0x00C1C1B2, 8, 5] (.launchLit yes 7 12 5) ∧
    reads [0x1440C1B9, 0x600] (.pgmap yes 3 4 5 6) ∧ reads [0x1440C1B9, 0x101] (.pgunmapGrant yes 3 4 5) ∧ reads [0x0040C1B9, 2] (.pgpin yes 3 4) ∧
    reads [0x0040C1B9, 0x204] (.pgmove yes 3 4 2) ∧ reads [0x006141B9, 0x405] (.pghint yes 5 6 4) ∧ reads [0x0040C1BA, 6, 0x100] (.kvallocLit yes 3 4 256) ∧
    reads [0x0081C1B9, 0x8008] (.kvappend yes 2 7 8) ∧ reads [0x2CA241B9, 0x109] (.kvinval yes 0 true 9 10 11) ∧
    reads [0x00C001BA, 0xA, 0x10000] (.jbeginLit yes 12 65536) ∧ reads [0x000341B9, 0xC] (.jrewind yes 13) := by
  decide +kernel

theorem test_reads_system_links_and_slate :
    reads [0x000001C2, 0, 7] (.trapLit yes 7) ∧ reads [0x000001C1, 1] (.eret yes) ∧ reads [0x1440C1C1, 0xC03] (.partcfg yes 12 false 3 4 5) ∧
    reads [0x000001C2, 5, 3] (.intpostLit yes 3) ∧ reads [0x0040C1C1, 0x206] (.resetdom yes 3 4 2) ∧ reads [0x000141C1, 0x108] (.rdtime yes true 5) ∧
    reads [0x000241C1, 0x109] (.rdlat yes true 9) ∧ reads [0x1C0181C1, 0xA] (.wfe yes 6 7) ∧ reads [0x000001C1, 0xB] (.haltc yes) ∧
    reads [0x1440C1C9, 0x600] (.recast yes .ual true 3 4 5) ∧ reads [0x007181C9, 0x301] (.lnkstat yes 6 7 3) ∧ reads [0x002181C9, 2] (.ristat yes 6 2 0) ∧
    reads [0x009201C9, 0x4003] (.nsend yes 1 8 9) ∧ reads [0x009201C9, 4] (.nfetch yes 0 8 9) ∧ reads [0x00B281CA, 5, 3] (.ringstepLit yes 10 11 3) ∧
    reads [0x0000C1D1, 0x100] (.slcut yes true 3) ∧ reads [0x000101D1, 0x101] (.slwait yes 4 1) ∧ reads [0x180141D1, 2] (.slcommit yes 5 6) ∧
    reads [0x000141D2, 3, 0] (.slrestoreLit yes 5 0) ∧ reads [0x0001C1D1, 0x104] (.slstat yes 7 1) ∧ reads [0x240201D1, 0x205] (.errwatch yes 8 9 2) ∧
    reads [0x0040C1D9, 0x100] (.memhint yes true 3 4) ∧ reads [0x006141D9, 0x301] (.memstat yes 5 6 3) := by
  decide +kernel

/-- The illegal words of chapters 02, 07 and 13, with their reasons. -/
theorem test_illegal_words :
    decodeParcels true [0] = .error .opcode ∧ decodeParcels true [0x120] = .error .opcode ∧ decodeParcels true [0x180] = .error .length ∧
    decodeParcels true [0x191, 0xA] = .error .function ∧ decodeParcels true [0x27808189, 0xAC000000] = .error .zero ∧
    decodeParcels true [0x18D, 0] = .error .marker ∧ decodeParcels true [0x1440E008] = .error .field ∧
    decodeParcels true [0x00104189, 0x0660000A] = .error .zero ∧ decodeParcels true [0x000001B1, 0x00600001] = .error .zero ∧
    Illegal.opcode.code = 1 ∧ Illegal.length.code = 2 ∧ Illegal.function.code = 3 ∧ Illegal.zero.code = 4 ∧ Illegal.marker.code = 5 ∧ Illegal.field.code = 6 ∧
    (repLegal true 0 0 0 (rawOfParcels [0x128])).toOption.isSome = true ∧ repLegal true 0 0 0 (rawOfParcels [3]) = .error .repetition ∧ Illegal.repetition.code = 8 := by
  decide +kernel

/-! Single steps, with the results of the manual's worked examples. -/

def after (o : Host.Outcome State Fault Refusal) : State := match o with | .next t => t | _ => State.reset

/-- A vector whose elements of width `w` begin with some. -/
def vec (w : Nat) (l : List Nat) : Vec := BitVec.ofNat 4096 (l.foldr (fun x n => x + 2 ^ w * n) 0)

/-- The flags of cr.status (R71). -/
def flagsOf (s : State) : Flags := s.img.status.extractLsb' 2 6

/-- The examples of R117 and R120: DIV.w by zero, REM.u by zero, DIV.sat of the least number by −1, SHR.w of a word with bit 31 set. -/
theorem test_div_rem_shr :
    (let t := after (exec (.div64 yes .w false 3 4 0) (State.reset.writeS 4 7)); t.readS 3 = 0xFFFFFFFFFFFFFFFF ∧ flagsOf t = flagDZ) ∧
    (let t := after (exec (.rem64 yes .u 3 4 0) (State.reset.writeS 4 7)); t.readS 3 = 7 ∧ flagsOf t = flagDZ) ∧
    (let t := after (exec (.div96 yes .x true 3 5 0xFFFFFFFF) (State.reset.writeS 5 0x8000000000000000)); t.readS 3 = 0x7FFFFFFFFFFFFFFF ∧ flagsOf t = flagSF) ∧
    (after (exec (.shr96 yes false .w 3 1 0) (State.reset.writeS 1 0x80000000))).readS 3 = 0xFFFFFFFF80000000 := by
  decide +kernel

/-- R47 and R29: step fetches ADDI s7, −1 where withFetchWord puts it. -/
theorem test_step_addi :
    (let t := after (stepRun (State.reset.withFetchWord 32 0xFFF1C0C0)); t.readS 7 = 0xFFFFFFFFFFFFFFFF ∧ t.img.pc = 0x10004) := by
  decide +kernel

/-- The example of R178. -/
theorem test_vsra_vshr :
    (after (exec (.vsraLit yes .uint8 (.reg 3) (.reg 3) 1 0) (State.reset.writeV 3 (vec 8 [0xF0])))).readV 3 = vec 8 [0xF8] ∧
    (after (exec (.vshrLit yes .uint8 (.reg 3) (.reg 3) 9 0) (State.reset.writeV 3 (vec 8 [0xF0])))).readV 3 = vec 8 [0x78] := by
  decide +kernel

/-- The example of R184 and R185. -/
theorem test_vwmul_vnarrow :
    let s := (State.reset.writeV 4 (vec 8 [100, 0xFD, 7, 0x80])).writeV 5 (vec 8 [50, 2, 0xF7, 0x80])
    let t := after (exec (.vwmul yes .int16 .int8 .rne false (.reg 20) (.reg 4) (.reg 5)) s)
    let u := after (exec (.vnarrowLit yes .int8 .int16 .rne true (.reg 6) (.reg 20) 6) t)
    t.readV 20 = vec 8 [0x88, 0x13, 0xC1, 0xFF] ∧ t.readV 21 = vec 8 [0xFA, 0xFF, 0x00, 0x40] ∧ u.readV 6 = vec 8 [0x4E, 0, 0xFF, 0x7F] ∧
    (flagsOf u &&& flagSF) = flagSF := by
  decide +kernel

/-- The example of R196: amax 7, −2.5 and 0.75.  Its list of flags leaves out UF, which R83 sets for the inexact 0.75 (log entry 60). -/
theorem test_qcvt :
    let s := ((State.reset.writeV 16 (vec 16 [0x40E0])).writeV 17 (vec 16 [0xC020])).writeV 18 (vec 16 [0x3F40])
    let t := after (exec (.qcvt yes .e2m1 .bf16 .rne (.reg 8) (.reg 16) 0) s)
    let u := after (exec (.qcvt yes .e2m1 .bf16 .rne (.reg 8) (.reg 16) 2) s)
    t.readV 8 = vec 8 [0xC7, 2] ∧ t.img.scq.map (fun e => e.extractLsb' 0 8) = [0x7F] ∧ flagsOf t = flagOF ||| flagUF ||| flagNX ||| flagSF ∧
    u.readV 8 = vec 8 [0xA6, 1] ∧ u.img.scq.map (fun e => e.extractLsb' 0 8) = [0x80] ∧ flagsOf u = flagUF ||| flagNX := by
  decide +kernel

/-- The examples of R201 to R203: LQ of eight elements, and the decoding of 0xC0E4. -/
theorem test_lattice :
    (let s := State.reset.writeV 2 (vec 16 [0x3E80, 0x3FA0, 0xBFE0, 0xBF00, 0x3EC0, 0x3F00, 0x3F40, 0x4020])
     let t := after (exec (.lqLit yes .l16 .bf16 true 30 (.reg 2) 0x3F80) s)
     (t.readV 30).extractLsb' 0 16 = 0xC0E7 ∧ flagsOf t = flagNX ||| flagSF) ∧
    (List.range 8).map (l16Coord2 0xC0E4) = [1, 3, -3, -1, 1, 1, 1, 1] ∧ (List.range 8).map (l16Coord2 0xC0E7) = [-1, 3, -3, -1, 1, 1, 1, 3] := by
  decide +kernel

/-- The example of R105 and R186. -/
theorem test_vredsum :
    let s := (State.reset.writeV 2 (vec 32 ([0x4B800000, 0x3F800000] ++ List.replicate 62 0 ++ [0xCB800000]))).writeM 4 0x10000000000000003
    (let t := after (exec (.vredsum yes .fp32 .rne false (.reg 1) (.reg 2) 4) s); t.readV 1 = 0 ∧ flagsOf t = flagNX) ∧
    (after (exec (.vredsum yes .fp32 .rup false (.reg 1) (.reg 2) 4) s)).readV 1 = vec 32 [0x40000000] := by
  decide +kernel

/-- The example of R90: 1 + 3 × 2⁻⁹ to BF16 goes to one of its neighbours, and NX is set either way. -/
theorem test_stochastic :
    let r := roundTo .bf16 { Rounding.rne false with rm := .sr } 0 (fpDecode .fp32 0x3F80C000)
    (r.1 = 0x3F80 ∨ r.1 = 0x3F81) ∧ r.2 = flagNX := by
  decide +kernel

/-! States for the witnesses: the package up, a context bound at level U, its program counter at the start of a page that may be
read, written and executed and stands at the same address in HBM4E (DESIGN CHOICE, log 49). -/

def base : State := State.reset.fetchReady

/-- Scalars set. -/
def regs (s : State) (l : List (SReg × Word)) : State := l.foldl (fun t x => t.writeS x.1 x.2) s

/-- Level S. -/
def atS (s : State) : State := s.setImg { s.img with status := s.img.status ||| 1 }

def isOk {α : Type} (x : Except Stop α) : Bool := match x with | .ok _ => true | .error _ => false

theorem exists_ok {α : Type} {x : Except Stop α} (h : isOk x = true) : ∃ a, x = .ok a := by
  cases x with
  | ok a => exact ⟨a, rfl⟩
  | error e => cases h

/-- The conditions of `Mapped`, as a check. -/
def mappedB (s : State) (acc : Acc) (va pa : Nat) : Bool :=
  s.core.link.isNone && (s.windowAt s.core.part va).isNone && (s.islandUp (homeOfVa va) && s.pathUp s.core.die (homeOfVa va)) &&
  (match s.pageAt s.core.part va with
   | some p => p.st == .resident && permits acc p.r p.w p.x && pa == p.frame + (va - p.va)
   | none => false) &&
  (!decide (pa < hbmTop) || s.stackServes pa) &&
  s.dieUp (homeOfPa pa) && s.pathUp s.core.die (homeOfPa pa)

theorem mapped_of {s : State} {acc : Acc} {va pa : Nat} (h : mappedB s acc va pa = true) : Mapped s acc va pa := by
  unfold mappedB at h
  simp only [Bool.and_eq_true, Option.isNone_iff_eq_none] at h
  obtain ⟨⟨⟨⟨⟨⟨hl, hw⟩, hi⟩, hp⟩, hn⟩, hd⟩, hq⟩ := h
  refine ⟨hl, hw, hi, ?_, ?_, hd, hq⟩
  · split at hp
    · rename_i p hpg
      simp only [Bool.and_eq_true, beq_iff_eq] at hp
      exact ⟨p, hpg, hp.1.1, hp.1.2, hp.2⟩
    · cases hp
  · intro hlt
    simpa [hlt] using hn

/-- No write stream, no older copy, no journal. -/
def quietB (s : State) : Bool :=
  (List.finRange 8).all (fun q => s.img.q[q].dir != .write) && s.core.l1.isEmpty &&
  (match s.self with | some c => c.journal.isNone | none => true) && (s.core.handle.bind s.postedBy).isNone

theorem quiet_of {s : State} (h : quietB s = true) : Quiet s := by
  unfold quietB at h
  simp only [Bool.and_eq_true, List.all_eq_true, List.isEmpty_iff, bne_iff_ne] at h
  obtain ⟨⟨⟨hq, hl⟩, hj⟩, hp⟩ := h
  refine ⟨fun q => hq q (List.mem_finRange q), by simpa using hp, ?_, ?_⟩
  · intro x hx
    rw [hl] at hx
    cases hx
  · intro c hc
    rw [hc] at hj
    simpa using hj

theorem clean_of {s : State} (h : quietB s = true) : Clean s := by
  refine ⟨quiet_of h, ?_⟩
  intro x hx
  have hl : s.core.l1 = [] := by
    unfold quietB at h
    simp only [Bool.and_eq_true, List.isEmpty_iff] at h
    exact h.1.1.2
  rw [hl] at hx
  cases hx

/-- The conditions of `Lands`, as a check. -/
def landsB (s : State) (ws : List (Loc × Byte × List Byte)) : Bool :=
  s.core.l1.isEmpty && (match s.self with | some c => c.journal.isNone | none => true) &&
  ws.all (fun w => match w.1 with | .mem pa => s.dieUp (homeOfPa pa) && s.pathUp s.core.die (homeOfPa pa) && (!decide (pa < hbmTop) || s.stackServes pa) | _ => false)

theorem lands_of {s : State} {ws : List (Loc × Byte × List Byte)} (h : landsB s ws = true) : Lands s ws := by
  unfold landsB at h
  simp only [Bool.and_eq_true, List.isEmpty_iff, List.all_eq_true] at h
  obtain ⟨⟨hl, hj⟩, hw⟩ := h
  refine ⟨?_, ?_, ?_⟩
  · intro w hm
    have hp := hw w hm
    cases hw1 : w.1 with
    | mem pa =>
      rw [hw1] at hp
      simp only [Bool.and_eq_true] at hp
      exact ⟨pa, rfl, hp.1.1, hp.1.2, fun h => by simpa [h] using hp.2⟩
    | _ => rw [hw1] at hp; cases hp
  · intro x hx
    rw [hl] at hx
    cases hx
  · intro c hc
    rw [hc] at hj
    simpa using hj

theorem no_data_error_of {st : Stream} (h : st.held = none) : NoDataError st := by
  intro e he
  rw [h] at he
  cases he

theorem sound_of {s : State} {pa n : Nat} (h : s.bad = []) (hb : s.pcs = []) : Sound s pa n := by
  refine ⟨fun u hu => ?_, by simp [State.bankHeld, hb]⟩
  rw [h] at hu
  cases hu

/-- Every state: the guard that is always true (R37). It meets the hypothesis of the statements that have no other. -/
theorem witness_guard (s : State) : s.guardTrue yes = true := by
  simp [State.guardTrue, State.readP]

theorem witness_control_transfers :
    (let t := (base.img.pc + 4 * (BitVec.ofInt 18 (-5)).signExtend 64); t.extractLsb' 57 7 = 0 ∧ t.extractLsb' 0 2 = 0) ∧
    (let t := (regs base [(1, 0x1FFFFFFFFFFFFFC)]).readS 1; t.extractLsb' 57 7 = 0 ∧ t.extractLsb' 0 2 = 0) ∧
    (let s := regs base [(2, 2)]; 1 < (s.readS 2).toNat ∧ (s.img.pc + 4 * (-3 : BitVec 12).signExtend 64).extractLsb' 57 7 = 0) ∧
    (let s := regs base [(2, 1)]; (s.readS 2).toNat ≤ 1 ∧ s.core.rep = none ∧ s.core.m.wait = none) ∧
    (base.img.pc + 4 * (BitVec.ofInt 18 (-131072)).signExtend 64).extractLsb' 57 7 ≠ 0 ∧
    ((regs base [(1, 2)]).readS 1).extractLsb' 0 2 ≠ 0 ∧ ((regs base [(1, 0x200000000000000)]).readS 1).extractLsb' 57 7 ≠ 0 ∧
    (base.readS 1 + (1 : BitVec 32).signExtend 64).extractLsb' 0 2 ≠ 0 ∧
    (let s := (regs base [(2, 2)]).setPc 0; 1 < (s.readS 2).toNat ∧ (s.img.pc + 4 * (-1 : BitVec 12).signExtend 64).extractLsb' 57 7 ≠ 0) := by
  decide +kernel

theorem witness_false_guard_and_retire :
    (rawOf (.add ⟨1, false⟩ false 1 2 3)).isSome = true ∧ base.guardTrue ⟨1, false⟩ = false ∧ base.core.rep = none ∧
    (let r : Rep := { at_ := 0, step := 0, mask := 0, cnt := 1, body := [0x128] }
     let s : State := { base with core := { base.core with rep := some r } }
     s.core.rep = some r ∧ s.repIdx < r.cnt.toNat ∧ (s.setRepIdx 1).core.rep = some r ∧ r.cnt.toNat ≤ (s.setRepIdx 1).repIdx) := by
  decide +kernel

theorem witness_control_registers :
    base.levelS = false ∧ (atS base).levelS = true ∧ base.self.isSome = true ∧ State.reset.self = none ∧ csrReadOnly false .status = false ∧ csrReadOnly true .lat = false ∧ csrReadOnly true .frec = false ∧
    csrReadOnly false .viewV = false ∧ csrReadOnly false .viewT = false ∧ csrReadOnly false .viewAcc = false ∧ csrReadOnly false .seed = false ∧
    csrReadOnly true .ctr = false := by
  decide +kernel

theorem witness_scalar_frame :
    scalarShape (.div yes 1 2 3) = some (.scalar 1, flagDZ ||| flagOF) ∧ ∃ t, exec (.div yes 1 2 3) base = .next t := ⟨rfl, _, rfl⟩

theorem witness_end_and_rep :
    base.levelS = false ∧ base.img.late = [] ∧ (base.setImg { base.img with late := [0] }).img.late ≠ [] ∧ (atS base).levelS = true ∧
    (let s := { base with mem := base.mem.splice 0x10004 (parcelBytes 0x128) }
     s.fetchAt (s.img.pc + 4) = .ok [0x128] ∧ (repLegal s.levelS 0 0 1 (rawOfParcels [0x128])).toOption.isSome = true ∧ s.repIdx ≤ 1) ∧
    (let s := { base with mem := base.mem.splice 0x10004 (parcelBytes 0x128) }.setRepIdx 2
     s.fetchAt (s.img.pc + 4) = .ok [0x128] ∧ (repLegal s.levelS 0 0 1 (rawOfParcels [0x128])).toOption.isSome = true ∧ 1 < s.repIdx) ∧
    isOk ((base.setPc 0x1FFFC).fetchAt ((base.setPc 0x1FFFC).img.pc + 4)) = false ∧
    (let s := { base with mem := base.mem.splice 0x10004 (parcelBytes 3) }
     s.fetchAt (s.img.pc + 4) = .ok [3] ∧ repLegal s.levelS 0 0 1 (rawOfParcels [3]) = .error .repetition) := by
  decide +kernel

/-- Loads and stores: the last doubleword of the page, the last byte of the own vault and the last byte of the NS carve-out in force. -/
theorem witness_plain_runs (acc : Acc) :
    PlainRun base acc .virt 0x1FFF8 8 0x1FFF8 ∧ PlainRun base acc .vault 0xFFFFFFF 1 (vaultBase base.core.die + 0xFFFFFFF) ∧
    (let s : State := { base with core := { base.core with nsSize := 8192 } }; PlainRun s acc .ns 8191 1 (nsBase s.core.id.toNat + 8191)) ∧
    Sound base 0x1FFF8 8 ∧ Quiet base ∧ base.core.rep = none ∧ base.core.link = none ∧ ∀ x ∈ base.core.l1, x.stale = none := by
  refine ⟨⟨by decide, mapped_of (by cases acc <;> decide +kernel)⟩, ⟨by decide, rfl, by decide +kernel⟩, ⟨by decide +kernel, rfl, by decide +kernel⟩,
    sound_of rfl rfl, quiet_of (by decide +kernel), rfl, rfl, ?_⟩
  intro x hx
  cases hx

/-- The faults of a scalar access, each at the edge of its range; a tile that the copy engine owns. -/
theorem witness_access_faults :
    (∀ q : Fin 8, base.img.q[q].dir ≠ .write) ∧
    (let s := regs base [(1, 0x10007)]; (s.readS 1 + s.readS 2).toNat % 8 ≠ 0) ∧
    (let s := regs base [(1, 0x200000000000000)]; (s.readS 1 + s.readS 2).toNat % 8 = 0 ∧ 2 ^ 57 ≤ (s.readS 1 + s.readS 2).toNat) ∧
    (let s := regs base [(1, 0x10000000)]; (s.readS 1 + s.readS 2).toNat % 8 = 0 ∧ 0x10000000 ≤ (s.readS 1 + s.readS 2).toNat) ∧
    (let s : State := { base with core := { base.core with nsSize := 8192 } }
     ((regs s [(1, 8188)]).readS 1 + (regs s [(1, 8188)]).readS 2).toNat % 4 = 0 ∧
     (regs s [(1, 8192)]).core.nsSize < ((regs s [(1, 8192)]).readS 1 + (regs s [(1, 8192)]).readS 2).toNat + 4) ∧
    (let s : State := { base with core := { base.core with nsSize := 8192, nsOwner := [(1, .ce)] } }
     let t := regs s [(1, 4096)]
     let ea := t.readS 1 + t.readS 2
     ea.toNat % 8 = 0 ∧ ea.toNat + 8 ≤ t.core.nsSize ∧ t.ownerOf .ns (4096 * (ea.toNat / 4096)) ≠ .thread) := by
  decide +kernel

theorem witness_encodings :
    ((0x00 : BitVec 7) = 0 ∧ (0x24 : BitVec 7) = 0x24 ∧ (0x2B : BitVec 7) ≤ 0x2F ∧ (0x3C : BitVec 7) ≤ 0x3C ∧ (0x30 : BitVec 7) < 0x3C) ∧
    yes.never = false ∧ csrReadOnly false .ctr = true ∧ csrReadOnly true .core = true := by
  decide

theorem witness_round_trip :
    (encode (.endTask yes)).isSome = true ∧ (Instr.endTask yes).wellFormed = true ∧
    (∀ g d c, Instr.endTask yes = .csrw g d c → csrReadOnly false c = false) ∧
    ∃ d, decodeParcels true [0x1440C008] = .ok d := by
  refine ⟨rfl, rfl, ?_, _, rfl⟩
  intro g d c h
  cases h

/-- One step at the program counter of `base`, where ADD s3, s4, s5 stands. -/
theorem witness_step :
    let s := State.reset.withFetchWord 32 0x1440C008
    let t := s.tick
    t.events = [] ∧ t.coreRuns = true ∧ t.core.rep = none ∧ t.translate .fetch t.img.pc.toNat = .ok (.mem 0x10000) ∧ tierHas 0x10000 = true ∧
    t.fetchAt t.img.pc = .ok [0x1440C008] ∧ (∀ x ∈ t.bad, x.1 ≠ 0) ∧
    ∃ d, decodeParcels t.levelS [0x1440C008] = .ok d ∧ t.operandError d = none :=
  ⟨rfl, by decide +kernel, rfl, by decide +kernel, by decide +kernel, by decide +kernel, by decide +kernel, _, rfl, by decide +kernel⟩

/-- VADD.bf16 v2, q0, v9, with an error in a unit of v9. -/
theorem witness_operand_error :
    let b := State.reset.withFetchWord 64 0x2C00000027808189
    let s : State := { b with bad := [(0, b.core.regUnit + b.offV 9 / 32)] }
    let t := s.tick
    t.events = [] ∧ t.coreRuns = true ∧ t.core.rep = none ∧ t.translate .fetch t.img.pc.toNat = .ok (.mem 0x10000) ∧
    t.fetchAt t.img.pc = .ok [0x27808189, 0x2C000000] ∧
    ∃ d, decodeParcels t.levelS [0x27808189, 0x2C000000] = .ok d ∧ (t.operandError d).isSome = true :=
  ⟨rfl, by decide +kernel, rfl, by decide +kernel, by decide +kernel, _, rfl, by decide +kernel⟩

theorem witness_other_steps :
    (let s : State := { base with events := [.packageReset] }; s.tick.events = .packageReset :: [] ∧ Instr.packageReset.isEvent = true) ∧
    (State.reset.tick.events = [] ∧ State.reset.tick.coreRuns = false) ∧
    (let r : Rep := { at_ := 0x10000, step := 0, mask := 0, cnt := 1, body := [0x128] }
     let s : State := { base with core := { base.core with rep := some r } }
     s.tick.events = [] ∧ s.tick.coreRuns = true ∧ s.tick.core.rep = some r ∧
     ∃ w, repLegal s.tick.levelS r.step r.mask r.cnt (rawOfParcels r.body) = .ok w ∧
       s.tick.operandError (.one w ((rawOfParcels r.body).repeated r.step r.mask s.tick.repIdx)) = none) ∧
    (let t := base.tick
     t.events = [] ∧ t.coreRuns = true ∧ t.core.rep = none ∧ t.translate .fetch t.img.pc.toNat = .ok (.mem 0x10000) ∧
     tierHas 0x10000 = true ∧ t.fetchAt t.img.pc = .ok [0] ∧ decodeParcels t.levelS [0] = .error .opcode) ∧
    (let t := (base.setPc 0x20000).tick
     t.events = [] ∧ t.coreRuns = true ∧ t.core.rep = none ∧ isOk (t.translate .fetch t.img.pc.toNat) = false) := by
  refine ⟨⟨rfl, rfl⟩, ⟨rfl, by decide +kernel⟩, ⟨rfl, by decide +kernel, rfl, _, rfl, by decide +kernel⟩,
    ⟨rfl, by decide +kernel, rfl, by decide +kernel, by decide +kernel, by decide +kernel, rfl⟩, rfl, by decide +kernel, rfl, by decide +kernel⟩

theorem witness_memory_canonical : State.reset.mem.wf = true ∧ ∃ t, step State.reset = .next t := by
  refine ⟨by decide, State.reset.tick, ?_⟩
  rfl

/-! Shapes and streams. -/

/-- A shape of one dimension (R141): base, format, space, extent and stride in nibbles. -/
def shapeOf (addr : Nat) (f : Fmt) (sp : Space) (ext stride : Nat) : BitVec 512 :=
  BitVec.ofNat 512 (addr + f.code.toNat * 2 ^ 64 + 2 ^ 72 + sp.code.toNat * 2 ^ 78 + ext * 2 ^ 128 + stride * 2 ^ 152)

/-- Shape registers sh1 to sh3: a run of 256 bf16 elements in the page, 16 int32 indices behind it, the bytes of a row of the register space. -/
def shaped : State :=
  base.setImg { base.img with
    sh := ((base.img.sh.set 1 (shapeOf 0x10000 .bf16 .virt 256 4)).set 2 (shapeOf 0x10200 .int32 .virt 16 8)).set 3 (shapeOf 0 .int8 .reg 512 2) }

/-- A stream of q0 over sh1, in a direction. -/
def streaming (d : StreamDir) (spec : Nat) (es : List QEntry) (held : Option Stop) : State :=
  let t := shaped.setImg { shaped.img with
    q := shaped.img.q.set 0 { Stream.closed with dir := d, sh := 1, ish := 2, n := 256, spec := spec, dist := 4096, held := held } }
  { t with core := { t.core with queues := t.core.queues.set 0 es } }

theorem witness_shape_registers :
    (∀ q : Fin 8, base.img.q[q].dir = .closed) ∧ ShapeFree (streaming .read 0 [] none) 2 ∧
    ((streaming .read 0 [] none).img.q[(0 : Fin 8)].dir ≠ .closed ∧ (streaming .read 0 [] none).img.q[(0 : Fin 8)].sh = 1) ∧
    PlainRun base .read .virt 0x1FFC0 64 0x1FFC0 ∧ PlainRun base .write .virt 0x1FFC0 64 0x1FFC0 ∧ Sound base 0x1FFC0 64 ∧ 0x1FFC0 % 64 = 0 ∧ 0x1FFC4 % 64 ≠ 0 := by
  refine ⟨by decide +kernel, ?_, by decide +kernel, ⟨by decide, mapped_of (by decide +kernel)⟩, ⟨by decide, mapped_of (by decide +kernel)⟩,
    sound_of rfl rfl, by decide, by decide⟩
  have h : ∀ q : Fin 8, (streaming .read 0 [] none).img.q[q].dir = .closed ∨ ((streaming .read 0 [] none).img.q[q].sh ≠ 2 ∧
      ¬ ((streaming .read 0 [] none).img.q[q].dir = .gather ∧ (streaming .read 0 [] none).img.q[q].ish = 2)) := by decide +kernel
  exact h

/-- An accepted entry of q0 that writes a byte at the start of the page, and one that has a second byte of it to write. -/
def entry (es : List (Nat × Byte)) : QEntry := ⟨0, 1, es.map (fun x => (.mem x.1, 0xFF, [x.2])), []⟩

/-- A write stream with accepted entries, whose writes land: the hypotheses of CLOSE, DRAIN, END, FENCE and a trap. -/
theorem witness_accepted_writes :
    let s := streaming .write 1 [entry [(0x10000, 7)], entry [(0x10000, 8), (0x1FFFF, 9)]] none
    (s.stream 0).dir = .write ∧ (s.stream 0).dir ≠ .closed ∧ s.pending (fun _ => true) ≠ [] ∧ s.pendingOf 0 ≠ [] ∧
    Lands s (s.pending (fun _ => true)) ∧ Lands s (s.pendingOf 0) ∧ (∀ q : Fin 8, NoDataError s.img.q[q]) ∧
    (s.mem.after (s.pending (fun _ => true))).read 0x10000 = 8 ∧ s.levelS = false ∧ s.img.late = [] := by
  refine ⟨by decide +kernel, by decide +kernel, by decide +kernel, by decide +kernel, lands_of (by decide +kernel), lands_of (by decide +kernel),
    fun q => no_data_error_of ?_, by decide +kernel, by decide +kernel, rfl⟩
  exact (show ∀ q : Fin 8, (streaming .write 1 [entry [(0x10000, 7)], entry [(0x10000, 8), (0x1FFFF, 9)]] none).img.q[q].held = none by
    decide +kernel) q

theorem witness_streams_open :
    ((shaped.stream 0).dir = .closed ∧ shaped.shapeOk (shaped.readSh 1) = true ∧ shaped.shapeOk (shaped.readSh 2) = true ∧
      shRank (shaped.readSh 2) = 1 ∧ shFmt (shaped.readSh 2) = some .int32) ∧
    (shaped.shapeOk (shaped.readSh 5) = false ∧ shFmt (shaped.readSh 1) ≠ some .int32 ∧ shFmt (shaped.readSh 1) ≠ some .uint32) ∧
    ((streaming .write 0 [] none).stream 0).dir = .write ∧ ((streaming .read 0 [] none).stream 0).dir = .read ∧
    ((streaming .gather 0 [] none).stream 0).dir = .gather ∧ NoDataError ((streaming .read 0 [] none).stream 0) :=
  ⟨by decide +kernel, by decide +kernel, by decide +kernel, by decide +kernel, by decide +kernel, no_data_error_of (by decide +kernel)⟩

/-- Queues: a write stream at its end, a closed one, a read stream with an entry, one at its end with none, one with a held fault. -/
theorem witness_queues :
    (let s := streaming .write 256 [] none; (s.stream 0).dir = .write ∧ (s.stream 0).n ≤ (s.stream 0).spec) ∧ (shaped.stream 0).dir = .closed ∧
    (let s := streaming .read 256 [entry []] none; (s.stream 0).dir = .read ∧ s.queue 0 = entry [] :: []) ∧
    (let s := streaming .read 256 [] none
     (s.stream 0).dir = .read ∧ s.queue 0 = [] ∧ (s.stream 0).n ≤ (s.stream 0).spec ∧ ∀ e, (s.stream 0).held ≠ some (.trap e)) ∧
    (let s := streaming .gather 0 [] (some (.trap { code := 8 })); (s.stream 0).dir = .gather ∧ s.queue 0 = [] ∧
      (s.stream 0).held = some (.trap { code := 8 })) ∧
    (let s := streaming .write 255 [] none
     (s.stream 0).dir = .write ∧ (s.stream 0).spec < (s.stream 0).n ∧ s.self.all (fun c => c.journal.isNone) = true ∧
     shSpace (s.readSh (s.stream 0).sh) ≠ .reg ∧
     ∃ places, ((List.range (min 256 1)).map ((s.stream 0).spec + ·)).mapM (s.streamPlace .write (s.stream 0)) = .ok places) := by
  refine ⟨by decide +kernel, by decide +kernel, by decide +kernel, ⟨by decide +kernel, by decide +kernel, by decide +kernel, ?_⟩, by decide +kernel,
    by decide +kernel, by decide +kernel, by decide +kernel, by decide +kernel, exists_ok (by decide +kernel)⟩
  intro e h
  cases h

/-- Element addresses: an element past the virtual space, past the vault and past the NS carve-out in force, one of the register
space, and the last of the page. -/
theorem witness_element_places :
    (let sh := shapeOf (2 ^ 57) .bf16 .virt 1 4; base.shapeOk sh = true ∧ shInd sh = 0 ∧ shSpace sh = .virt) ∧
    (let sh := shapeOf 0xFFFFFFF .bf16 .vault 1 4; base.shapeOk sh = true ∧ shInd sh = 0 ∧ shSpace sh = .vault ∧ 0x10000000 < 0xFFFFFFF + 2) ∧
    (let sh := shapeOf 0 .int8 .ns 1 2; base.shapeOk sh = true ∧ shInd sh = 0 ∧ shSpace sh = .ns ∧ base.core.nsSize < 0 + 1) ∧
    (base.shapeOk (shaped.readSh 3) = true ∧ shInd (shaped.readSh 3) = 0 ∧ shSpace (shaped.readSh 3) = .reg ∧
      base.soundParts .read 0 (regParts 0 1) = .ok ()) ∧
    (let sh := shapeOf 0xFFFFFFE .bf16 .vault 1 4
     base.shapeOk sh = true ∧ shSpace sh = .vault ∧ 0xFFFFFFE + 2 ≤ 0x10000000 ∧ (∀ k, k < 2 → base.ownerOf .vault (0xFFFFFFE + k) = .thread) ∧
     Sound base (vaultBase base.core.die + 0xFFFFFFE) 2) ∧
    (let sh := shapeOf 0x10000 .bf16 .virt 0x8000 4; base.shapeOk sh = true ∧ shSpace sh = .virt ∧ 0x10000 + 2 * 0x7FFF + 2 ≤ 2 ^ 57) ∧
    Mapped base .read 0x1FFFE 0x1FFFE ∧ Sound base 0x1FFFE 2 := by
  refine ⟨by decide +kernel, by decide +kernel, by decide +kernel, ⟨by decide +kernel, by decide +kernel, by decide +kernel, rfl⟩,
    ⟨by decide +kernel, by decide +kernel, by decide, by decide +kernel, sound_of rfl rfl⟩, by decide +kernel, mapped_of (by decide +kernel), sound_of rfl rfl⟩

theorem witness_vld_vst :
    shaped.shapeOk (shaped.readSh 1) = true ∧ Quiet shaped ∧
    (∃ p, shaped.placesOf .read (shaped.readSh 1) (activePositions (shaped.readSh 1) 250 (maskBit (shaped.readM 0))) = .ok p) ∧
    (∃ p, shaped.placesOf .write (shaped.readSh 1) (activePositions (shaped.readSh 1) 250 (maskBit (shaped.readM 0))) = .ok p) ∧
    (∃ e, shaped.placesOf .write (shaped.readSh 1) [(0, 255)] = .ok [(0, e)] ∧ ElemPlace.at e 0x101FE 2) ∧
    (∃ e, shaped.placesOf .write (shapeOf 0x10000 .int4 .virt 256 1) [(0, 255)] = .ok [(0, e)] ∧ ElemPlace.at e 0x1007F 1) := by
  refine ⟨by decide +kernel, quiet_of (by decide +kernel), exists_ok (by decide +kernel), exists_ok (by decide +kernel),
    ⟨⟨[(.mem 0x101FE, 2)], false⟩, by decide +kernel, rfl⟩, ⟨⟨[(.mem 0x1007F, 1)], true⟩, by decide +kernel, rfl⟩⟩

/-- PLD, RESIDE and SCLD: a page that is away, and a run of UE4M3 scales in the page. -/
theorem witness_pld_reside_scld :
    (∀ x ∈ activePositions (shaped.readSh 1) 254 (fun _ => true), isOk (shaped.probe (shaped.readSh 1) x.2) = true) ∧
    shSpace (shaped.readSh 3) ≠ .virt ∧ shSpace (shaped.readSh 3) = .reg ∧
    (let s : State := { shaped with pages := shaped.pages.map (fun p => { p with st := .out, tier := .pool }) }
     s.shapeOk (s.readSh 1) = true ∧ shSpace (s.readSh 1) = .virt ∧
     (match s.absentPages (s.readSh 1) (activePositions (s.readSh 1) 255 (maskBit (s.readM 0))) with | .ok l => l == [0x10000] | .error _ => false) = true ∧
     (match s.pageAt s.core.part 0x10000 with | some p => p.st == .out | none => false) = true) ∧
    (let sh := shapeOf 0x10000 .ue4m3 .virt 32 2
     shFmt sh = some .ue4m3 ∧ shaped.shapeOk sh = true ∧ shSpace sh ≠ .reg ∧
     isOk (shaped.placesOf .read sh (((List.range (256 / 8)).filter (fun j => decide (0 + j < shLength sh))).map (fun j => (j, 0 + j)))) = true) := by
  decide +kernel

/-! Vectors. -/

theorem takes_reg (s : State) (d : VReg) : Takes s (.reg d) := fun _ => ⟨_, rfl⟩

/-- Register operands and destination, in a format of each class; a popped queue entry; and a queue that takes a push. -/
theorem witness_vector_operands :
    (∃ x u, base.readVOp (.reg 1) = .ok (x, u) ∧ ∃ y w, u.readVOp (.reg 2) = .ok (y, w) ∧ Takes u (.reg 0) ∧ Takes w (.reg 0)) ∧ Takes base (.reg 55) ∧
    (∃ x u, (streaming .read 256 [⟨5, 256, [], []⟩] none).readVOp (.queue 0) = .ok (x, u)) ∧
    (∀ v, ∃ t, base.writeWide (.reg 54) [v, v] = .ok t) ∧
    Fmt.bf16.classIF = true ∧ Fmt.int32.classIF = true ∧ Fmt.uint4.classV = true ∧ Fmt.uint4.classI = true ∧ Fmt.fp32.classF = true ∧
    Fmt.int8.integer = true ∧ Fmt.fp16.integer = false := by
  refine ⟨⟨_, _, rfl, _, _, rfl, takes_reg _ _, takes_reg _ _⟩, takes_reg _ _, ⟨_, _, rfl⟩, fun _ => ⟨_, rfl⟩, ?_⟩
  decide

/-- VPERM's indices in two registers that end at v55; conversions in both directions; the widest pair of registers. -/
theorem witness_wide_operands :
    vpermAligned .int8 (.reg 54) = true ∧ (∃ ix t, base.readWide (.reg 54) (vpermRegs .int8) = .ok (ix, t) ∧ Takes t (.reg 0)) ∧
    vcvtPair .fp32 .e4m3 = true ∧ vcvtPair .e4m3 .fp32 = true ∧ vwidenPair .int32 .int8 = true ∧ vnarrowPair .int8 .int32 = true ∧
    (∃ xs, base.readElems (.reg 52) .fp32 .e4m3 = .ok (xs, base)) ∧ (∀ rs, ∃ t, base.writeElems (.reg 52) .fp32 .e4m3 rs = .ok t) := by
  refine ⟨by decide, ⟨_, _, rfl, takes_reg _ _⟩, by decide, by decide, by decide, by decide, ⟨_, rfl⟩, fun _ => ⟨_, rfl⟩⟩

theorem witness_vector_frame :
    vectorShape (.vnot yes .int8 (.reg 55) (.reg 1) 0) = some (55, 1, .rne) ∧ (∃ t, exec (.vnot yes .int8 (.reg 55) (.reg 1) 0) base = .next t) ∧
    vectorShape (.vzip yes .int8 (.reg 54) (.reg 1) (.reg 2)) = some (54, 2, .rne) ∧ vectorShape (.vadd yes .bf16 .sr false (.reg 1) (.reg 1) (.reg 2) 0) = some (1, 1, .sr) :=
  ⟨rfl, ⟨_, rfl⟩, rfl, rfl⟩

/-- The scale queue with no entry, with one, with three and with four. -/
theorem witness_scale_queue :
    (let s := base; s.img.scq = [] ∧ s.img.scq.length < 4) ∧
    (let s := base.setImg { base.img with scq := [1] }; s.img.scq = 1 :: []) ∧
    (let s := base.setImg { base.img with scq := [1, 2, 3] }; s.img.scq.length < 4) ∧
    (let s := base.setImg { base.img with scq := [1, 2, 3, 4] }; 4 ≤ s.img.scq.length ∧ s.img.scq = 1 :: [2, 3, 4]) ∧
    (∃ x u, base.readVOp (.reg 1) = .ok (x, u) ∧ u = base) ∧ (∀ rs, ∃ t, base.writeElems (.reg 0) .bf16 .e4m3 rs = .ok t) ∧ Takes base (.reg 0) :=
  ⟨⟨rfl, by decide +kernel⟩, rfl, by decide +kernel, ⟨by decide +kernel, rfl⟩, ⟨_, _, rfl, rfl⟩, fun _ => ⟨_, rfl⟩, takes_reg _ _⟩

/-- QCVT and the lattice instructions: source elements of two registers, a block with a NaN and one without. -/
theorem witness_qcvt_lattice :
    (∃ xs u, base.readElems (.reg 2) .bf16 .e4m3 = .ok (xs, u) ∧ xs.length = 4096 / Fmt.e4m3.width ∧
      (∀ v, ∃ t, u.writeVOp (.reg 0) v = .ok t ∧ t.img.scq = [])) ∧
    (fpDecode .bf16 0x7FC0).special = true ∧ (fpDecode .bf16 0x3F80).special = false ∧ floorLog2 1 0 = 0 := by
  refine ⟨⟨_, _, rfl, ?_, fun _ => ⟨_, rfl, rfl⟩⟩, by decide⟩
  decide +kernel

theorem witness_near : ([1, 1, 1, 1, 1, 1, 1, 1] : List Int).length = 8 ∧ ([1, 1, 1, 1, 1, 1, 1, 1] : List Int).sum % 2 = 0 ∧ (0 : Nat) < 2 := by decide

/-! Matrices. -/

/-- A slot that holds a format, Valid (an L16 tile of K = 32), with its two buffer parts zero. -/
def slotted (f : Fmt) (n : Nat) (h : n < 16) : State :=
  { base with core := { base.core with m := { base.core.m with
      mr := { base.core.m.mr with slots := base.core.m.mr.slots.set n { SlotRec.invalid with st := .valid, fmt := f.code, c := if f == .l16 then 0x10 else 0 } } } } }

theorem witness_integer_mma :
    let s := slotted .int8 15 (by decide)
    (s.slotRec 15).st = .valid ∧ s.slotFail 15 = none ∧ matrixClass (s.slotRec 15).format = matrixClass .int8 ∧
    runsOverlap (s.offAcc 0) 16384 (s.offT 31) 4096 = false ∧ (s.slotRec 15).c.getLsbD 2 = false := by
  decide +kernel

/-- A slot that is Invalid, one of another class, an L16 slot, and a tile that lies in the accumulator. -/
theorem witness_matrix_faults :
    ((base.slotRec 0).st = .invalid ∧ base.slotFail 0 = none) ∧
    (let s := slotted .bf16 0 (by decide); (s.slotRec 0).st = .valid ∧ s.slotFail 0 = none ∧ matrixClass (s.slotRec 0).format ≠ matrixClass .int8) ∧
    (let s := slotted .l16 0 (by decide); (s.slotRec 0).st = .valid ∧ (s.slotRec 0).format = .l16) ∧
    (let s := (slotted .int8 0 (by decide)).setImg { base.img with viewT := 0, viewAcc := 0 }
     s.slotFail 0 = none ∧ (s.slotRec 0).format ≠ .l16 ∧ matrixClass (s.slotRec 0).format = matrixClass .int8 ∧
     (s.slotRec 0).depth = matrixDepth .int8 ∧ runsOverlap (s.offAcc 0) 16384 (s.offT 0) 4096 = true) := by
  decide +kernel

/-- The checks of the other matrix instructions pass for a tile, a lattice slot and two slots of one format. -/
theorem witness_matrix_operands :
    (∃ tile u, base.readTile (.tile 31) = .ok (tile, u)) ∧
    isOk ((slotted .bf16 0 (by decide)).slotFor .bf16 false 0) = true ∧ isOk ((slotted .l16 1 (by decide)).slotFor .bf16 true 1) = true ∧
    (let s := slotted .bf16 0 (by decide)
     isOk (s.viewClear 0 [(s.offT 31, 4096)]) = true ∧ isOk (s.takeScales .bf16 (matrixDepth .bf16)) = true) := by
  refine ⟨⟨_, _, rfl⟩, by decide +kernel, by decide +kernel, by decide +kernel⟩

/-- MDRAIN without and with a word in NS, at its last word; the accumulator and the tile window apart. -/
theorem witness_mdrain :
    (let s : State := { base with core := { base.core with nsSize := 8192 } }
     (8188 : Word).toNat % 4 = 0 ∧ (8188 : Word).toNat + 4 ≤ s.core.nsSize ∧ (0xFFFFFFC : Word).toNat + 4 ≤ 0x10000000 ∧
     (∀ c, s.self = some c → c.journal = none)) ∧
    runsOverlap (base.offAcc (0 : AccReg).toNat) 16384 (base.offT (31 : TileReg).toNat) (512 * Fmt.int8.width) = false ∧
    runsOverlap (base.offAcc (0 : AccReg).toNat) 16384 (base.offT (8 : TileReg).toNat) (512 * Fmt.fp32.width) = false ∧ Sound base 0 4 := by
  refine ⟨⟨by decide, by decide +kernel, by decide, ?_⟩, by decide +kernel, by decide +kernel, sound_of rfl rfl⟩
  exact (quiet_of (s := { base with core := { base.core with nsSize := 8192 } }) (by decide +kernel)).journal

/-- Control words, legal and not; a tile image in the page; a table address off and on its alignment. -/
theorem witness_weight_slots :
    ((0x0FFF0002 : Word).extractLsb' 0 2 ≠ 3 ∧ (0x0FFF0002 : Word) &&& ~~~0x0FFF0003#64 = 0) ∧ (3 : Word).extractLsb' 0 2 = 3 ∧
    (0x10000000 : Word) &&& ~~~0x0FFF0003#64 ≠ 0 ∧
    isOk (base.slotImage .bf16 0 0x1F000 base.mr.tv (Space.ofCode base.mr.ts) base.mr.t.toNat) = true ∧
    (8 : Word).toNat % 16 ≠ 0 ∧ (0x1FFF0 : Word).toNat % 16 = 0 ∧ isOk (base.checkRun .virt (some .wsu) 0x1FFF0 16) = true := by
  decide +kernel

/-- NS with two tiles of the copy engine, and two of the transform engine. -/
def engines (o : Owner) : State := { shaped with core := { shaped.core with nsSize := 16384, nsOwner := [(0, o), (1, o)] } }

theorem engineRun_ns (o : Owner) (acc : Acc) : EngineRun (engines o) o acc .ns 4096 4096 (.mem ((engines o).padBase .ns + 4096)) := by
  cases o <;> cases acc <;> exact ⟨by decide +kernel, by decide +kernel, by decide +kernel, rfl, .inl ⟨_, rfl⟩⟩

theorem engineRun_page (o : Owner) (acc : Acc) : EngineRun (engines o) o acc .virt 0x1F000 4096 (.mem 0x1F000) := by
  cases o <;> cases acc <;> exact ⟨by decide +kernel, by decide +kernel, by decide +kernel, rfl, .inl ⟨_, rfl⟩⟩

theorem witness_copies :
    Clean (engines .ce) ∧ EngineRun (engines .ce) .ce .read .virt 0x1F000 4096 (.mem 0x1F000) ∧
    EngineRun (engines .ce) .ce .write .ns 4096 4096 (.mem ((engines .ce).padBase .ns + 4096)) ∧
    EngineRun base .ce .write .reg 131071 1 (.reg 131071) ∧
    EngineRun (engines .xe) .xe .read .virt 0x1F000 4096 (.mem 0x1F000) ∧
    EngineRun (engines .xe) .xe .write .ns 4096 4096 (.mem ((engines .xe).padBase .ns + 4096)) ∧
    4096 ≤ 1048576 ∧ Fmt.int32.width % 4 = 0 ∧ 8 * 4096 % Fmt.int32.width = 0 :=
  ⟨clean_of (by decide +kernel), engineRun_page _ _, engineRun_ns _ _, ⟨by decide +kernel, rfl, rfl, rfl, .inr ⟨_, rfl⟩⟩, engineRun_page _ _, engineRun_ns _ _,
    by decide, by decide, by decide⟩

/-- COPYN between two shapes, GATHER from and SCATTER to sh1 by the indices of sh2. -/
def walks (o : Owner) : State :=
  let t := engines o
  t.setImg { t.img with sh := (t.img.sh.set 4 (shapeOf 0 .bf16 .ns 256 4)).set 5 (shapeOf 0x10000 .bf16 .virt 2 4) }

/-- The side of a command that is one run stands at one place of memory. -/
def oneRun (x : Except Stop (List (List (List (Loc × Nat))))) (k : Nat) : Bool :=
  match x with
  | .ok l => l.length == 2 && (match l[k]? with | some [[(.mem _, n)]] => n == 32 | _ => false)
  | .error _ => false

theorem witness_walks :
    (let s := walks .ce
     let sa := s.readSh 1
     let sd := s.readSh 4
     isOk (s.plainShape 1) = true ∧ isOk (s.plainShape 4) = true ∧ (shFmtD sa).width = (shFmtD sd).width ∧ shLength sa = shLength sd ∧
     elemBytes (shFmtD sa).width (shLength sa) ≤ 1048576 ∧
     isOk (s.checkSides .ce [{ sp := shSpace sa, acc := .read, runs := elemRuns sa (walkElems sa) },
                             { sp := shSpace sd, acc := .write, runs := elemRuns sd (walkElems sd) }]) = true) ∧
    (let s := walks .xe
     match s.gatherSetup 1 2 with
     | .ok (sh, es, t) => decide (es.length = 16) && decide (8 ≤ (shFmtD sh).width) &&
         oneRun (t.checkSides .xe [{ sp := shSpace sh, acc := .read, runs := elemRuns sh es }, { sp := .ns, acc := .write, runs := [(4096, 32)] }]) 1 &&
         oneRun (t.checkSides .xe [{ sp := .ns, acc := .read, runs := [(4096, 32)] }, { sp := shSpace sh, acc := .write, runs := elemRuns sh es }]) 0
     | .error _ => false) = true := by
  decide +kernel

/-- VPUSH off its alignment, past the vaults, to a die that is down, and at the last place of the package's vaults; a line under
CWB; the carve-out moved. -/
theorem witness_pushes :
    (8 : Word).toNat % 512 ≠ 0 ∧ ((2 ^ 30 : Word).toNat % 512 = 0 ∧ 2 ^ 30 ≤ (2 ^ 30 : Word).toNat) ∧
    (let s : State := { base with dies := base.dies.set 3 { base.dies[3] with st := .off } }; s.dieUp 3 = false) ∧
    ((0x3FFFFE00 : Word).toNat % 512 = 0 ∧ (0x3FFFFE00 : Word).toNat < 2 ^ 30 ∧ ((0x3FFFFE00 : Word).extractLsb' 28 2).toNat = 3 ∧
      base.dieUp 3 = true ∧ base.pathUp base.core.die 3 = true) ∧
    (2 ^ 57 ≤ (2 ^ 57 : Word).toNat ∧ (0x10000 : Word).toNat < 2 ^ 57) ∧
    (311296 < (311297 : Word).toNat ∧ (311296 : Word).toNat ≤ 311296 ∧ (311296 : Word).toNat % 8192 = 0 ∧ (8191 : Word).toNat % 8192 ≠ 0) ∧
    (base.dieUp 3 && (let s : State := { base with bup := 0 }; s.pathUp 0 3)) = false ∧
    base.nsStream = none ∧ isOk (base.requireOwner .ns 311296 (base.core.nsSize - 311296) .thread) = true := by
  decide +kernel

/-- A line of L1 that a write left dirty, with the bytes that L2 is to take and the older ones below. -/
def dirtyLine : State :=
  { base with core := { base.core with l1 := [{ line := 0x200, way := 38, stale := some (List.replicate 128 5), below := some (List.replicate 128 4) }] } }

theorem witness_lines :
    (∀ x ∈ dirtyLine.core.l1, ∀ bs, x.stale = some bs → bs.length = 128) ∧ (dirtyLine.core.l1.map L1Line.line).Nodup ∧
    dirtyLine.core.l1.all (fun x => dirtyLine.lineCovered 0x10000 1 x && x.below.isSome && x.stale.isSome) = true ∧
    dirtyLine.core.l1 ≠ [] ∧ (∀ x ∈ base.core.l1, x.stale = none) := by
  refine ⟨?_, by decide +kernel, by decide +kernel, by decide +kernel, ?_⟩
  · intro x hx bs hb
    simp only [dirtyLine, List.mem_singleton] at hx
    subst hx
    cases hb
    rfl
  · intro x hx
    cases hx

theorem clean_base : Clean base := clean_of (by decide +kernel)

/-- A context that WAITM parked on the word at 0x10008, and the words that an atomic and a vector atomic reach. -/
def watched : State :=
  let c : Ctx := { Ctx.freeEntry 1 0 1 with st := .parked, cause := .waitm, watch := [{ sp := .virt, addr := 0x10008, core := 1 }] }
  { base with ctxs := c :: base.ctxs }

theorem wordRun_page (acc : Acc) (n : Nat) (h : n = 4 ∨ n = 8) : WordRun watched acc .virt 0x10008 n 0x10008 := by
  refine ⟨by rcases h with h | h <;> subst h <;> decide, sound_of rfl rfl, by rcases h with h | h <;> subst h <;> decide, ?_⟩
  exact mapped_of (by cases acc <;> decide +kernel)

/-- A vector atomic with every lane of m0 at one word, its offsets all zero. -/
theorem witness_vector_atomic :
    let s := regs watched [(1, 0x10008)]
    Quiet s ∧ (List.range 128).filter (maskBit (s.readM 0)) ≠ [] ∧
    ∀ k ∈ (List.range 128).filter (maskBit (s.readM 0)),
      WordRun s .atomic .virt (s.readS 1 + BitVec.ofNat 64 (4 * lane .uint32 (s.readV 2) k)) 4 0x10008 := by
  refine ⟨quiet_of (by decide +kernel), by decide +kernel, ?_⟩
  intro k hk
  have h0 : ∀ k ∈ List.range 128, lane .uint32 ((regs watched [(1, 0x10008)]).readV 2) k = 0 := by decide +kernel
  rw [h0 k (List.mem_of_mem_filter hk)]
  exact ⟨by decide +kernel, sound_of rfl rfl, by decide +kernel, mapped_of (by decide +kernel)⟩

/-- FENCE selects the classes of its mask: the accepted entries of those streams land. -/
theorem witness_fence :
    let s := streaming .write 1 [entry [(0x10000, 7)]] none
    let sel (m : Word) (st : Stream) : Bool := st.dir == .write && m.getLsbD st.cl.toNat
    s.pending (sel 1) ≠ [] ∧ Lands s (s.pending (sel 1)) ∧ sel 1 s.img.q[(0 : Fin 8)] = true ∧ ∀ q : Fin 8, sel 2 s.img.q[q] = false :=
  ⟨by decide +kernel, lands_of (by decide +kernel), by decide +kernel, by decide +kernel⟩

theorem witness_sync_words :
    (∀ n, n = 4 ∨ n = 8 → WordRun watched .atomic .virt 0x10008 n 0x10008 ∧ WordRun watched .write .virt 0x10008 n 0x10008) ∧ Quiet watched ∧
    WordRun base .atomic .vault 0xFFFFFF8 8 (vaultBase base.core.die + 0xFFFFFF8) ∧
    (∃ q : Fin 8, (streaming .write 0 [] none).img.q[q].dir = .write ∧ (2 : Word).getLsbD (streaming .write 0 [] none).img.q[q].cl.toNat = false ∧
      (1 : Word).getLsbD (streaming .write 0 [] none).img.q[q].cl.toNat = true) ∧
    (match watched.findCtx 0x40000001 with
     | some c => c.st == .parked && !c.moving && c.watch.any (fun x => domainOf .di x.core == domainOf .di watched.core.id &&
         (match x.sp with | .virt => watched.wordPlace c.part x.addr | _ => some (.mem x.addr)) == some (.mem 0x10008))
     | none => false) = true := by
  refine ⟨fun n h => ⟨wordRun_page _ n h, wordRun_page _ n h⟩, quiet_of (by decide +kernel), ⟨by decide, sound_of rfl rfl, by decide, rfl⟩,
    ⟨0, by decide +kernel⟩, by decide +kernel⟩

/-- OWN: the last tile of NS and of the own MiB of the vault; a range off its alignment, one past its space, one that meets a tile
of another owner. -/
theorem witness_own :
    (let s : State := { base with core := { base.core with nsSize := 16384, nsOwner := [(2, .ce)] } }
     ((12288 : Word).toNat % 4096 = 0 ∧ (12288 : Word).toNat + 4096 * 1 ≤ s.core.nsSize ∧ s.ownerOf .ns 12288 = .thread) ∧
     ((0xFF000 : Word).toNat % 4096 = 0 ∧ (0xFF000 : Word).toNat + 4096 * 1 ≤ 0x100000 ∧ s.ownerOf .vault 0xFF000 = .thread) ∧
     (0x800 : Word).toNat % 4096 ≠ 0 ∧ ((12288 : Word).toNat % 4096 = 0 ∧ s.core.nsSize < (12288 : Word).toNat + 4096 * 2) ∧
     (s.ownerOf .ns 4096 = .thread ∧ s.ownerOf .ns 8192 ≠ .thread ∧ (4096 : Word).toNat + 4096 * 2 ≤ s.core.nsSize)) ∧
    base.levelS = false ∧ (atS base).levelS = true := by
  decide +kernel

/-- Barriers: a round of one that ends at once, one of two that waits, a channel whose count differs, one that is not assigned, a
round that has ended for the member. -/
theorem witness_barriers :
    (base.core.m.bar = none ∧ base.channelGranted base.core.part .qd 15 = true ∧ 1 ≤ domainCores base .qd ∧
      (base.channelAt .qd (domainOf .qd base.core.id) 15).arrived = 0 ∧ 4 ≤ domainCores base .qd ∧ base.gangInDomain .qd = 1) ∧
    (let s := base.putChannel { sc := .qd, domain := domainOf .qd base.core.id, k := 15, count := 3, arrived := 2, phase := false }
     let c := s.channelAt .qd (domainOf .qd s.core.id) 15
     c.arrived ≠ 0 ∧ 3 = c.count ∧ c.arrived + 1 = 3 ∧ 4 ≠ c.count) ∧
    base.channelGranted base.core.part .di 0 = false ∧
    (let s := base.setBar (some { sc := .qd, domain := 0, k := 15, phase := false, out := some 0 })
     s.core.m.bar = some { sc := .qd, domain := 0, k := 15, phase := false, out := some 0 }) ∧ base.slate.st = .idle := by
  decide +kernel

/-- WAITM on a word of the page that holds 0, with a condition that holds and one that does not. -/
theorem witness_waitm :
    WordRun base .read .virt 0x1FFF8 8 0x1FFF8 ∧ natOfBytes (base.mem.bytes 0x1FFF8 8) = 0 ∧ base.core.m.wait = none ∧ Quiet base :=
  ⟨⟨by decide, sound_of rfl rfl, by decide, mapped_of (by decide +kernel)⟩, by decide +kernel, rfl, quiet_of (by decide +kernel)⟩

/-- The context that runs on `base`. -/
def running : Ctx := base.ctxs.headD (Ctx.freeEntry 0 0 0)

theorem self_base : base.self = some running := by decide +kernel

/-- A second context, Ready, and a partition 0 that owns the first quad and all of HBM4E. -/
def second : Ctx := { Ctx.freeEntry 0 1 1 with st := .ready }

def scene : State :=
  { base with ctxs := second :: base.ctxs, rr := [second.handle],
              parts := base.parts.set 0 { base.parts[0] with f := (base.parts[0].f.set 0 1).set 11 0x8000000000 } }

/-- A gang of one, with no one waiting for its core, with a loaded standby, and with a Ready context that could have its core. -/
theorem witness_gangs :
    base.levelS = false ∧ base.core.id ∈ gangCores running.base running.gang ∧
    (∀ id ∈ gangCores running.base running.gang, id ≠ base.core.id → (base.coreAt id).m.waitsFor .cswap = true) ∧
    base.standbysOn (gangCores running.base running.gang) = [] ∧
    (let s : State := { scene with core := { scene.core with standby := some { handle := second.handle, loaded := true } } }
     s.standbysOn (gangCores running.base running.gang) ≠ [] ∧
     (∀ x ∈ s.standbysOn (gangCores running.base running.gang), s.standbyLoaded x = true ∧ x.1.handle ≠ running.handle) ∧ s.self = some running) ∧
    base.someoneCanUse running.handle (gangCores running.base running.gang) base.core.die = false ∧
    (scene.someoneCanUse running.handle (gangCores running.base running.gang) scene.core.die = true ∧ scene.self = some running) ∧
    (running.resides.isEmpty = true ∧ running.kp = false) ∧ (atS base).levelS = true := by
  decide +kernel

/-- Attribute words, good and bad; a handle that names a Parked context and one that names the Running one; a queue with a free
slot, a full one, and one that is disabled. -/
theorem witness_contexts :
    ((0x104 : Word).extractLsb' 9 55 = 0 ∧ ((0x104 : Word).extractLsb' 0 3).toNat ≤ 4 ∧ base.stewardUp 0 = true) ∧
    ((5 : Word).extractLsb' 0 3).toNat = 5 ∧ (0x200 : Word).extractLsb' 9 55 ≠ 0 ∧
    (match watched.target 0x40000001 with | .ok c => c.st == .parked | .error _ => false) = true ∧
    (match base.target 0 with | .ok c => c.st == .running && c == running | .error _ => false) = true ∧
    (2 ^ 32 : Word) ≠ 0 ∧ 2 ^ 32 ≤ (2 ^ 32 : Word).toNat ∧
    (let x : HostQueue := { (base.queueAt 1023) with base := 0x10000, part := 0, en := true, log2n := 4, tail := 5, head := 5 }
     let s := base.putQueue 1023 x
     1023 < 1024 ∧ (s.queueAt 1023).part = s.core.part ∧ (s.queueAt 1023).en = true ∧ (x.tail - x.head).toNat < 2 ^ x.log2n.toNat ∧
     (let y := { x with tail := 21 }; 2 ^ y.log2n.toNat ≤ (y.tail - y.head).toNat) ∧ (x.base.toNat + 64 * (x.tail.toNat % 16)) % 2 ^ 64 % 64 = 0 ∧
     mappedB s .read 0x1FFC0 0x1FFC0 = true ∧ mappedB s .write 0x10140 0x10140 = true ∧ quietB s = true) ∧ (base.queueAt 0).en = false := by
  decide +kernel

/-- The scene at level S. -/
def host : State := atS scene

theorem meets_of {s : State} {part : BitVec 6} {va n : Nat}
    (h : s.pages.any (fun p => p.part == part && decide (p.va < va + n) && decide (va < p.va + p.bytes)) = true) : Meets s part va n := by
  rw [List.any_eq_true] at h
  obtain ⟨x, hx, h⟩ := h
  simp only [Bool.and_eq_true, beq_iff_eq, decide_eq_true_eq] at h
  exact .inl ⟨x, hx, h.1.1, h.1.2, h.2⟩

theorem not_meets_of {s : State} {part : BitVec 6} {va n : Nat} (h : s.overlaps part va n = false) : ¬ Meets s part va n := by
  intro hm
  suffices s.overlaps part va n = true by rw [this] at h; cases h
  unfold State.overlaps
  rw [Bool.or_eq_true, List.any_eq_true, List.any_eq_true]
  rcases hm with ⟨x, hx, h1, h2, h3⟩ | ⟨k, w, hc, h4, h5, h6⟩
  · exact .inl ⟨x, hx, by simp [h1, h2, h3]⟩
  · refine .inr ⟨(.ual, w), List.mem_flatMap.2 ⟨s.groups[k], by simp, ?_⟩, by simpa [h4, h5] using h6⟩
    unfold Group.windows
    generalize s.groups[k] = x at hc
    rcases hc with ⟨h1, h2, hw⟩ | ⟨h1, h2, hw⟩
    · simp [h1, h2, hw]
    · rcases h2 with h2 | h2 <;> simp [h1, h2, hw]

/-- With no write stream open, there is nothing for a residency instruction to settle first. -/
theorem quiet_host : base.quiet = .ok base ∧ scene.quiet = .ok scene ∧ host.quiet = .ok host := ⟨rfl, rfl, rfl⟩

theorem witness_pgmap :
    (∀ i, host.islandUp i = true) ∧ host.levelS = true ∧ scene.levelS = false ∧ pdwBad 0x10000 0xFFFFFFFFFFFFFFFF = true ∧ pdwBad 0x10001 0x10700 = true ∧
    (let w : Word := 0x7FFFFF0700
     let ea : Word := 0x1FFFFFFFFFF0000
     pdwBad ea w = false ∧ ea.toNat + pageBytes (pdwSize w) ≤ 2 ^ 57 ∧ host.readS 0 = 0 ∧ pdwKind w = 0 ∧ (host.hbmRange host.core.part).1 ≤ pdwPa w ∧
     pdwPa w + pageBytes (pdwSize w) ≤ (host.hbmRange host.core.part).2 ∧ ¬ Meets host host.core.part ea.toNat (pageBytes (pdwSize w)) ∧
     host.sliceFull (pdwSize w) [ea.toNat] = false) ∧
    (pdwBad 0x20000 0x701 = false ∧ pdwKind 0x701 = 1 ∧ ¬ Meets host host.core.part 0x20000 (pageBytes (pdwSize 0x701))) ∧
    (pdwBad 0x10000 0x701 = false ∧ Meets host host.core.part 0x10000 (pageBytes (pdwSize 0x701))) ∧
    (pdwBad 0xFFF0000 0x10002 = false ∧ pdwKind 0x10002 = 2 ∧ (0xFFF0000 : Word).toNat + 0x10000 * pdwFrames 0x10002 ≤ 0x10000000 ∧
      ∀ i : Fin 65536, host.ownerOf .vault (0xFFF0000 + i.val) = .thread) := by
  refine ⟨?_, by decide +kernel, by decide +kernel, by decide +kernel, by decide +kernel,
    ⟨by decide +kernel, by decide +kernel, by decide +kernel, by decide +kernel, by decide +kernel, by decide +kernel, not_meets_of (by decide +kernel),
      by decide +kernel⟩,
    ⟨by decide +kernel, by decide +kernel, not_meets_of (by decide +kernel)⟩, ⟨by decide +kernel, meets_of (by decide +kernel)⟩,
    by decide +kernel, by decide +kernel, by decide, fun _ => rfl⟩
  intro i
  have h : ∀ k : Fin 4, host.islands[k].up = true := by decide +kernel
  exact h ⟨i % 4, Nat.mod_lt _ (by decide)⟩

/-- A full slice: 16,384 large pages of another partition. -/
theorem witness_slice_full (s : State) (p : Page) (l : List Nat) (hs : p.size = 1) (hp : p.part ≠ s.core.part)
    (h : s.pages = List.replicate 16384 p) (hg : ∀ k : Fin 16, s.groups[k].win = none ∧ s.groups[k].nextWin = none) :
    s.sliceFull 1 l = true ∧ ¬ Meets s s.core.part 0x20000000 0x200000 := by
  constructor
  · have hf : (s.pages.filter (fun p => p.size != 0)).length = 16384 := by
      rw [h, List.filter_replicate_of_pos (by simp [hs]), List.length_replicate]
    unfold State.sliceFull
    rw [hf]
    rfl
  · rintro (⟨x, hx, h1, -⟩ | ⟨k, w, ⟨-, -, hw⟩ | ⟨-, -, hw⟩, -⟩)
    · rw [h] at hx
      rw [List.eq_of_mem_replicate hx] at h1
      exact hp h1
    · rw [(hg k).1] at hw
      cases hw
    · rw [(hg k).2] at hw
      cases hw

/-- The page of the scene, changed. -/
def paged (f : Page → Page) : State := { host with pages := host.pages.map f }

theorem quiet_paged (f : Page → Page) : (paged f).quiet = .ok (paged f) :=
  quiet_none _ (show ∀ q : Fin 8, host.img.q[q].dir ≠ .write by decide +kernel)
    (show host.core.handle.bind host.postedBy = none by decide +kernel) (show ∀ c, host.self = some c → c.gang = 0 from fun c hc => by
    rw [show host.self = some running by decide +kernel] at hc
    cases hc
    rfl)

def here (s : State) : Page := (s.pageAt s.core.part 0x10000).getD (Page.blank 0 0 0 0)

/-- The states of a page that PGUNMAP, PGPIN, PGUNPIN, PGMOVE and PGHINT tell apart. -/
theorem witness_page_states :
    (0x20000 < 2 ^ 57 ∧ host.pageAt host.core.part 0x20000 = none) ∧
    (here host).st = .resident ∧ (here host).pin = 0 ∧ (here host).kv = false ∧ (here host).bound = .hbm ∧ (here host).target = .hbm ∧
    (let s := paged (fun p => { p with pin := 255 }); s.pageAt s.core.part 0x10000 = some (here s) ∧ (here s).pin = 255) ∧
    (let s := paged (fun p => { p with kv := true }); (here s).kv = true ∧ (here s).pin = 0) ∧
    (let s := paged (fun p => { p with st := .moving, tier := .hbm, dest := .pool })
     (here s).st = .moving ∧ (here s).dest ≠ (here s).target ∧ (here s).pin = 0) ∧
    (let s := paged (fun p => { p with st := .moving, tier := .pool, dest := .hbm })
     (here s).st = .moving ∧ (here s).dest ≠ .pool ∧ (here s).pin = 0) ∧
    (let s := paged (fun p => { p with st := .out, tier := .pool, dest := .pool })
     (here s).st = .out ∧ (here s).tier ≠ (here s).target ∧ (here s).bound ≠ (here s).target ∧ (here s).bound = .pool) ∧
    (let s := paged (fun p => { p with st := .empty, kv := true }); (here s).st = .empty) ∧
    (let s := paged (fun p => { p with st := .out, tier := .pool, dest := .pool, pin := 1 }); (here s).pin ≠ 0 ∧ (here s).bound ≠ (here s).target) ∧
    (let s := paged (fun p => { p with size := 1 }); (here s).size ≠ 0) ∧
    (let s : State := { host with frames := [(vaultBase host.core.die, host.core.part)] }
     (∀ k : Fin 1, (vaultBase s.core.die + 0 + 0x10000 * k.val, s.core.part) ∈ s.frames) ∧ (0 : Word).toNat + 0x10000 * 1 ≤ 0x10000000 ∧
     ∀ p ∈ s.pages, ∀ x ∈ p.runs .vault, x.1 ≠ vaultBase s.core.die) := by
  decide +kernel

/-- The conditions of `VirtRun`, as a check. -/
def virtB (s : State) (acc : Acc) (va n pa : Nat) : Bool :=
  decide (va % 0x10000 + n ≤ 0x10000) && decide (va < 2 ^ 57) && decide (va + n ≤ 2 ^ 57) && mappedB s acc va pa &&
    (List.range n).all (fun k => mappedB s acc (va + k) (pa + k)) && s.bad.isEmpty && s.pcs.isEmpty

theorem virt_of {s : State} {acc : Acc} {va n pa : Nat} (h : virtB s acc va n pa = true) : VirtRun s acc va n pa := by
  unfold virtB at h
  simp only [Bool.and_eq_true, decide_eq_true_eq, List.isEmpty_iff, List.all_eq_true, List.mem_range] at h
  obtain ⟨⟨⟨⟨⟨⟨h1, h2⟩, h3⟩, h4⟩, h5⟩, h6⟩, h7⟩ := h
  exact ⟨h1, h2, h3, mapped_of h4, fun k hk => mapped_of (h5 k hk), sound_of h6 h7⟩

/-- Bytes stored in the page. -/
def stored (s : State) (l : List (Nat × Word)) : State :=
  { s with mem := l.foldl (fun m x => m.splice x.1 (bytesOfNat 8 x.2.toNat)) s.mem }

/-- A KV region at 0x40000, a sequence descriptor at 0x18000 (LEN 15, tokens of 2^12 bytes, two pages at most, validity bits at
0x19000 or none) and an append record at 0x18100. -/
def sequences (vmap : Word) : State :=
  let s : State := { scene with regions := [{ part := 0, base := 0x40000, count := 2, owner := running.handle, die := 0 }] }
  stored s [(0x18000, 15), (0x18008, 0x40000), (0x18010, 0x2000C), (0x18018, 0x1A000), (0x18020, vmap), (0x18100, 1), (0x18108, 0),
            (0x18110, 0x18000), (0x18118, 1)]

theorem witness_kv :
    (let ea : Word := 0x1FFFFFFFFFF0000
     ea.toNat % 0x10000 = 0 ∧ ea.toNat + 0x10000 * 1 ≤ 2 ^ 57 ∧ ¬ Meets scene scene.core.part ea.toNat 0x10000 ∧
     scene.sliceFull 0 [ea.toNat] = false) ∧
    (0x10001 : Word).toNat % 0x10000 ≠ 0 ∧ (65536 : Word).toNat < (65537 : Word).toNat ∧ Meets scene scene.core.part 0x10000 0x10000 ∧
    scene.regionAt 0x40000 = none ∧
    (let s := sequences 0
     (match s.regionAt 0x5FFFF with | some r => decide (r.owner = running.handle ∧ 0x50000 + 0x10000 * 1 ≤ r.base + 0x10000 * r.count) | none => false) = true ∧
     s.self = some running ∧ quietB s = true ∧ s.dwordAt 0x18100 = 1 ∧ s.dwordAt 0x18108 = 0 ∧ s.dwordAt 0x18110 = 0x18000 ∧
     s.dwordAt 0x18118 = BitVec.ofNat 64 1 ∧ virtB s .read 0x18100 32 0x18100 = true ∧ virtB s .read 0x18000 8 0x18000 = true ∧
     virtB s .write 0x18000 8 0x18000 = true ∧
     (match s.seqDesc 0x18000 with | .ok q => decide (q.len = 15 ∧ q.vmap = 0 ∧ q.pagesFor (q.len + 1) = q.pagesFor q.len ∧ q.pagesFor q.len ≤ q.maxp) | .error _ => false) = true) ∧
    ((sequences 0).quiet = .ok (sequences 0)) ∧
    (let s := sequences 0x19000
     (match s.seqDesc 0x18000 with | .ok q => decide (q.vmap = 0x19000 ∧ (q.len + 7) / 8 = 2) | .error _ => false) = true ∧
     virtB s .read 0x19100 2 0x19100 = true ∧ virtB s .read 0x19000 2 0x19000 = true ∧ virtB s .write 0x19000 2 0x19000 = true) := by
  refine ⟨⟨by decide, by decide, not_meets_of (by decide +kernel), by decide +kernel⟩, by decide, by decide, meets_of (by decide +kernel),
    by decide +kernel, by decide +kernel, rfl, by decide +kernel⟩

/-- A sequence with tokens of 16 bytes, position 0 valid and selected, in a page of its region. -/
def zeroing : State :=
  let s := sequences 0x19000
  stored { s with pages := s.pages.map (fun p => { p with va := 0x40000, frame := 0x40000, kv := true }) ++ s.pages }
    [(0x18010, 0x20004), (0x19000, 1), (0x19100, 1), (0x1A000, 1)]

theorem witness_kvinval_zero :
    let s := zeroing
    (match s.seqDesc 0x18000 with
     | .ok q => decide (q.len = 15 ∧ q.tlog = 4 ∧ q.vmap = 0x19000 ∧ q.plist = 0x1A000 ∧ q.pagesFor q.len ≤ q.maxp ∧ q.posAddr 1 0 = 0x40000)
     | .error _ => false) = true ∧
    virtB s .read 0x19100 2 0x19100 = true ∧ virtB s .read 0x19000 2 0x19000 = true ∧ virtB s .write 0x19000 2 0x19000 = true ∧
    natOfBytes (s.mem.bytes 0x19100 2) = 1 ∧ natOfBytes (s.mem.bytes 0x19000 2) = 1 ∧ natOfBytes (s.mem.bytes 0x1A000 4) = 1 ∧
    virtB s .read 0x1A000 4 0x1A000 = true ∧ virtB s .write 0x40000 16 0x40000 = true ∧ quietB s = true ∧ s.self = some running := by
  decide +kernel

/-- A journal open with one record of a type, at a place of its buffer, for an address. -/
def journalOf (type : Nat) (a : Word) : State :=
  let j : Journal := { buf := 0x18000, size := 1024, used := 24, recs := [(0x20, type)], lines := [], reserved := [] }
  let s := stored { scene with pages := scene.pages.map (fun p => { p with va := 0x40000, frame := 0x40000, kv := true, st := .moving }) ++ scene.pages }
    [(0x18020, a), (0x18030, 7)]
  { s with ctxs := s.ctxs.map (fun c => if c.handle = running.handle then { c with journal := some j } else c) }

/-- A journal open with one record of an old doubleword, at a place of its buffer. -/
def journaling : State :=
  let j : Journal := { buf := 0x18000, size := 1024, used := 24, recs := [(0x20, 2)], lines := [], reserved := [] }
  let s := stored scene [(0x18020, 0x1FFF8), (0x18030, 7)]
  { s with ctxs := s.ctxs.map (fun c => if c.handle = running.handle then { c with journal := some j } else c) }

theorem witness_journals :
    (scene.self = some running ∧ running.journal = none) ∧ (0x18001 : Word).toNat % 64 ≠ 0 ∧ (1023 : Word).toNat % 64 ≠ 0 ∧
    (let ea : Word := 0x1FC00; ea.toNat % 64 = 0 ∧ (1024 : Word).toNat % 64 = 0 ∧ 1024 ≤ (1024 : Word).toNat) ∧
    ((cut 0x1FC00 1024).all (fun x => match scene.pageAt scene.core.part x.1 with | some p => !p.kv | none => false) = true) ∧
    ((cut 0x30000 1024).any (fun x => (scene.pageAt scene.core.part x.1).isNone) = true) ∧
    (let s := journaling
     (match s.self with | some c => (match c.journal with | some j => decide (j.recs = [(0x20, 2)] ∧ (j.buf + 0x20) % 32 = 0) | none => false) | none => false) = true ∧
     virtB s .read 0x18020 24 0x18020 = true ∧ (s.dwordAt 0x18020).toNat % 8 = 0 ∧ virtB s .write (s.dwordAt 0x18020).toNat 8 0x1FFF8 = true) := by
  decide +kernel

/-- JREWIND: a record of a line, of a page that is resident, and of one that is in flight; the issuer's own writes have performed. -/
theorem witness_rewind :
    scene.quiet = .ok scene ∧ journaling.quiet = .ok journaling ∧ (journalOf 1 0x1FF00).quiet = .ok (journalOf 1 0x1FF00) ∧
    (let s := journalOf 1 0x1FF00
     (match s.self with | some c => (match c.journal with | some j => decide (j.recs = [(0x20, 1)] ∧ j.buf + 0x20 = 0x18020) | none => false) | none => false) = true ∧
     virtB s .read 0x18020 144 0x18020 = true ∧ virtB s .write (s.dwordAt 0x18020).toNat 128 0x1FF00 = true) ∧
    (let s := journalOf 3 0x10000
     virtB s .read 0x18020 8 0x18020 = true ∧ (s.pageAt s.core.part (s.dwordAt 0x18020).toNat).any (fun p => p.st != .moving) = true) ∧
    (let s := journalOf 3 0x40000
     virtB s .read 0x18020 8 0x18020 = true ∧ (s.dwordAt 0x18020).toNat < 2 ^ 57 ∧
     (s.pageAt s.core.part (s.dwordAt 0x18020).toNat).any (fun p => p.st == .moving) = true) := by
  refine ⟨rfl, rfl, rfl, by decide +kernel, by decide +kernel, by decide +kernel⟩

/-- A handler, and a frame address in the page; the frame of the handler's return. -/
def handled : State :=
  { stored scene [(0x18008, 0x10000)] with
      core := { scene.core with frec := 0x18000 }, parts := scene.parts.set 0 { scene.parts[0] with f := scene.parts[0].f.set 12 0x10040 } }

/-- The same with an accepted entry still to be written. -/
def handledBusy : State :=
  let t := handled.setImg { handled.img with q := handled.img.q.set 0 { Stream.closed with dir := .write, sh := 1, n := 1, spec := 1, dist := 4096 } }
  { t with core := { t.core with queues := t.core.queues.set 0 [entry [(0x10000, 7)]] } }

theorem witness_trap_writes :
    handledBusy.levelS = false ∧ handledBusy.partField handledBusy.core.part 12 ≠ 0 ∧ handledBusy.pending (fun _ => true) ≠ [] ∧
    Lands handledBusy (handledBusy.pending (fun _ => true)) ∧ VirtRun handledBusy .write handledBusy.core.frec.toNat 248 0x18000 ∧
    handled.pending (fun _ => true) = [] ∧ (8 : Nat) ≠ 25 :=
  ⟨by decide +kernel, by decide +kernel, by decide +kernel, lands_of (by decide +kernel), virt_of (by decide +kernel), by decide +kernel, by decide⟩

theorem witness_traps :
    (handled.levelS = false ∧ handled.partField handled.core.part 12 ≠ 0 ∧ (∀ q : Fin 8, handled.img.q[q].dir = .closed) ∧
      virtB handled .write handled.core.frec.toNat 248 0x18000 = true) ∧
    (scene.partField scene.core.part 12 = 0 ∧ scene.core.handle = some running.handle ∧ scene.findCtx running.handle = some running ∧ running.st = .running) ∧
    ((atS handled).levelS = true ∧ virtB (atS handled) .read (atS handled).core.frec.toNat 0x70 0x18000 = true ∧
      ((atS handled).dwordAt 0x18008).extractLsb' 57 7 = 0 ∧ ((atS handled).dwordAt 0x18008).extractLsb' 0 2 = 0 ∧ (atS handled).core.l1 = []) := by
  decide +kernel

/-- Level S with partition 0 and with another; a core of the partition that is bound, one that is not; a WFE that is due. -/
def guest : State := { host with core := { host.core with part := 1 } }

theorem witness_system :
    (∀ q : Fin 8, host.img.q[q].dir ≠ .write) ∧ (0x10000 : Word).toNat < 2 ^ 57 ∧
    (host.pageAt 0 0x10000).any (fun p => p.part == host.core.part && decide (p.va < 0x10000 + 1) && decide (0x10000 < p.va + p.bytes)) = true ∧
    host.levelS = true ∧ host.core.part = 0 ∧ guest.levelS = true ∧ guest.core.part ≠ 0 ∧ 63 < (64 : Word).toNat ∧
    ((1 : Word).setWidth 6 : BitVec 6) = guest.core.part ∧ platformField 0 = true ∧ host.core.rep = none ∧ ¬ (15 : Fin 19).val ∈ [5, 6] ∧
    (256 ≤ (256 : Word).toNat ∧ (255 : Word).toNat < 256) ∧ (14 < (15 : Word).toNat ∧ (host.partField 0 16).getLsbD 0 = false) ∧
    2 ^ 57 ≤ (2 ^ 57 : Word).toNat ∧ (0 : Word).toNat ≤ host.ptc.toNat ∧ ¬ (1 : Word).toNat ≤ host.ptc.toNat ∧ running.kp = false ∧
    (1024 ≤ (1024 : Word).toNat ∧ host.ownsCore 0 4 = false) ∧ (host.ownsCore 0 0 = true ∧ (host.coreAt 0).handle.isSome = true) ∧
    (host.ownsCore 0 3 = true ∧ (3 : BitVec 10) ≠ host.core.id ∧ (host.coreAt 3).handle = none ∧ (host.coreAt 3).standby = none ∧
      (host.coreAt 3).m.bar = none) := by
  decide +kernel

/-- Groups: idle, busy with a recast, a pool that holds a page, an ACTIVE UET one; window descriptors, good and bad. -/
def linked (f : Group → Group) : State := { host with groups := host.groups.set 15 (f host.groups[15]) }

theorem witness_recast :
    (host.levelS = true ∧ host.core.part = 0) ∧ quietB host = true ∧ host.core.l1 = [] ∧ host.pathUp host.core.die 3 = true ∧
    (let s : State := { host with bup := 0 }; s.pathUp s.core.die 3 = false) ∧ host.slate.tgt = none ∧ host.core.m.wait = none ∧
    15 < (16 : Word).toNat ∧ (host.group 15).st = .down ∧ host.poolBusy 15 = false ∧ host.islandUp 3 = true ∧
    ((linked (fun x => { x with st := .train })).group 15).st = .train ∧
    (let s : State := { linked (fun x => { x with pers := .cxl, st := .active }) with pages := host.pages.map (fun p => { p with st := .out, tier := .pool, group := 15 }) }
     s.poolBusy 15 = true) ∧
    (let s := stored host [(0x18000, 0x20000000), (0x18008, 0xB), (0x18010, 0), (0x18018, 10000)]
     let w : WinDesc := { lbase := s.dwordAt 0x18000, attr := s.dwordAt 0x18008, rbase := s.dwordAt 0x18010, tmo := s.dwordAt 0x18018 }
     virtB s .read 0x18000 32 0x18000 = true ∧ w.valid .ual = true ∧ s.windowMeets 15 .ual w.window = false ∧ w.valid .cxl = false ∧ w.valid .uet = false) ∧
    (let s := stored host [(0x18000, 0), (0x18008, 0xB)]
     let w : WinDesc := { lbase := s.dwordAt 0x18000, attr := s.dwordAt 0x18008, rbase := s.dwordAt 0x18010, tmo := s.dwordAt 0x18018 }
     w.valid .ual = true ∧ s.windowMeets 15 .ual w.window = true) ∧ (1 : Word).toNat % 32 ≠ 0 ∧
    (let s := stored host [(0x18008, 0x500000000), (0x18010, 7)]
     let w : WinDesc := { lbase := s.dwordAt 0x18000, attr := s.dwordAt 0x18008, rbase := s.dwordAt 0x18010, tmo := s.dwordAt 0x18018 }
     virtB s .read 0x18000 32 0x18000 = true ∧ w.valid .uet = true) := by
  decide +kernel

/-- A RECAST that waits: its group failed, came up, and still at work; the wait lost. -/
theorem witness_recast_waits :
    (let s (out : Option Nat) (st : GroupState) : State :=
       { linked (fun x => { x with st := st }) with core := { host.core with m := { host.core.m with wait := some (.recast 15 out) } } }
     (s (some 5) .down).core.m.wait = some (.recast 15 (some 5)) ∧ (s none .failed).core.m.wait = some (.recast 15 none) ∧ ((s none .failed).group 15).st = .failed ∧
     ((s none .active).group 15).st = .active ∧ ((s none .train).group 15).busy = true) := by
  decide +kernel

theorem witness_rma_and_rings :
    (0x18001 : Word).toNat % 64 ≠ 0 ∧
    (let s := stored (linked (fun x => { x with pers := .uet, st := .active })) [(0x18000, 15), (0x18010, 0x1FF00), (0x18018, 0x100)]
     virtB s .read 0x18000 64 0x18000 = true ∧ (s.dwordAt 0x18000).toNat < 32 ∧ 1 ≤ (s.dwordAt 0x18018).toNat ∧ (s.dwordAt 0x18018).toNat ≤ 1048576 ∧
     (s.dwordAt 0x18020).toNat < 2 ^ 32 ∧ s.dwordAt 0x18030 = 0 ∧ s.dwordAt 0x18038 = 0 ∧ (s.group 15).pers = .uet ∧ (s.group 15).st = .active ∧
     virtB s .read 0x1FF00 0x100 0x1FF00 = true ∧ virtB s .write 0x1FF00 0x100 0x1FF00 = true ∧ s.pathUp s.core.die 3 = true ∧
     (let u : State := { s with bup := 1 }; virtB u .read 0x18000 64 0x18000 = true ∧ u.pathUp u.core.die 3 = false)) ∧
    (let s := stored (linked (fun x => { x with pers := .ual, st := .active })) [(0x18010, 0x18100), (0x18028, 1), (0x18100, 1)]
     virtB s .read 0x18000 64 0x18000 = true ∧ s.ringUp = true ∧ s.dwordAt 0x18010 = 0x18100 ∧ virtB s .read 0x18100 8 0x18100 = true ∧
     (s.dwordAt 0x18100).extractLsb' 32 32 = (s.dwordAt 0x18020).extractLsb' 32 32 ∧ 0 + 1 ≤ ((s.dwordAt 0x18100).extractLsb' 0 32).toNat) ∧
    (let s := stored host [(0x18028, 1)]
     virtB s .read 0x18000 64 0x18000 = true ∧ s.ringUp = false ∧ (s.dwordAt 0x18000).toNat < 2 ^ 58 ∧ (s.dwordAt 0x18008).toNat < 2 ^ 58 ∧ s.bad = [] ∧ (s.groups.toList.all (fun h => !h.busy)) = true ∧ (0 : Word).toNat < (s.dwordAt 0x18028).toNat ∧
     (s.dwordAt 0x18018).toNat % 512 = 0 ∧ s.dwordAt 0x18038 = 0 ∧ (s.dwordAt 0x18010).toNat % 8 = 0 ∧ s.core.m.wait = none) ∧
    (let s := stored { host with core := { host.core with m := { host.core.m with wait := some (.ring 0 9 0x18000 0 0 false) } } } [(0x18000, 1)]
     s.core.m.wait = some (.ring 0 9 0x18000 0 0 false) ∧ virtB s .read 0x18000 8 0x18000 = true ∧ 0 + 1 ≤ ((s.dwordAt 0x18000).extractLsb' 0 32).toNat) := by
  decide +kernel

/-! Slate, the memory stacks and the events. -/

def slated (f : Slate → Slate) : State := { host with slate := f host.slate }

/-- A target in the pod, reached through UALink group 15, its descriptor at 0x18000, with partition 1 enrolled. -/
def targeted (f : Slate → Slate) : State :=
  let s := stored (linked (fun x => { x with pers := .ual, st := .active }))
    [(0x18000, 1), (0x18008, 0x200000), (0x18010, BitVec.ofNat 64 (2 * host.slateSlotSize 2 + 4096)), (0x18018, 0)]
  { s with slate := f { s.slate with cfg := (s.slate.cfg.set 4 2).set 5 0x18000, home := some (true, 0x200000, BitVec.ofNat 64 (host.slateSlotSize 2)),
                                        z := BitVec.ofNat 64 (host.slateSlotSize 2) } }

/-- That target, as the engine keeps it. -/
def target15 : CutTarget := { pod := true, base := 0x200000, size := 2 * host.slateSlotSize 2 + 4096 }

/-- A commit record of generation 1 in slot 1, for the enrolment in force. -/
def recorded : State :=
  targeted (fun x => { x with records := [((true, 0x200000 + 2 * host.slateSlotSize 2 + 64), commitBytes 1 0 (BitVec.ofNat 64 (host.slateSlotSize 2)) 2 0xFFFF)] })

/-- The stacks of the scene serve, every one. -/
theorem host_serves (pa : Nat) : host.stackServes pa = true := by
  have h : ∀ k : Fin 8, ((host.hbmStacks[k]).sr == .normal && host.controllerReady k) = true := by decide +kernel
  exact h ⟨pa / 2 ^ 36 % 8, Nat.mod_lt _ (by decide)⟩

/-- SLCOMMIT: a drained cut whose target takes the record, and one whose target is gone. -/
theorem witness_commit :
    (let s := targeted (fun x => { x with st := .drained, gen := 5, tgt := some target15 })
     s.slate.st = .drained ∧ s.slate.gen = 5 ∧ s.slate.pend = false ∧ s.heldReqs = [] ∧ s.slate.tgt = some target15 ∧ s.targetUp target15 = true) ∧
    (let s := slated (fun x => { x with st := .drained, gen := 5, tgt := some target15 })
     s.slate.tgt = some target15 ∧ s.targetUp target15 = false) ∧
    (let s : State := { slated (fun x => { x with st := .restoring }) with core := { host.core with m := { host.core.m with wait := some .restore } } }
     s.core.m.wait = some .restore ∧ s.slate.st = .restoring) ∧
    (let s : State := { slated (fun x => { x with restored := some 2 }) with core := { host.core with m := { host.core.m with wait := some .restore } } }
     s.core.m.wait = some .restore ∧ s.slate.st ≠ .restoring ∧ s.slate.restored = some 2) ∧
    (let s : State := { host with core := { host.core with m := { host.core.m with wait := some (.slate 1) } } }
     s.core.m.wait = some (.slate 1) ∧ s.slate.cutting = false) ∧ (slated (fun x => { x with st := .copying })).slate.st = .copying := by
  decide +kernel

theorem witness_slate :
    (host.levelS = true ∧ host.core.part = 0) ∧ guest.core.part ≠ 0 ∧ (slated (fun x => { x with st := .restoring })).slate.st = .restoring ∧
    (slated (fun x => { x with st := .drained, gen := 5 })).slate.cutting = true ∧ host.slate.cfg[4] = 0 ∧ host.slate.cutting = false ∧
    (let s := slated (fun x => { x with cfg := (x.cfg.set 4 2).set 5 0x40 })
     s.slate.st = .idle ∧ s.slate.cfg[4] ≠ 0 ∧ s.slate.cfg[5] ≠ 0 ∧ s.core.rep = none ∧ (s.slate.cfg[4]).getLsbD 0 = false ∧ s.heldReqs = []) ∧
    host.core.m.wait = none ∧ host.slate.gen ≠ 5 ∧ host.readTarget.toOption = none ∧ recorded.readTarget.toOption = some target15 ∧ recorded.restoreOk target15 1 = true ∧
    recorded.restoreOk target15 3 = false ∧ recorded.slate.st = .idle ∧
    (cfgMask 6 = 3 ∧ (4 : Word) &&& ~~~cfgMask 6 ≠ 0 ∧ (3 : Word) &&& ~~~cfgMask 6 = 0) ∧
    (host.hbmTarget 0x1FFFF).toOption = some (some 0x1FFFF) ∧
    ((paged (fun p => { p with st := .out, tier := .pool })).hbmTarget 0x1FFFF).toOption = some none ∧
    (host.criticalGroups (stackOf 0x1FFFF) (channelOf 0x1FFFF)).length < 2 ∧
    (let m (g : Nat) : Machine.Mark := { part := 0, stack := 0, pc := channelOf 0x1FFFF, group := g }
     let s : State := { host with marks := [m 5, m 6] }
     bankGroup (bankOf 0x1FFFF) = 1 ∧ 2 ≤ (s.criticalGroups 0 (channelOf 0x1FFFF)).length ∧ 1 ∉ s.criticalGroups 0 (channelOf 0x1FFFF)) := by
  decide +kernel

/-- The host: island 0 up and down; a pod member without the time; a function that is not yet ready, a die and an island that come back. -/
theorem witness_host :
    host.islandUp 0 = true ∧ State.reset.islandUp 0 = false ∧ (1 : Word) ≠ 0 ∧
    (let s := { linked (fun x => { x with pers := .ual, st := .active }) with podid := 0x20000 }
     s.podid.getLsbD 17 = true ∧ s.podid.getLsbD 16 = false ∧ s.ualActive = true) ∧
    (State.reset.ready.getLsbD 27 = false ∧ 16 ≤ (27 : BitVec 5).toNat ∧ (27 : BitVec 5).toNat < 28) ∧
    (let s : State := { State.reset with ready := 0x80 }; s.ready.getLsbD 27 = false ∧ s.ready.getLsbD (4 + 27 % 4) = true) ∧
    (host.slate.tgt = none ∧ (host.core :: host.others).all (fun k => k.link.isNone) = true) ∧
    (State.reset.dies[(3 : BitVec 2).toFin].st = .resetting ∧ State.reset.ctxs = []) ∧ (host.dieUp 3 = true ∧ host.moves = []) ∧
    (host.islandUp 3 = true ∧ host.islandUp 4 = true) ∧ State.reset.islandUp 3 = false := by
  decide +kernel

/-- The second context Parked and idle; a queue whose next record is a TASK for it; the records of the other types. -/
def idle : State :=
  { host with ctxs := host.ctxs.map (fun c => if c.handle = second.handle then { c with st := .parked, cause := .idle, wake := BitVec.allOnes 64 } else c) }

def task : Launch := { w0 := 1, addr := 0x18000, handle := second.handle.setWidth 64, arg := 0, compl := 0, rsv := 0, pred := 0, tag := 9 }

def queued (l : Launch) : State := idle.putQueue 255 { (idle.queueAt 255) with base := 0x1C000, part := 0, en := true, log2n := 4, tail := 1, cur := some l }

theorem witness_records :
    (idle.dieUp (queueDie 255) = true ∧ idle.ready.getLsbD (16 + queueDie 255) = true) ∧
    (let s := stored (idle.putQueue 255 { (idle.queueAt 255) with base := 0x1C000, part := 0, en := true, log2n := 4, tail := 1 })
                [(0x1C000, 1), (0x1C008, 0x18000), (0x1C010, second.handle.setWidth 64)]
     let x := s.queueAt 255
     x.en = true ∧ x.head ≠ x.tail ∧ x.cur = none ∧
     (match s.stewardRead x.part 0 (x.slotAt x.head) 64 with | .ok bs => !(launchOfBytes bs).bad false | .error _ => false) = true) ∧
    ((queued task).headRecord 255 = some task ∧ task.type = 1 ∧
     (match (queued task).lookTask 0 0 task with | .start _ _ => true | _ => false) = true ∧
     (match (queued task).findCtx second.handle with | some c => c.st == .parked && !c.moving | none => false) = true) ∧
    (let l : Launch := { task with w0 := 2, handle := 0 }
     let s := stored (queued l) [(0x18000, 1), (0x18040, 1), (0x18048, 0x19000), (0x18050, second.handle.setWidth 64)]
     s.headRecord 255 = some l ∧ l.type = 2 ∧
     (match s.stewardRead 0 0 0x18000 64, s.stewardRead 0 0 0x18040 64 with
      | .ok hd, .ok nodes => (graphNodes hd nodes).isSome && natOfBytes (hd.take 1) == 1
      | _, _ => false) = true) ∧
    (let l : Launch := { task with w0 := 3, handle := 0, addr := 0xC0 }; (queued l).headRecord 255 = some l ∧ l.type = 3 ∧ attrBad l.addr = false) ∧
    (let l : Launch := { task with w0 := 4, addr := 0 }; (queued l).headRecord 255 = some l ∧ l.type = 4) := by
  decide +kernel

/-- A graph with one pending node; the tasks, swaps and wakes of a context; a completion word; placements, pre-emptions and
standby loads. -/
def crowded (eff : BitVec 3) : State :=
  { scene with ctxs := scene.ctxs.map (fun c => if c.handle = second.handle then { c with gang := 1 } else { c with eff := eff }) }

theorem witness_steward :
    (let g : Graph := { id := 7, start := 0, queue := 255, part := 0, compl := 0, irq := false, seqno := 0, nodes := [(task, .pending)] }
     let s : State := { idle with graphs := [g] }
     s.graphs.find? (fun y => y.id == 7) = some g ∧ g.nodes[0]? = some (task, .pending) ∧ task.pred = 0 ∧ task.bad true = false ∧
     s.nodeYields g 0 task g.start.toNat = false ∧ (match s.lookTask 0 0 task with | .start _ _ => true | _ => false) = true) ∧
    (let s : State := { base with core := { base.core with m := { base.core.m with ended := true } } }
     s.findCtx running.handle = some running ∧ running.st = .running ∧
     (gangCores running.base running.gang).all (fun id => (s.coreAt id).m.ended) = true) ∧
    (let c : Ctx := { second with st := .parked, cause := .waitm, wake := BitVec.allOnes 64 }
     let s : State := { host with ptc := 200000, ctxs := [c] }
     s.findCtx second.handle = some c ∧ (s.partField c.part 6).toNat ≤ (s.ptc - c.parkedAt).toNat) ∧
    (let c : Ctx := { second with st := .parked, moving := true }
     ({ host with ctxs := [c] } : State).findCtx second.handle = some c ∧ c.pendReady = false) ∧
    (host.stewardUp 0 = true ∧ host.ready.getLsbD 16 = true ∧ base.dieUp 0 = true ∧ base.ready.getLsbD 16 = true) ∧
    (let s : State := { scene with core := { scene.core with standby := some { handle := second.handle, loaded := false } } }
     s.core.standby = some { handle := second.handle, loaded := false } ∧ s.findCtx second.handle = some second) ∧
    (let c : Ctx := { second with st := .parked, cause := .waitm, wake := 0 }
     c.wake ≠ BitVec.allOnes 64 ∧ c.wake.toNat ≤ host.ptc.toNat) ∧
    (let y : Completion := { queue := 255, part := 0, addr := 0x1FFF8, word := 5, irq := false, seqno := none, node := none }
     let s : State := { host with completions := [y] }
     s.completions = [y] ∧ s.dieUp (y.queue / 256 % 4) = true ∧ y.addr ≠ 0 ∧ (s.complPlace 0 0 0x1FFF8).toOption = some (.mem 0x1FFF8)) ∧
    (scene.nextPlacement 0 (scene.readyOrder 0) []).isSome = true ∧ ((crowded 0).nextPreempt true 0).isSome = true ∧
    ((crowded 5).nextPreempt false 0).isSome = true ∧
    (let s : State := { scene with others := [1, 2, 3].map (fun i => { Core.blank i with handle := some running.handle }) }
     match s.nextStandby 0 with | some (c, b, _) => c.gang == 0 && (s.coreAt b).standby.isNone | none => false) = true := by
  decide +kernel

/-- A swap-out ends where the image may be written: every stack of the scene serves. -/
theorem witness_swap_out :
    let c : Ctx := { second with st := .parked, moving := true, imgAt := some 0x200000 }
    let s : State := { host with ctxs := [c] }
    s.findCtx second.handle = some c ∧ c.pendReady = false ∧ c.imgAt = some 0x200000 ∧ s.stackServes 0x200000 = true ∧
    s.dieUp c.imgDie.toNat = true ∧ s.dieUp (homeOfPa 0x200000) = true ∧ s.pathUp c.imgDie.toNat (homeOfPa 0x200000) = true := by
  decide +kernel

/-- The residency engines: a demand page given its frame, a move in flight, pages to demote from each tier, a recall that a wake
brings near, a hot page, an empty slab block. -/
def cold : Page := { (here host) with va := 0x20000, st := .out, tier := .pool, dest := .pool, demand := true, frame := 0 }

theorem witness_engines :
    (let m : Move := { die := 0, part := 0, va := 0x20000, level := 0, dest := .hbm, kind := .recall, started := false, paths := [], broken := false, key := 0 }
     let s : State := { host with pages := cold :: host.pages, moves := [m] }
     let a := s.settleAll
     a.moves = [m] ∧ a.moveIdle m = false ∧ a.pages.find? (fun y => y.part == m.part && y.va == m.va) = some cold ∧ cold.st ≠ .moving ∧
     a.slateStops cold.part = false ∧ a.slicesUp 0 cold.size cold.va = true ∧ cold.demand = true ∧ a.dieUp 0 = true ∧ a.ready.getLsbD 20 = true ∧
     (match a.spotFor cold m with | some x => a.stackFree x.tier x.at_ | none => false) = true) ∧
    (let p : Page := { cold with st := .moving, dest := .hbm, toFrame := 0x30000 }
     let m : Move := { die := 0, part := 0, va := 0x20000, level := 0, dest := .hbm, kind := .recall, started := true, paths := [], broken := false, key := 0 }
     let s : State := { host with pages := p :: host.pages, moves := [m] }
     s.mem.wf = true ∧ s.pages.find? (fun y => y.part == 0 && y.va == 0x20000) = some p ∧
     s.moves.find? (fun y => y.part == 0 && y.va == 0x20000 && y.started) = some m ∧ s.stackFree p.dest p.toFrame = true ∧
     m.broken = false ∧ s.dieUp m.die.toNat = true ∧ s.slicesUp m.die.toNat p.size p.va = true ∧ p.demand = true ∧
     s.endReached m.die.toNat p p.tier p.frame = true ∧ s.endReached m.die.toNat p p.dest p.toFrame = true ∧ p.gone = .none) ∧
    (let v : Page := { (here host) with va := 0x20000, tier := .vault, frame := vaultBase 0, tgtVault := true }
     let s : State := { host with pages := [v], frames := [(vaultBase 0, 0)] }
     let here_ := (s.pages.filter (fun y => y.part == 0)).filter (fun y => y.tier == .vault && y.st != .empty && homeOfPa y.frame == 0)
     (s.freeVault 0 0).length + (here_.filter s.leaving).length < (s.partField 0 8).toNat ∧ (s.candidate here_).isSome = true) ∧
    (let s : State := { base with pages := base.pages }
     s.freeHbm 0 + 0 < (s.partField 0 9).toNat ∧ (s.candidate (s.pages.filter (fun y => s.engineDie y == 1))).isSome = true) ∧
    (let c : Ctx := { second with st := .swapped, wake := 50080 }
     let p : Page := { cold with owner := second.handle }
     let s : State := { host with ctxs := [c], pages := [p] }
     s.findCtx second.handle = some c ∧ c.wake ≠ BitVec.allOnes 64 ∧ p.owner = second.handle ∧ p.st = .out ∧
     c.wake.toNat ≤ s.ptc.toNat + (s.partField c.part 7).toNat + ((s.pages.filter (fun y => y.owner == second.handle && y.st == .out)).map Page.recallTicks).sum) ∧
    (let p : Page := { (here host) with owner := second.handle, heat := 64 }
     let s : State := { host with pages := [p], frames := (List.range 65).map (fun k => (vaultBase 0 + 0x10000 * k, 0)) }
     s.findCtx p.owner = some second ∧ 64 ≤ p.heat ∧ p.hot = false ∧ (s.partField 0 15).getLsbD 0 = true ∧
     (s.partField 0 8).toNat < (s.freeVault 0 second.rundie.toNat).length ∧ p.size = 0 ∧ p.kv = false ∧ p.st = .resident ∧ p.tier = .hbm ∧ p.pin = 0 ∧
     (s.ptc - s.dies[second.rundie.toFin].window).toNat < 1000000) ∧
    (let b : SlabBlock := { pa := 0x200000, part := 0, cls := 0 }
     let s : State := { host with blocks := [b] }
     s.blocks.find? (fun y => y.pa == 0x200000) = some b ∧ s.inBlock b = [] ∧ homeOfPa 0x200000 = 0) ∧
    1000000 ≤ ((1000000 : Word) - host.dies[(0 : BitVec 2).toFin].window).toNat := by
  decide +kernel

/-- Streams ahead of their use, writes that settle, waits that end, a barrier arrival of another package, and units at the
program counter that cannot be fetched or decoded. -/
theorem witness_core_events :
    (let s := streaming .read 0 [] none
     let t := s.focus s.core.id
     t.core.handle.isSome = true ∧ t.dieUp t.core.die = true ∧ (t.stream 0).fetches = true ∧ (t.queue 0).length < 8 ∧ (t.stream 0).held = none ∧
     (t.stream 0).spec < (t.stream 0).n ∧ isOk (t.fetchEntry 0) = true ∧ t.core.l1 = []) ∧
    (let s : State := { streaming .read 0 [] none with pages := [] }; isOk (s.fetchEntry 0) = false) ∧
    (let s := streaming .write 1 [entry [(0x10000, 7)]] none
     (s.focus s.core.id).core.handle.isSome = true ∧ ((s.focus s.core.id).stream 0).dir = .write ∧ (s.focus s.core.id).queue 0 = entry [(0x10000, 7)] :: [] ∧
     landsB (s.focus s.core.id) (entry [(0x10000, 7)]).writes = true) ∧
    (let w : WaitmReq := { f := .int64, sc := .co, sp := .virt, cond := .eq, park := true, d := 3, ea := 0x1FFF8, b := 0, len := 8 }
     let s : State := { base with ptc := 820, core := { base.core with m := { base.core.m with wait := some (.waitm 0 false w) } } }
     let t := s.focus s.core.id
     t.core.m.wait = some (.waitm 0 false w) ∧ 820 ≤ (s.ptc - 0).toNat ∧ t.coreRuns = true ∧ t.core.rep = none ∧
     (match t.readWord w.sp .read w.ea (w.f.width / 8) with | .ok v => waitmHolds w.cond v (w.b.toNat % 2 ^ w.f.width) | .error _ => false) = true ∧
     waitmHolds .eq 0 1 = false) ∧
    (let s : State := { base with core := { base.core with m := { base.core.m with wait := some (.wfe 3 0 8) } } }
     (s.focus s.core.id).core.m.wait = some (.wfe 3 0 8) ∧ (s.focus s.core.id).coreRuns = true ∧ (0 : Word).toNat ≤ s.ptc.toNat) ∧
    (let s : State := { base with ptc := 9, core := { base.core with m := { base.core.m with wait := some (.ring 0 9 0x18000 0 0 false) } } }
     (s.coreAt s.core.id).m.wait = some (.ring 0 9 0x18000 0 0 false) ∧ (9 : Word).toNat ≤ (s.ptc - 0).toNat) ∧
    (let s : State := { base with podv := true }; s.podv = true ∧ (s.channelAt .pd 0 15).arrived = 0) ∧
    (base.coreRuns = true ∧ base.fetchAt base.img.pc = .ok [0] ∧ decodeParcels base.levelS [0] = .error .opcode ∧
      isOk ((base.setPc 0x20000).fetchAt 0x20000) = false) := by
  decide +kernel

/-- The course of a recast, and requests from outside. -/
theorem witness_link_events :
    ((linked (fun x => { x with st := .drain })).group 15).st = .drain ∧ (linked (fun x => { x with st := .drain })).inFlight 15 = false ∧
    (let s : State := { linked (fun x => { x with st := .drain, tmo := 5 }) with ptc := 5 }
     ((s.group 15).tmo).toNat ≤ (s.ptc - (s.group 15).since).toNat) ∧
    ((linked (fun x => { x with st := .retarget })).group 15).st = .retarget ∧ ((linked (fun x => { x with st := .train })).group 15).st = .train ∧
    (host.group 15).st = .down ∧ ((linked (fun x => { x with st := .active })).group 15).st ≠ .down ∧
    (let s : State := { linked (fun x => { x with pers := .ual, st := .active }) with pages := [{ (here host) with pin := 1 }] }
     (s.group 15).pers = .ual ∧ s.stackServes 0x1FFF8 = true ∧
     s.pages.find? (fun p => p.st == .resident && p.tier == .hbm && p.pin != 0 && decide (p.frame ≤ 0x1FFF8) && decide (0x1FFF8 + 8 ≤ p.frame + p.bytes)) = some { (here host) with pin := 1 } ∧
     s.dieUp (homeOfPa 0x1FFF8) = true ∧ s.pathUp (dieOfGroup 15) (homeOfPa 0x1FFF8) = true ∧ s.slateStops 0 = false) ∧
    (hbmTop - 1 + [(7 : Byte)].length ≤ hbmTop ∧ host.dieUp (homeOfPa (hbmTop - 1)) = true ∧ host.pathUp 0 (homeOfPa (hbmTop - 1)) = true ∧
      host.stackServes (hbmTop - 1) = true) ∧
    (let s : State := { linked (fun x => { x with pers := .uet, st := .active }) with pages := [{ (here host) with pin := 1 }], exports := [(255, (0x10000, 0x1000, 0x200, 9))] }
     s.exportOf 9 = some (0x10000, 0x1000, 0x200, 9) ∧ 0xFFF + 1 ≤ (0x1000 : Word).toNat ∧ (0x200 : Word).getLsbD 9 = true ∧
     cut 0x10FFF 1 = [(0x10FFF, 1)] ∧ (match s.pageAt 0 0x10FFF with | some p => p.st == .resident && p.pin != 0 | none => false) = true ∧
     s.slateStops 0 = false ∧ (s.translateFor 0 (dieOfGroup 15) .write true 0x10FFF).toOption = some (.mem 0x10FFF)) ∧
    host.exportOf 9 = none := by
  decide +kernel

/-- Requests that wait: at a group that is recast, for a partition that a cut stops, at a stack under thermal hold. -/
theorem witness_held_requests :
    ((linked (fun x => { x with st := .drain })).group 15).busy = true ∧ host.heldReqs = [] ∧ host.slate.tgt = none ∧
    (let s : State := { linked (fun x => { x with pers := .ual, st := .active }) with pages := [{ (here host) with pin := 1 }] }
     let u : State := { s with slate := { s.slate with st := .stopping, cfg := s.slate.cfg.set 4 1 } }
     u.slateStops 0 = true ∧ u.dieUp (homeOfPa 0x1FFF8) = true ∧ u.pathUp (dieOfGroup 15) (homeOfPa 0x1FFF8) = true) ∧
    (let s := host.putStack 7 { (host.stackAt 7) with sr := .held }
     s.stackServes (hbmTop - 1) = false ∧ s.islandUp 0 = true ∧ s.dieUp (homeOfPa (hbmTop - 1)) = true ∧ s.pathUp 0 (homeOfPa (hbmTop - 1)) = true) := by
  decide +kernel

/-- Refresh and the thermal hold of stack 7. -/
def refreshed (f : PseudoChannel → PseudoChannel) : State := { host with pcs := [f (host.pcAt 7 95)] }

theorem witness_stack_events :
    (host.controllerReady 7 = true ∧ 152 * (host.pcAt 7 95).next ≤ host.cycles 7 ∧ (host.stackAt 7).sr = .normal ∧ (host.pcAt 7 95).allbank = false ∧
      (host.pcAt 7 95).occupied 0 = false ∧ bankGroup 0 ∉ host.criticalGroups 7 95) ∧
    (let s : State := { host with marks := [{ part := 0, stack := 7, pc := 95, group := 0 }] }; bankGroup ((s.pcAt 7 95).next % 32) ∈ s.criticalGroups 7 95) ∧
    (let r : BankRef := { bank := 31, payback := false, queued := 0, waiting := false, since := 0, held := [] }
     ((refreshed (fun y => { y with running := [r] })).pcAt 7 95).running.find? (fun r => r.bank == 31 && !r.waiting) = some r) ∧
    (let r : BankRef := { bank := 31, payback := false, queued := 0, waiting := true, since := 0, held := [] }
     ((refreshed (fun y => { y with running := [r] })).pcAt 7 95).running.find? (fun r => r.bank == 31 && r.waiting) = some r ∧
     ((refreshed (fun y => { y with running := [r], allbank := true })).pcAt 7 95).allbankOn = false) ∧
    (let y := (refreshed (fun y => { y with owed := [9, 4] })).pcAt 7 95
     y.allbank = false ∧ (y.owed.filter (fun b => (0xFF : BitVec 8).getLsbD (bankGroup b) && !y.occupied b)).min? = some 4) ∧
    ((refreshed (fun y => { y with allbank := true, allbankOn := true })).pcAt 7 95).allbankOn = true ∧
    (let y := (refreshed (fun y => { y with allbank := true })).pcAt 7 95; y.allbank = true ∧ y.allbankOn = false ∧ y.running = []) ∧
    (let s : State := { host with clock := 16000 }; 0 + 188 ≤ s.cycle ∧ (s.pcAt 7 95).abSince + 438 ≤ s.cycle ∧ (s.stackAt 7).leftAt + 4000 ≤ s.cycle) ∧
    (((host.putStack 7 { (host.stackAt 7) with sr := .held }).stackAt 7).sr ≠ .normal ∧ host.heldReqs = []) ∧
    (let y := (refreshed (fun y => { y with owed := List.range 8 })).pcAt 7 95; 8 ≤ y.owed.length ∧ y.allbank = false ∧ y.occupied 0 = false) ∧
    (let s := host.putStack 7 { (host.stackAt 7) with sr := .entering, critical := true }; (s.stackAt 7).sr = .entering ∧ s.pcs = [] ∧ (s.stackAt 7).critical = true) ∧
    (let s : State := { host.putStack 7 { (host.stackAt 7) with sr := .held } with ptc := 10000000 }
     (s.stackAt 7).sr = .held ∧ (s.stackAt 7).critical = false ∧ 10000000 ≤ (s.ptc - (s.stackAt 7).deassertedAt).toNat) ∧
    ((host.putStack 7 { (host.stackAt 7) with sr := .leaving }).stackAt 7).sr = .leaving := by
  decide +kernel

theorem witness_slate_course :
    (host.heldReqs = [] ∧ host.slateCopies = true ∧ (slated (fun x => { x with pend := true })).slate.st = .idle) ∧
    (let s := slated (fun x => { x with st := .stopping, cfg := x.cfg.set 4 2 })
     s.settleAll.sourceBad 2 (s.settleAll.dirtyUnits 2 (slotOf s.slate.gen)) = false ∧ s.slate.pend = false) ∧
    (let s : State := { slated (fun x => { x with st := .stopping, cfg := x.cfg.set 4 2, allDirty := 3 }) with bad := [(3, vaultBase 0 / 32)], parts := host.parts.set 1 { host.parts[1] with f := host.parts[1].f.set 0 1 } }
     s.settleAll.sourceBad 2 (s.settleAll.dirtyUnits 2 (slotOf s.slate.gen)) = true) ∧
    (let s := targeted (fun x => { x with st := .draining, gen := 1, tgt := some target15, staging := some host.snapshot })
     s.slate.st = .draining ∧ s.slateCopies = true ∧ s.slate.tgt = some target15 ∧ s.targetUp target15 = true ∧ s.slate.man = false) ∧
    ((slated (fun x => { x with st := .draining })).slate.tgt = none ∧ (slated (fun x => { x with st := .draining, man := true })).slate.man = true) ∧
    (slated (fun x => { x with st := .drained })).slate.st = .drained := by
  decide +kernel

theorem witness_slate_events :
    (host.slate.cfg[6].getLsbD 0 = false) ∧ 1000000000 ≤ ((1000000000 : Word) - host.slate.winAt).toNat ∧
    (slated (fun x => { x with pend := true })).slate.pend = true ∧
    (let s : State := { slated (fun x => { x with st := .stopping, cfg := x.cfg.set 4 1 }) with ptc := 1000000 }
     s.findCtx running.handle = some running ∧ s.slate.st = .stopping ∧ s.slate.cfg[4].getLsbD running.part.toNat = true ∧
     1000000 ≤ (s.ptc - s.slate.startedAt).toNat) ∧
    (let s := slated (fun x => { x with st := .stopping, cfg := x.cfg.set 4 2 })
     s.ctxs.all (fun v => !(v.st == .running) || !(s.slate.cfg[4].getLsbD v.part.toNat)) = true ∧ s.moves = []) ∧
    (slated (fun x => { x with st := .copying })).slate.st = .copying ∧ (slated (fun x => { x with st := .draining })).slate.st = .draining ∧
    (let z := host.slateSlotSize 2
     let s := targeted (fun x => { x with st := .restoring, restoring := 1, tgt := some target15, slots := [((true, 0x200000 + z, z), host.snapshot)] })
     s.slate.st = .restoring ∧ s.slate.tgt = some target15 ∧ s.slate.slotAt target15 s.slate.z (slotOf s.slate.restoring) = some host.snapshot) := by
  decide +kernel

/-! Witnesses for clauses at other boundary values. -/

/-- A pop that fetches its entry itself and faults; a stream that names no register between. -/
theorem witness_pop_fetch :
    let s : State := { streaming .read 0 [] none with pages := [] }
    (s.stream 0).dir = .read ∧ s.queue 0 = [] ∧ (s.stream 0).held = none ∧ (s.stream 0).spec < (s.stream 0).n ∧ isOk (s.fetchEntry 0) = false := by
  decide +kernel

/-- An indirect dimension: an entry that is zero and one that is not; an element whose second tile has another owner. -/
theorem witness_indirect :
    (let sh := shapeOf 0x10000 .bf16 .virt 4 4 + BitVec.ofNat 512 (2 ^ 75 + 0x40 * 2 ^ 80)
     let s : State := { base with core := { base.core with nsSize := 8192 } }
     let t : State := { s with mem := s.mem.splice (nsBase s.core.id.toNat + 0x4C) [3, 0, 0, 0] }
     s.shapeOk sh = true ∧ shInd sh = 1 ∧ shInd sh ≤ shRank sh ∧ s.bad = [] ∧ s.nsWord32 (shItab sh + 4 * 3) = 0 ∧ t.nsWord32 (shItab sh + 4 * 3) = 3) ∧
    (let s : State := { base with core := { base.core with nsSize := 8192, nsOwner := [(1, .ce)] } }
     shSpace (shapeOf 4094 .fp32 .ns 1 8) = .ns ∧ s.shapeOk (shapeOf 4094 .fp32 .ns 1 8) = true ∧ 4094 + 4 ≤ s.core.nsSize ∧ 4096 * 1 < 4094 + 4 ∧
     s.ownerOf .ns (4096 * 1) ≠ .thread ∧ s.ownerOf .ns (4096 * 0) = .thread) := by
  decide +kernel

/-- MMA of a floating-point format without scales; MMAG's gathered rows with indices of zero. -/
theorem witness_floating_mma :
    (let s := slotted .bf16 3 (by decide)
     (s.slotRec 3).format = .bf16 ∧ (s.slotRec 3).st = .valid ∧ s.slotFail 3 = none ∧ (s.slotRec 3).depth = matrixDepth .bf16 ∧ (s.slotRec 3).c.getLsbD 2 = false ∧
     s.scalesA .bf16 = false ∧ runsOverlap (s.offAcc 0) 16384 (s.offT 31) 4096 = false) ∧
    (let s := slotted .bf16 0 (by decide)
     isOk (s.slotFor .bf16 false 0) = true ∧ isOk (s.viewClear 0 (List.replicate 64 (s.offT 31, 64))) = true ∧ isOk (s.soundReg (s.offT 31) 64) = true ∧
     (List.range 64).all (fun i => ((s.readV 1).extractLsb' (16 * i) 16).toNat == 0) = true) := by
  decide +kernel

/-- COPY's checks: a command too long, a run past its space, a tile of another owner; COPYN's: a bad shape, and two that disagree. -/
theorem witness_engine_faults :
    1048576 < (1048577 : Word).toNat ∧ (1048576 : Word).toNat ≤ 1048576 ∧ ¬ ((1 : Nat) = 0 ∨ 0x10000000 + 1 ≤ 0x10000000) ∧
    ¬ ((1 : Nat) = 0 ∨ 2 ^ 57 + 1 ≤ 2 ^ 57) ∧ (0xFFFFFFF + 1 ≤ 0x10000000) ∧
    (let s := engines .xe; s.ownerOf .ns 4096 ≠ .ce ∧ s.ownerOf .ns 0 ≠ .ce ∧ 0 < 4097 ∧ 4096 * 1 < 0 + 4097 ∧ 0 + 4097 ≤ s.core.nsSize) ∧
    (engines .ce).ownerOf .ns 4096 = .ce ∧ shaped.shapeOk (shaped.readSh 5) = false ∧ shaped.shapeOk (shaped.readSh 1) = true ∧ shInd (shaped.readSh 1) = 0 ∧
    shInd (shaped.readSh 2) = 0 ∧ shaped.shapeOk (shaped.readSh 2) = true ∧ (shFmtD (shaped.readSh 1)).width ≠ (shFmtD (shaped.readSh 2)).width := by
  decide +kernel

/-- PHASE: an SCLD outstanding, a stream of SPACE NS by its index shape alone, a departing tile of another owner. -/
theorem witness_phase :
    (base.setImg { base.img with late := [0] }).img.late ≠ [] ∧ (311296 : Word).toNat ≤ 311296 ∧ (311296 : Word).toNat % 8192 = 0 ∧
    (let t := (streaming .gather 0 [] none).setImg { (streaming .gather 0 [] none).img with
       sh := (streaming .gather 0 [] none).img.sh.set 2 (shapeOf 0 .int32 .ns 16 8) }
     (t.img.q[(0 : Fin 8)].dir = .gather ∧ shSpace (t.readSh t.img.q[(0 : Fin 8)].sh) ≠ .ns ∧ shSpace (t.readSh t.img.q[(0 : Fin 8)].ish) = .ns)) ∧
    (let s : State := { base with core := { base.core with nsSize := 16384, nsOwner := [(3, .ce)] } }
     (8192 : Word).toNat < 4096 * 3 + 4096 ∧ 4096 * 3 < s.core.nsSize ∧ s.ownerOf .ns (4096 * 3) ≠ .thread ∧ s.ownerOf .ns (4096 * 2) = .thread ∧
     s.img.late = [] ∧ ∀ q : Fin 8, s.img.q[q].dir = .closed) := by
  decide +kernel

/-- A Parked context that a kick frees, one that it does not; a handle that is stale, one of another partition, one whose Steward is
down; a die with a free entry. -/
theorem witness_handles :
    (let c : Ctx := { second with st := .parked, cause := .park, mask := 4 }
     let s : State := { host with ctxs := [c] }
     (match s.target (c.handle.setWidth 64) with | .ok x => x == c | .error _ => false) = true ∧ c.pendReady = false ∧ c.moving = false ∧ c.mask.getLsbD 2 = true ∧
     ({ c with mask := 3 }).mask.getLsbD 2 = false) ∧
    (base.stewardUp 0 = true ∧ (∀ x ∈ base.ctxs, x.handle = (2 : BitVec 32) → x.st = .free ∨ x.part ≠ base.core.part) ∧ (2 : Word).toNat < 2 ^ 32) ∧
    (let s : State := { host with ctxs := [{ second with part := 1 }] }; ∀ x ∈ s.ctxs, x.handle = second.handle → x.st = .free ∨ x.part ≠ s.core.part) ∧
    ({ base with dies := base.dies.set 3 { base.dies[3] with st := .off } } : State).stewardUp (0xC0000001 / 2 ^ 30) = false ∧
    (let s : State := { base with parts := base.parts.set 0 { base.parts[0] with f := base.parts[0].f.set 4 2 } }
     s.ctxCount s.core.part < (s.partField s.core.part 4).toNat ∧ ∀ x ∈ s.ctxs, x.edie = (3 : BitVec 2) → x.index = (16383 : BitVec 14) → x.st = .free) ∧
    ({ base with parts := base.parts.set 0 { base.parts[0] with f := base.parts[0].f.set 4 0 } } : State).ctxCount 0 =
      (({ base with parts := base.parts.set 0 { base.parts[0] with f := base.parts[0].f.set 4 0 } } : State).partField 0 4).toNat + 1 ∧
    base.img.late = [] := by
  decide +kernel

/-- A RESIDENT page whose recall's second leg is queued. -/
theorem witness_second_leg :
    let s := paged (fun p => { p with tgtVault := true })
    let m : Move := { die := 0, part := 0, va := 0x10000, level := 2, dest := .vault, kind := .recall, started := false, paths := [], broken := false, key := 0 }
    let t : State := { s with moves := [m] }
    (here t).st = .resident ∧ (here t).pin = 0 ∧ (here t).tier ≠ (here t).target ∧ (here t).target = .vault ∧ (∀ x ∈ s.moves, x.kind ≠ .recall) ∧
    t.writeWaits (here t).frame (here t).bytes = false := by
  decide +kernel

/-- KVAPPEND that needs a page: no granted frame free, a region with no EMPTY page, and one of each. -/
def needing : State :=
  let s := sequences 0
  stored { s with pages := { (here s) with va := 0x50000, st := .empty, kv := true, tier := .vault, dest := .vault } :: s.pages } [(0x18000, 16)]

theorem witness_kv_pages :
    (let s := needing
     (match s.seqDesc 0x18000 with | .ok q => decide (q.pagesFor (q.len + 1) = q.pagesFor q.len + 1 ∧ q.pagesFor (q.len + 1) ≤ q.maxp ∧ q.vmap = 0 ∧ q.base = 0x40000 ∧
       q.plist + 4 * q.pagesFor q.len = 0x1A004) | .error _ => false) = true ∧
     virtB s .write 0x1A004 4 0x1A004 = true ∧ s.freeVault 0 0 = [] ∧ (s.regions.find? (fun x => x.part == 0 && x.base == 0x40000)).isSome = true ∧ quietB s = true) ∧
    (let s : State := { needing with frames := [(vaultBase 0, 0)] }
     s.freeVault 0 0 ≠ [] ∧ (s.pages.find? (fun y => y.part == 0 && y.va == 0x40000 + 0x10000 * 1 && y.st == .empty)).isSome = true ∧
     (s.pages.find? (fun y => y.part == 0 && y.va == 0x40000 + 0x10000 * 0 && y.st == .empty)) = none ∧
     s.pages.all (fun y => !(y.part == 0 && y.va == 0x50000) || y.st == .empty) = true) ∧
    (let s : State := { (sequences 0) with frames := [(vaultBase 0, 0)] }
     s.freeVault 0 0 ≠ [] ∧ s.pages.all (fun y => !(y.st == .empty)) = true) := by
  decide +kernel

/-- A journal of a line and a dword record; one that is open with room for a record, and with none; a KV page under it. -/
def recording (used size : Nat) : State :=
  let j : Journal := { buf := 0x18000, size := size, used := used, recs := [], lines := [], reserved := [] }
  let s : State := { (sequences 0) with pages := (here scene) :: { (here scene) with va := 0x30000, frame := 0x30000, kv := true } :: [] }
  { s with ctxs := s.ctxs.map (fun c => if c.handle = running.handle then { c with journal := some j } else c) }

theorem witness_recording :
    (let j : Journal := { buf := 0x18000, size := 1024, used := 168, recs := [(0x20, 1), (0, 2)], lines := [], reserved := [] }
     let s := stored { scene with ctxs := scene.ctxs.map (fun c => if c.handle = running.handle then { c with journal := some j } else c) } [(0x18000, 0x1FFF8), (0x18020, 0x1FF00)]
     s.self.any (fun c => c.journal == some j) = true ∧ s.img.late = [] ∧ virtB s .read (j.buf + 0x20) 144 0x18020 = true ∧ virtB s .read (j.buf + 0) 24 0x18000 = true ∧
     virtB s .write (s.dwordAt 0x18020).toNat 128 0x1FF00 = true ∧ virtB s .write (s.dwordAt 0x18000).toNat 8 0x1FFF8 = true) ∧
    (let s := recording 0 1024
     (∀ q : Fin 8, s.img.q[q].dir ≠ .write) ∧ s.core.l1 = [] ∧ s.self.isSome = true ∧ virtB s .write 0x30FF8 8 0x30FF8 = true ∧
     (s.pageAt 0 (128 * (0x30FF8 / 128))).any (fun p => p.kv) = true ∧ 0 + 144 ≤ 1024 ∧ virtB s .write 0x18000 144 0x18000 = true ∧
     (match s.seqDesc 0x18000 with | .ok q => q.pagesFor (q.len + 1) == q.pagesFor q.len | .error _ => false) = true) ∧
    (recording 896 1024).self.any (fun c => c.journal.any (fun j => decide (j.size < j.used + 144))) = true := by
  decide +kernel

/-- ERET whose record no page maps, has a bad EPC, or finds a queue open; a TRAP whose CAUSE is put down. -/
theorem witness_nested :
    (let s : State := { atS handled with core := { (atS handled).core with frec := 0x30000 } }
     s.levelS = true ∧ s.pageAt s.core.part s.core.frec.toNat = none ∧ s.core.frec.toNat < 2 ^ 57 ∧ s.core.link = none ∧ ∀ k : Fin 16, s.groups[k].pers ≠ .ual) ∧
    (let s := stored (atS handled) [(0x18008, 2)]
     (s.dwordAt 0x18008).extractLsb' 0 2 ≠ 0 ∧ virtB s .read s.core.frec.toNat 0x70 0x18000 = true ∧ s.img.late = []) ∧
    (let s := atS handledBusy; ¬ (∀ q : Fin 8, s.img.q[q].dir = .closed) ∧ virtB s .read s.core.frec.toNat 0x70 0x18000 = true) ∧
    (let s := atS handled
     virtB s .write (s.core.frec.toNat + 0xF8) 8 0x180F8 = true ∧ running.gang = 0 ∧ running.base = s.core.id ∧ running.task = none ∧
     (s.partField s.core.part 16).getLsbD 0 = false) := by
  decide +kernel

/-- BARCH words that overlap another partition's, and that do not; a quad that a partition gains. -/
theorem witness_partition_grants :
    (let s : State := { host with parts := host.parts.set 1 { host.parts[1] with f := host.parts[1].f.set 14 8 } }
     s.partField 1 14 &&& (8 &&& 0xFFFFFFFFFFFF) ≠ 0 ∧ ∀ q : BitVec 6, q ≠ 0 → s.partField q 14 &&& (4 &&& 0xFFFFFFFFFFFF) = 0) ∧
    (host.core.part = 0 ∧ host.levelS = true ∧ host.core.rep = none ∧ (host.partField 1 0).getLsbD 63 = false ∧ (2 ^ 63 : Word).getLsbD 63 = true ∧
      (∀ j, j < 64 → j ≠ 63 → (2 ^ 63 : Word).getLsbD j = (host.partField 1 0).getLsbD j) ∧
      host.core.id ∉ ((List.range 4).map (fun i => BitVec.ofNat 10 (256 * 0 + 4 * 63 + i)))) ∧
    (63 < (64 : Word).toNat ∧ 256 ≤ (256 : Word).toNat ∧ 3 < (4 : Word).toNat) := by
  decide +kernel

/-- A target whose descriptor keeps the rules and is reached; one too small; one whose group is not ACTIVE; engines not ready. -/
theorem witness_cut_starts :
    (let s := targeted id
     s.slateReady = true ∧ (s.readAway 0x18000 32).isSome = true ∧ s.dwordAt 0x18000 = 1 ∧ s.dwordAt 0x18018 = 0 ∧ s.slate.st = .idle ∧ s.slate.cfg[4] = 2 ∧
     s.slate.cfg[5] = 0x18000 ∧ (s.dwordAt 0x18008).toNat % 0x200000 = 0 ∧ 2 * s.slateSlotSize 2 + 4096 ≤ (s.dwordAt 0x18010).toNat ∧
     (s.dwordAt 0x18008).toNat < 2 ^ 58 ∧ s.targetUp target15 = true ∧ s.heldReqs = []) ∧
    (let s := stored (targeted id) [(0x18010, 0)]; (s.dwordAt 0x18010).toNat < 2 * s.slateSlotSize 2 + 4096) ∧
    ({ targeted id with groups := host.groups } : State).targetUp target15 = false ∧ ({ targeted id with ready := 0 } : State).slateReady = false ∧
    (∀ c ∈ recorded.ctxs, c.st = .free ∨ (recorded.slate.cfg[4]).getLsbD c.part.toNat = false) := by
  decide +kernel

/-- Nothing waits for an island, a die or a boundary to come back; a die that may rise with its island. -/
theorem witness_returns :
    ((∀ c ∈ host.ctxs, c.st ≠ .frozen) ∧ ∀ y ∈ host.pages, y.gone ≠ .remove ∧ y.owner = 0) ∧
    (let s : State := { host with dies := host.dies.set 3 { host.dies[3] with st := .resetting } }
     s.dies[(3 : BitVec 2).toFin].st = .resetting ∧ s.islandUp 3 = true ∧ s.ready.extractLsb' 0 4 = 0xF ∧ ∀ c ∈ s.ctxs, HoldSrc.die 3 ∉ c.holds) ∧
    host.heldReqs = [] ∧ host.islandUp 0 = true ∧ State.reset.islandUp 0 = false ∧
    (let s : State := { host with islands := host.islands.set 3 { host.islands[3] with up := false } }
     s.islandUp 3 = false ∧ (∀ c ∈ s.ctxs, c.st ≠ .frozen) ∧ ∀ y ∈ s.pages, y.gone ≠ .remove ∧ y.owner = 0) := by
  decide +kernel

/-- A graph node behind one that failed. -/
theorem witness_skipped :
    let l : Launch := { task with pred := 1 }
    let g : Graph := { id := 7, start := 0, queue := 255, part := 0, compl := 0, irq := false, seqno := 0, nodes := [(task, .done 9 0), (l, .pending)] }
    let s : State := { idle with graphs := [g] }
    s.graphs.find? (fun y => y.id == 7) = some g ∧ g.nodes[1]? = some (l, .pending) ∧ l.pred.getLsbD 0 = true ∧ g.nodes[0]? = some (task, .done (8 + 1) 0) ∧
    s.dieUp (queueDie 255) = true := by
  decide +kernel

/-- Swap-outs: the grant of the issuing die's Steward and a place in HBM4E. -/
theorem witness_swap_start :
    let c : Ctx := { second with st := .parked, cause := .waitm, wake := BitVec.allOnes 64 }
    let s : State := { host with ptc := 200000, ctxs := [c] }
    (match s.imageGrant c.imgDie.toNat with | some (p, _) => p == c.part | none => false) = true ∧ (s.imageSpot c).isSome = true := by
  refine ⟨by decide +kernel, ?_⟩
  have h : ∀ x y : Option Nat, y.isSome = true → (x <|> y).isSome = true := by intro x y hy; cases x <;> simp [hy]
  exact h _ _ (by decide +kernel)

/-- Placements: the second context is first and fits core 0's quad beside the running one; or it fits nowhere and takes the block of the
running one, at once or at the end of its slice; or it is loaded into the standby slot of the core. -/
theorem witness_placements :
    (let s := scene
     s.rr = [second.handle] ∧ s.findCtx second.handle = some second ∧ second.st = .ready ∧ second.rundie = 0 ∧ s.slateStops second.part = false ∧
     (∀ id ∈ gangCores 1 second.gang, s.owns second.part id = true ∧ (s.coreAt id).handle = none ∧ (s.coreAt id).standby = none ∧ (s.coreAt id).held.toList = [none, none]) ∧
     (s.coreAt 0).handle ≠ none ∧ s.dieUp 0 = true ∧ s.ready.getLsbD 16 = true ∧ s.dieUp second.imageHome = true ∧ ∀ n, n < 4 → s.pathUp n second.imageHome = true) ∧
    (let s := crowded 5
     let c : Ctx := { second with gang := 1 }
     s.findCtx second.handle = some c ∧ gangSize c.gang = 4 ∧ (s.coreAt 0).handle ≠ none ∧ s.runningOn c 0 = [{ running with eff := 5 }] ∧
     c.prio.toNat - (s.ptc - c.readyAt).toNat / (s.partField 0 5).toNat < (5 : BitVec 3).toNat ∧ s.blockNumber c 0 = 5) ∧
    (let s := crowded 0
     let c : Ctx := { second with gang := 1 }
     c.prio.toNat - (s.ptc - c.readyAt).toNat / (s.partField 0 5).toNat = (0 : BitVec 3).toNat ∧ running.allowance ≤ ((s.ptc - running.placedAt).toNat : Int)) ∧
    (let s : State := { scene with others := [1, 2, 3].map (fun i => { Core.blank i with handle := some running.handle }) }
     (match s.imageGrant 0 with | some (p, _) => p == second.part | none => false) = true ∧ s.standbyOpen second 0 = true ∧ (s.coreAt 0).standby = none ∧
     (∀ k ∈ s.allCores, k.standby = none) ∧ ∀ id : Fin 4, (s.coreAt (BitVec.ofNat 10 id)).handle ≠ none) ∧
    (let s : State := { scene with core := { scene.core with standby := some { handle := second.handle, loaded := false } } }
     s.core.standby = some { handle := second.handle, loaded := false } ∧ s.findCtx second.handle = some second ∧ s.dieUp 0 = true ∧ s.ready.getLsbD 16 = true) ∧
    (let c1 : Ctx := { second with index := 2, gang := 1 }
     let s : State := { scene with ctxs := c1 :: scene.ctxs, rr := [c1.handle, second.handle] }
     s.findCtx c1.handle = some c1 ∧ c1 ≠ second ∧ s.joined c1 = s.joined second ∧ c1.handle ≠ second.handle) := by
  decide +kernel

/-- Compaction of a block with one page in it and room in another block. -/
theorem witness_compaction :
    let p : Page := { (here host) with va := 0x30000, st := .out, kv := true, tier := .hbm, frame := 0x200000 }
    let b : SlabBlock := { pa := 0x200000, part := 0, cls := 0 }
    let s : State := { host with blocks := [b, { b with pa := 0x400000 }], pages := p :: host.pages }
    s.blocks.find? (fun y => y.pa == 0x200000) = some b ∧ 4 * (s.inBlock b).length ≤ slabsPerBlock b.cls ∧ (s.inBlock b).length = 1 ∧
    1 ≤ (s.freeSlabs { b with pa := 0x400000 }).length ∧ s.moves = [] ∧ (s.inBlock b).find? (fun y => y.st == .out && s.stackFree y.tier y.frame) = some p := by
  decide +kernel

/-- A stack whose controller is not ready holds; a UE group that is recast, one that is DOWN and one that is ACTIVE. -/
theorem witness_holds :
    (let s : State := { host with ready := 0 }; s.stackServes 0x1FFF8 = false ∧ s.controllerReady (0x1FFF8 / 2 ^ 36 % 8) = false) ∧
    (let s := linked (fun x => { x with pers := .ual, st := .active })
     let t : State := { s with pages := [{ (here host) with pin := 1 }], ready := host.ready &&& ~~~0xFF00 }
     t.stackHolds 0x1FFF8 = true ∧ t.slateStops 0 = false ∧ t.dieUp (homeOfPa 0x1FFF8) = true ∧ t.pathUp (dieOfGroup 15) (homeOfPa 0x1FFF8) = true) ∧
    ((linked (fun x => { x with pers := .uet, st := .train })).group 15).busy = true ∧ (host.group 15).st = .down ∧
    (let s := linked (fun x => { x with pers := .uet, st := .active }); (s.group 15).st = .active ∧ s.exportOf 9 = none) ∧
    host.stackHolds (hbmTop - 1) = false := by
  decide +kernel

/-- A cut that drains with its content staged, to a target that takes it and to one that does not. -/
theorem witness_drains :
    (let s := targeted (fun x => { x with st := .draining, gen := 1, tgt := some target15, staging := some host.snapshot })
     s.slate.tgt = some target15 ∧ s.slate.staging = some host.snapshot ∧ s.slateCopies = true ∧ s.targetUp target15 = true ∧ s.slate.pend = false) ∧
    (let s := slated (fun x => { x with st := .draining, gen := 1, tgt := some target15, staging := some host.snapshot })
     s.targetUp target15 = false ∧ s.slateCopies = true) ∧
    (let s := slated (fun x => { x with st := .stopping, cfg := x.cfg.set 4 2 }); s.postedLeft s.slate.cfg[4] = false) ∧
    (let s := targeted (fun x => { x with st := .restoring, restoring := 1, tgt := some target15 }); s.slateCopies = true) := by
  decide +kernel

/-! Witnesses: writes that wait for a stack, and the clauses about them. -/

/-- A write stream whose accepted entry goes to a stack under thermal hold; and one whose write waits already. -/
def waiting : State :=
  let s := streaming .write 1 [entry [(0x10000, 7)]] none
  { s.putStack 0 { (s.stackAt 0) with sr := .held } with ready := s.ready &&& ~~~0x100 }

def posted (s : State) : State :=
  { s with heldReqs := [(.stack 0, .posted (some running.handle) 0 0x10000 0xFF [7])] }

/-- END, CLOSE, DRAIN, FENCE, STREAM_WRITE and the start of an instruction with such a write; a push that finds no room for it. -/
theorem witness_waiting_writes :
    (let s := waiting
     s.writesHeld = some 0 ∧ s.levelS = false ∧ s.img.late = [] ∧ (s.stream 0).dir = .write ∧ isOk (s.queueSettled 0) = false ∧ s.pushHeld 0 = none) ∧
    (let s := posted base; s.writesHeld = some 0 ∧ s.core.handle.bind s.postedBy = some 0) ∧
    (let s := posted host; s.levelS = true ∧ s.core.handle.bind s.postedBy = some 0) ∧
    (let s := { waiting with core := { waiting.core with queues := waiting.core.queues.set 0 (List.replicate 8 (entry [(0x10000, 7)])) } }
     s.pushHeld 0 = some 0) ∧
    (let s := streaming .write 1 [entry [(0x10000, 7)]] none
     s.queueSettled 0 = .ok () ∧ s.pushHeld 0 = none ∧ s.writesHeld = none ∧ s.entryHeld (entry [(0x10000, 7)]) = none ∧ s.core.handle.bind s.postedBy = none) := by
  decide +kernel

/-- A step whose instruction's context has such a write, and one with none. -/
theorem witness_start :
    (posted base).tick.writesHeld = some 0 ∧ base.tick.writesHeld = none ∧ (∀ q : Fin 8, base.tick.img.q[q].dir ≠ .write) ∧
    base.tick.core.handle.bind base.tick.postedBy = none := by
  decide +kernel

/-- No write of the issuer's core waits once every core has settled; a page that it leaves. -/
theorem witness_apart :
    (∀ x ∈ host.ctxs, x.st = .running → host.core.id ∈ gangCores x.base x.gang → host.settleAll.postedBy x.handle = none) ∧
    host.settleAll.waitsAt 0x10000 0x10000 = none ∧ (∀ e ∈ entrySlices 0 0x10000, host.islandUp e = true ∧ host.pathUp 0 e = true) ∧
    (let s : State := { host with islands := host.islands.set (homeOfVa 0x10000) { (host.islands[homeOfVa 0x10000]'(by decide)) with up := false } (by decide) }
     ∀ e ∈ entrySlices 0 0x10000, s.islandUp e = false) ∧
    (let s := journalOf 3 0x10000
     (∀ x ∈ s.ctxs, x.st = .running → s.core.id ∈ gangCores x.base x.gang → (s.noteReads [(0x18020, 16)]).settleAll.postedBy x.handle = none) ∧
     (s.noteReads [(0x18020, 16)]).settleAll.waitsAt 0x10000 0x10000 = none) := by
  decide +kernel

/-! Access: ADV and SCLD. -/

theorem no_data_error_of_fault {st : Stream} (h : st.held = some (.trap { code := 8 })) : NoDataError st := by
  intro e he
  rw [h] at he
  cases he
  decide

/-- ADV by less than an entry, by a whole one, and past a held fault; an SCLD behind a full queue, and one behind another. -/
theorem witness_adv_and_scld :
    (let s := streaming .read 4 [⟨0, 2, [], []⟩, ⟨0, 2, [], []⟩] (some (.trap { code := 8 }))
     (s.stream 0).dir = .read ∧ (s.stream 0).spec < (s.stream 0).com + 5 ∧ ¬ (s.stream 0).spec < (s.stream 0).com + 3) ∧
    (let s := base.setImg { base.img with scq := List.replicate 4 0 }; 4 ≤ s.img.scq.length ∧ s.core.scldAt = none ∧ s.img.late = []) ∧
    (let s := base.setImg { base.img with scq := List.replicate 4 0, late := [0] }
     let t : State := { s with core := { s.core with scldAt := some (s.img.pc, 0) } }
     t.core.scldAt.isSome = true ∧ ¬ (s.core.scldAt.isSome ∨ s.img.late = [])) := by
  decide +kernel

theorem witness_adv_held : NoDataError (streaming .read 4 [] (some (.trap { code := 8 }))).img.q[(0 : Fin 8)] :=
  no_data_error_of_fault (by decide +kernel)

/-! MDRAIN to a queue. -/

/-- A write stream of 4,096 INT8 elements, with room for eight entries. -/
def eightEntries : State :=
  shaped.setImg { shaped.img with
    sh := shaped.img.sh.set 1 (shapeOf 0x10000 .int8 .virt 4096 2),
    q := shaped.img.q.set 0 { Stream.closed with dir := .write, sh := 1, ish := 2, n := 4096, spec := 0, dist := 4096, held := none } }

theorem witness_mdrain_queue :
    isOk (eightEntries.writeWide (.queue 0) (List.replicate 8 0)) = true ∧ isOk (base.writeWide (.queue 0) (List.replicate 8 0)) = false ∧
    Fmt.int8 ∈ [Fmt.fp32, .bf16, .fp16, .e4m3, .e5m2, .int32, .int16, .int8] ∧ Fmt.bf16.integer = false := by
  decide +kernel

/-! Pages and KV. -/

/-- PGMAP: an owner, a stale handle, a frame outside the partition's HBM4E, a grant past the vault, and over a tile of another owner. -/
theorem witness_pgmap_faults :
    (let s := regs host [(4, second.handle.setWidth 64)]
     (match s.target (s.readS 4) with | .ok x => x == second | .error _ => false) = true ∧ s.readS 4 ≠ 0) ∧
    2 ^ 32 ≤ (2 ^ 32 : Word).toNat ∧ (host.stewardUp (9 / 2 ^ 30) = true ∧ ∀ x ∈ host.ctxs, x.handle = (9 : BitVec 32) → x.st = .free ∨ x.part ≠ host.core.part) ∧
    (pdwBad 0x20000 0x7FFFFFFF0700 = false ∧ pdwKind 0x7FFFFFFF0700 = 0 ∧ (host.hbmRange host.core.part).2 < pdwPa 0x7FFFFFFF0700 + pageBytes 0) ∧
    (pdwBad 0xFFF0000 0x20002 = false ∧ 0x10000000 < (0xFFF0000 : Word).toNat + 0x10000 * pdwFrames 0x20002) ∧
    (let s : State := { host with vaultOwner := [((vaultBase 0 + 0xF000) / 4096, .ce)] }
     pdwBad 0 0x10002 = false ∧ (0 : Word).toNat + 0x10000 * pdwFrames 0x10002 ≤ 0x10000000 ∧ s.ownerOf .vault (0 + 4096 * 15) ≠ .thread ∧
     ∀ j, j < 15 → s.ownerOf .vault (0 + 4096 * j) = .thread) := by
  decide +kernel

/-- A region of four pages, EMPTY at the second to the fourth, with three free frames; LEN 15 of 16 tokens a page, to which 20 are added; a
second sequence, at 0x18040. -/
def growing : State :=
  let s := sequences 0
  let p (v : Nat) : Page := { (here s) with va := v, st := .empty, kv := true, tier := .vault, dest := .vault, frame := 0 }
  stored { s with regions := [{ part := 0, base := 0x40000, count := 4, owner := running.handle, die := 0 }],
                  pages := p 0x50000 :: p 0x70000 :: p 0x60000 :: s.pages,
                  frames := [(vaultBase 0 + 0x30000, 0), (vaultBase 0, 0), (vaultBase 0 + 0x50000, 0)] }
    [(0x18118, 20), (0x18010, 0x4000C), (0x18040, 16), (0x18048, 0x40000), (0x18050, 0x4000C), (0x18058, 0x1B000), (0x18120, 0x18040), (0x18128, 1)]

theorem witness_kv_growth :
    (let s := growing
     (match s.seqDesc 0x18000 with | .ok q => decide (q.len = 15 ∧ q.pagesFor q.len = 1 ∧ q.pagesFor (q.len + 20) = 3 ∧ 3 ≤ q.maxp ∧ q.vmap = 0) | .error _ => false) = true ∧
     virtB s .read 0x18100 32 0x18100 = true ∧ s.dwordAt 0x18100 = 1 ∧ virtB s .write 0x1A004 8 0x1A004 = true ∧
     s.freeVault 0 0 = [vaultBase 0 + 0x30000, vaultBase 0, vaultBase 0 + 0x50000] ∧ (s.freeVault 0 0).Nodup ∧ s.dieUp 0 = true ∧ s.pathUp 0 0 = true ∧
     (∀ v ∈ s.freeVault 0 0, v % 0x10000 = 0 ∧ 0x1A004 + 4 * 2 ≤ v)) ∧
    ({ growing with frames := [(vaultBase 0, 0)] } : State).freeVault 0 0 = [vaultBase 0] ∧
    (({ growing with pages := growing.pages.filter (fun p => p.va == 0x50000 || p.st != .empty) } : State).pages.countP (fun y => y.st == .empty)) = 1 ∧
    (let s := stored growing [(0x18100, 2), (0x18118, 1)]
     s.dwordAt 0x18100 = BitVec.ofNat 64 2 ∧ virtB s .read 0x18100 48 0x18100 = true ∧ s.dwordAt 0x18120 = 0x18040 ∧ isOk (s.seqDesc 0x18040) = true ∧
     virtB s .read 0x18040 8 0x18040 = true ∧ virtB s .write 0x18040 8 0x18040 = true) ∧
    (let s := stored { sequences 0x19000 with regions := growing.regions } [(0x18010, 0x40004), (0x18118, 70)]
     (match s.seqDesc 0x18000 with | .ok q => decide (q.vmap = 0x19000 ∧ q.pagesFor (q.len + 70) = q.pagesFor q.len ∧ q.len / 8 = 1 ∧ (q.len + 70 - 1) / 8 + 1 - q.len / 8 = 10) | .error _ => false) = true ∧
     virtB s .write 0x19001 10 0x19001 = true) := by
  decide +kernel

/-- KVFREE over pages RESIDENT, pinned, EMPTY and in flight, in part of a region and in all of it; with a journal open. -/
theorem witness_kv_free :
    (let s : State := { growing with pages := { (here growing) with va := 0x40000, kv := true, frame := 0x30000 }
                          :: { (here growing) with va := 0x60000, kv := true, pin := 2 } :: { (here growing) with va := 0x70000, kv := true, st := .moving } :: growing.pages }
     (match s.regionAt 0x4FFFF with | some r => decide (r.owner = running.handle ∧ 0x40000 + 0x10000 * 4 ≤ r.base + 0x10000 * r.count) | none => false) = true ∧
     s.settleAll.waitsAt 0x30000 0x10000 = none) ∧
    (match growing.regionAt 0x40000 with | some r => decide (r.base = 0x40000 ∧ r.count = 4 ∧ r.base + 0x10000 * r.count < 0x40000 + 0x10000 * 5) | none => false) = true ∧
    (match (journalOf 3 0x10000).self with | some c => c.journal.isSome | none => false) = true := by
  decide +kernel

/-! The system. -/

/-- PARTCFG: HBM4E ranges that meet the Slate region and that do not; RDTIME and RDLAT behind an SCLD; a partition in reset. -/
theorem witness_partition_fields :
    (let s := host
     let lo := (s.partField 1 10).toNat
     lo < (0xFC0000000 : Word).toNat ∧ lo < (64 * 0 + 64) * 2 ^ 30 ∧ (64 * 0 + 56) * 2 ^ 30 < (0xFC0000000 : Word).toNat) ∧
    ¬ ((host.partField 1 10).toNat < (0x40000000 : Word).toNat ∧ (64 * 0 + 56) * 2 ^ 30 < (0x40000000 : Word).toNat) ∧
    (host.setImg { host.img with late := [0] }).img.late ≠ [] ∧ host.img.late = [] ∧ host.core.part = 0 ∧
    ((host.setPartField 0 16 1).partField 0 16).getLsbD 0 = true := by
  decide +kernel

/-- RESETDOM: a quad with nothing bound and one with a context, a partition, dies and islands, the issuer's own among them. -/
theorem witness_reset_domains :
    (host.guardTrue yes = true ∧ host.levelS = true ∧ host.core.rep = none ∧ (∀ k ∈ host.core :: host.others, ∀ q : Fin 8, k.m.img.q[q].dir ≠ .write) ∧
     host.heldReqs = [] ∧ (∀ x ∈ host.ctxs, ∀ y ∈ host.ctxs, x.edie = y.edie → x.index = y.index → x = y) ∧ host.core.part = 0 ∧
     host.core.m.bar = none ∧ host.core.m.wait = none ∧ host.core.die = 0 ∧ (∀ p ∈ host.pages, p.gone = .none)) ∧
    (let s : State := { host with parts := host.parts.set 0 { host.parts[0] with f := host.parts[0].f.set 0 0xFF } }
     let quad : List (BitVec 10) := (List.range 4).map (fun i => BitVec.ofNat 10 (4 * 5 + i))
     (∀ y ∈ quad, s.ownsCore 0 y = true) ∧ s.core.id ∉ quad ∧ (∀ y ∈ quad, (s.coreAt y).handle = none) ∧ (∀ c ∈ s.ctxs, ∀ m ∈ c.members, m.bar = none) ∧
     (let t : State := { s with others := [{ Core.blank 20 with handle := some second.handle }] }; ∃ y ∈ quad, (t.coreAt y).handle.isSome = true)) ∧
    (let c : Ctx := { second with part := 1, st := .parked }
     let s : State := { host with ctxs := [running, c] }
     (∀ c ∈ s.ctxs, c.part = 1 → c.st ≠ .free → s.ownedBlock c.handle = none) ∧ s.ownsCore 1 s.core.id = false ∧
     ∀ c ∈ s.ctxs, c.part = 1 → c.st = .running → s.core.id ∉ gangCores c.base c.gang) ∧
    (let c : Ctx := { second with rundie := 3, imgDie := 3, loc := .vault, st := .parked }
     let e : Ctx := { second with index := 7, rundie := 3, imgDie := 3, st := .parked, fresh := true }
     let s : State := { host with ctxs := [running, c, e] }
     c.fresh = false ∧ c.loc ≠ .hbm ∧ e.fresh = true ∧
     ∀ c ∈ s.ctxs, c.st = .running → s.core.id ∈ gangCores c.base c.gang → c.lostWith 3 = false ∧ c.heldWith 3 = false) := by
  decide +kernel

/-- Arbiters: an entry that names a waiting partition, one that names none; a move that is granted; an image whose partition is granted nothing. -/
theorem witness_arbiters :
    (let s : State := { host with qos := host.qos.set 1 0x42 }
     (s.qos[1]).getLsbD 6 = true ∧ s.grant { ptr := 0, rrp := 0 } (fun p => p == 2) = some (2, { ptr := 1, rrp := 0 }) ∧
     s.grant { ptr := 1, rrp := 3 } (fun p => p == 2 || p == 4) = some (4, { ptr := 2, rrp := 4 }) ∧ s.grant { ptr := 1, rrp := 3 } (fun _ => false) = none) ∧
    (let m : Move := { die := 0, part := 0, va := 0x20000, level := 0, dest := .hbm, kind := .recall, started := false, paths := [], broken := false, key := 0 }
     let s : State := { host with pages := cold :: host.pages, moves := [m] }
     s.settleAll = s ∧ (∀ m ∈ s.moves, m.started = false → s.moveIdle m = false) ∧ (s.moves.filter (fun m => m.started && m.die == 0)).length < 16 ∧
     ((s.startable 0).map (fun x => x.1)) = [m] ∧ (s.grant s.arbs[0] (fun p => (s.startable 0).any (fun y => y.1.part == p))).isSome = true) ∧
    (({ host with ctxs := [running] } : State).startable 0 = [] ∧ ({ host with ctxs := [running] } : State).imageGrant 0 = none) := by
  decide +kernel

/-! Slate. -/

/-- SLCUT by a context of an enrolled partition; SLWAIT while a cut drains. -/
theorem witness_cut_by_enrolled :
    (let s : State := targeted (fun x => { x with cfg := x.cfg.set 4 3 })
     s.slate.st = .idle ∧ s.slate.cfg[4].getLsbD 0 = true ∧ s.core.rep = none ∧ s.img.late = [] ∧ s.slateReady = true ∧ s.core.handle = some running.handle ∧
     s.findCtx running.handle = some running ∧ running.st = .running ∧ running.gang = 0 ∧ running.base = s.core.id ∧ s.core.handle.bind s.postedBy = none) ∧
    ((slated (fun x => { x with st := .draining })).core.m.wait = none ∧ (slated (fun x => { x with st := .draining })).slate.st = .draining) := by
  decide +kernel

/-- A counter at its threshold with AUTO: the engine IDLE, cutting, restoring, and with a cut asked for already; a threshold not reached. -/
theorem witness_thresholds :
    (let s := targeted (fun x => { x with cfg := ((x.cfg.set 0 1).set 6 1) })
     s.slate.cfg[6].getLsbD 0 = true ∧ s.slate.cfg[0] ≠ 0 ∧ s.slate.counters[0] + 1 = s.slate.cfg[0] ∧ s.slate.st = .idle ∧ s.slate.cfg[4] ≠ 0 ∧
     s.slate.cfg[5] ≠ 0 ∧ s.slate.counters[1] + 1 ≠ s.slate.cfg[1]) ∧
    (let x := (slated (fun x => { x with cfg := ((x.cfg.set 0 1).set 6 1), st := .copying })).slate
     x.st ≠ .idle ∧ x.st ≠ .restoring ∧ x.pend = false ∧ { x with st := .restoring }.st = .restoring ∧ { x with pend := true }.pend = true) ∧
    (slated (fun x => { x with cfg := ((x.cfg.set 0 1).set 6 1) })).slate.cfg[4] = 0 := by
  decide +kernel

/-- A restore of a generation that holds a Parked context and a Frozen one. -/
theorem witness_restored_contexts :
    let c : Ctx := { second with st := .parked, members := [Member.zeroFill 5] }
    let e : Ctx := { second with index := 7, st := .frozen, ret := .ready, members := [Member.zeroFill 5] }
    let y : Snapshot := { host.snapshot with enroll := 2, ctxs := [c, e] }
    let z := host.slateSlotSize 2
    let s := targeted (fun x => { x with st := .restoring, restoring := 1, tgt := some target15, slots := [((true, 0x200000 + z, z), y)] })
    s.slateCopies = true ∧ s.slate.slotAt target15 s.slate.z (slotOf s.slate.restoring) = some y ∧ (y.ctxs.map Ctx.handle).Nodup ∧
    ∀ c ∈ y.ctxs, c.st ≠ .free ∧ (c.st = .frozen → c.ret ≠ .free) := by
  decide +kernel

/-! Requests from outside, and refresh. -/

/-- A request to a page that is not pinned, through a group of another personality, and a run of HBM4E outside the Slate region. -/
theorem witness_refused_requests :
    (let s := linked (fun x => { x with pers := .ual, st := .active })
     (s.group 15).busy = false ∧ ∀ p ∈ s.pages, p.st = .resident → p.tier = .hbm → p.frame ≤ 0x1FFF8 → 0x1FFF8 + 8 ≤ p.frame + p.bytes → p.pin = 0) ∧
    ((linked (fun x => { x with pers := .cxl, st := .active })).group 15).busy = false ∧ ((linked (fun x => { x with pers := .cxl, st := .active })).group 15).pers ≠ .uet ∧
    (∀ r ∈ slateRegion, 0x1FFF8 + 8 ≤ r.1 ∨ r.1 + r.2 ≤ 0x1FFF8) := by
  decide +kernel

/-- A refresh due at a bank that one occupies, and during a forced all-bank refresh; a read that a refresh holds. -/
theorem witness_refresh_counts :
    (let r : BankRef := { bank := 0, payback := false, queued := 0, waiting := false, since := 0, held := [(running.handle, 0)] }
     let s := refreshed (fun y => { y with running := [r] })
     (s.pcAt 7 95).occupied ((s.pcAt 7 95).next % 32) = true ∧ (s.pcAt 7 95).allbank = false ∧ (s.stackAt 7).sr = .normal ∧
     s.controllerReady 7 = true ∧ 152 * (s.pcAt 7 95).next ≤ s.cycles 7 ∧ s.core.handle = some running.handle ∧ s.heldCycles 3 190 running.handle = 185) ∧
    ((refreshed (fun y => { y with allbank := true })).pcAt 7 95).allbank = true ∧
    (let s := host.putStack 7 { (host.stackAt 7) with sr := .held }
     let t : State := { s with ctxs := [{ second with st := .parked, stalled := [7] }] }
     t.heldCycles 10 20 second.handle = 10) := by
  decide +kernel

/-- Tests of a single step: a read that comes to a bank under refresh waits and is noted once; it goes on when the refresh has ended. -/
theorem test_bank_wait :
    (let r : BankRef := { bank := bankOf 0x1FFF8, payback := false, queued := 0, waiting := false, since := 0, held := [] }
     let s : State := { base with pcs := [{ (base.pcAt (stackOf 0x1FFF8) (channelOf 0x1FFF8)) with running := [r] }] }
     s.bankHeld 0x20000 8 = none ∧ (s.bankWait 0x1FFF8).pcs.map (fun y => y.running.map (fun r => r.held)) = [[[(running.handle, s.cycle)]]] ∧
     ((s.bankWait 0x1FFF8).bankWait 0x1FFF8).pcs = (s.bankWait 0x1FFF8).pcs ∧ ({ s with clock := 4 * 188 } : State).bankHeld 0x1FFF8 8 = none) := by
  decide +kernel
end Sys2Proof.Tests
end

section
/-!
Memory keeps its canonical form (obligation O20). One lemma for each operation of the model that returns a state, in the order of the model's
files: `f_mem` where the operation leaves memory as it is, `f_wf` where it may write memory and keeps the form. What writes memory does so
through `Memory.splice`, `clear` and `place`, whose laws stand in Laws/Memory.lean. An operation that may stop is spoken of with `Yields`, and
what an instruction's body leaves with `Fate.Canonical`.
-/

namespace Sys2Proof.Machine

open Sys2Proof

/-! Folds, choices and computations that may stop. -/

@[simp] theorem ite_mem (c : Prop) [Decidable c] (s t : State) : (if c then s else t).mem = if c then s.mem else t.mem :=
  apply_ite State.mem c s t

@[simp] theorem ite_wf (c : Prop) [Decidable c] (m k : Memory) : (if c then m else k).wf = if c then m.wf else k.wf :=
  apply_ite Memory.wf c m k

/-- A fold of operations that leave memory as it is leaves it too. -/
theorem foldl_mem {α : Type} (f : State → α → State) (h : ∀ s x, (f s x).mem = s.mem) (l : List α) (s : State) : (l.foldl f s).mem = s.mem := by
  induction l generalizing s with
  | nil => rfl
  | cons x l ih => rw [List.foldl_cons, ih, h]

/-- The same of a fold that carries something beside the state. -/
theorem foldl_fst_mem {α β : Type} (f : State × β → α → State × β) (h : ∀ r x, (f r x).1.mem = r.1.mem) (l : List α) (r : State × β) :
    (l.foldl f r).1.mem = r.1.mem := by
  induction l generalizing r with
  | nil => rfl
  | cons x l ih => rw [List.foldl_cons, ih, h]

/-- A fold of operations that keep the canonical form keeps it. -/
theorem foldl_wf {α : Type} (f : State → α → State) (h : ∀ s x, s.mem.wf = true → (f s x).mem.wf = true) (l : List α) (s : State)
    (hs : s.mem.wf = true) : (l.foldl f s).mem.wf = true := by
  induction l generalizing s with
  | nil => exact hs
  | cons x l ih => exact ih _ (h _ _ hs)

/-- Whatever a computation that may stop answers, it meets `P`. -/
def Yields {α : Type} (P : α → Prop) (x : Except Stop α) : Prop := ∀ a, x = .ok a → P a

section Yields

variable {α β : Type} {P : α → Prop} {Q : β → Prop}

@[simp] theorem yields_ok (a : α) : Yields P (.ok a) ↔ P a := by simp [Yields]

@[simp] theorem yields_pure (a : α) : Yields P (pure a) ↔ P a := yields_ok a

@[simp] theorem yields_error (e : Stop) : Yields P (.error e) := by simp [Yields]

@[simp] theorem yields_true (x : Except Stop α) : Yields (fun _ => True) x := fun _ _ => trivial

@[simp] theorem yields_bind (x : Except Stop α) (f : α → Except Stop β) : Yields Q (x >>= f) ↔ Yields (fun a => Yields Q (f a)) x := by
  cases x <;> simp [Yields, Bind.bind, Except.bind]

@[simp] theorem yields_map (x : Except Stop α) (f : α → β) : Yields Q (f <$> x) ↔ Yields (fun a => Q (f a)) x := by
  cases x <;> simp [Yields, Functor.map, Except.map]

@[simp] theorem yields_ite (c : Prop) [Decidable c] (x y : Except Stop α) :
    Yields P (if c then x else y) ↔ if c then Yields P x else Yields P y := by
  split <;> rfl

theorem Yields.mono {R : α → Prop} {x : Except Stop α} (hx : Yields R x) (h : ∀ a, R a → P a) : Yields P x := fun a e => h a (hx a e)

theorem Yields.bind {R : α → Prop} {x : Except Stop α} {f : α → Except Stop β} (hx : Yields R x) (hf : ∀ a, R a → Yields Q (f a)) :
    Yields Q (x >>= f) :=
  (yields_bind x f).2 (hx.mono hf)

/-- A step of which nothing is known: a check, a read. -/
theorem Yields.step {x : Except Stop α} {f : α → Except Stop β} (hf : ∀ a, Yields Q (f a)) : Yields Q (x >>= f) :=
  (yields_bind x f).2 fun a _ => hf a

theorem Yields.ite {c : Prop} [Decidable c] {x y : Except Stop α} (hx : Yields P x) (hy : Yields P y) : Yields P (if c then x else y) := by
  split
  · exact hx
  · exact hy

/-- A value that one of two computations gives, and what follows from it. -/
theorem Yields.join {c : Prop} [Decidable c] {x y : Except Stop α} {f : α → Except Stop β} (hx : Yields P x) (hy : Yields P y)
    (hf : ∀ a, P a → Yields Q (f a)) : Yields Q (if c then x >>= f else y >>= f) :=
  .ite (hx.bind hf) (hy.bind hf)

/-- A check under a condition, before the rest. -/
theorem Yields.unless {c : Prop} [Decidable c] {x : Except Stop Unit} {f : Unit → Except Stop β} (h : Yields Q (f ())) :
    Yields Q (if c then x >>= f else f ()) :=
  .ite (.step fun _ => h) h

end Yields

theorem foldlM_wf {γ : Type} (f : State → γ → Except Stop State) (h : ∀ s x, s.mem.wf = true → Yields (fun t => t.mem.wf = true) (f s x))
    (l : List γ) (s : State) (hs : s.mem.wf = true) : Yields (fun t => t.mem.wf = true) (l.foldlM f s) := by
  induction l generalizing s with
  | nil => simpa using hs
  | cons x l ih => rw [List.foldlM_cons]; exact (h s x hs).bind ih

/-- The state that a fate leaves has canonical memory. -/
def Fate.Canonical (f : Fate) : Prop :=
  match f with
  | .done s | .jump s _ | .stay s | .left s => s.mem.wf = true

@[simp] theorem canonical_done (s : State) : (Fate.done s).Canonical ↔ s.mem.wf = true := Iff.rfl
@[simp] theorem canonical_jump (s : State) (pc : Word) : (Fate.jump s pc).Canonical ↔ s.mem.wf = true := Iff.rfl
@[simp] theorem canonical_stay (s : State) : (Fate.stay s).Canonical ↔ s.mem.wf = true := Iff.rfl
@[simp] theorem canonical_left (s : State) : (Fate.left s).Canonical ↔ s.mem.wf = true := Iff.rfl
@[simp] theorem fate_ite (c : Prop) [Decidable c] (f g : Fate) : (if c then f else g).Canonical ↔ if c then f.Canonical else g.Canonical := by
  split <;> rfl

/-! The operations of Machine/Mem.lean. -/

@[simp] theorem bankWait_mem (s : State) (pa : Nat) : (s.bankWait pa).mem = s.mem := by
  unfold State.bankWait
  split <;> rfl

@[simp] theorem wroteBack_mem (s : State) (xs : List L1Line) : (s.wroteBack xs).mem = s.mem := rfl

@[simp] theorem writeBack_mem (s : State) (xs : List L1Line) : (s.writeBack xs).mem = s.mem := rfl

@[simp] theorem touchPa_mem (s : State) (write : Bool) (pa n : Nat) : (s.touchPa write pa n).mem = s.mem := rfl

@[simp] theorem noteParts_mem (s : State) (parts : List (Loc × Nat)) : (s.noteParts parts).mem = s.mem := rfl

@[simp] theorem seePod_mem (s : State) (a n : Nat) : (s.seePod a n).mem = s.mem := rfl

@[simp] theorem engineRead_mem (s : State) (parts : List (Loc × Nat)) : (s.engineRead parts).mem = s.mem := by
  unfold State.engineRead
  rw [noteParts_mem]
  refine foldl_mem _ (fun t x => ?_) _ _
  dsimp only
  split <;> simp

@[simp] theorem touchParts_mem (s : State) (write : Bool) (parts : List (Loc × Nat)) : (s.touchParts write parts).mem = s.mem := by
  refine foldl_mem _ (fun t x => ?_) _ _
  dsimp only
  split <;> simp

@[simp] theorem touchRead_mem (s : State) (sp : Space) (va n : Nat) : (s.touchRead sp va n).mem = s.mem := by
  unfold State.touchRead
  (repeat' split) <;> simp

@[simp] theorem touchNewest_mem (s : State) (sp : Space) (va n : Nat) : (s.touchNewest sp va n).mem = s.mem := by
  unfold State.touchNewest
  (repeat' split) <;> simp

@[simp] theorem noteRun_mem (s : State) (sp : Space) (va n : Nat) : (s.noteRun sp va n).mem = s.mem := by
  unfold State.noteRun
  (repeat' split) <;> simp

@[simp] theorem storeMasked_wf (s : State) (pa : Nat) (mask : Byte) (bs : List Byte) (hs : s.mem.wf = true) :
    (s.storeMasked pa mask bs).mem.wf = true := by
  simp [State.storeMasked, wf_splice, hs]

@[simp] theorem putMasked_wf (s : State) (l : Loc) (mask : Byte) (bs : List Byte) (hs : s.mem.wf = true) : (s.putMasked l mask bs).mem.wf = true := by
  unfold State.putMasked
  split <;> simp [storeAt_wf, hs]

@[simp] theorem engineStore_wf (s : State) (l : Loc) (bs : List Byte) (hs : s.mem.wf = true) : (s.engineStore l bs).mem.wf = true := by
  unfold State.engineStore
  split
  · simp [wf_splice, hs]
  · exact storeAt_wf _ _ _ hs

@[simp] theorem engineStoreParts_wf (ps : List (Loc × Nat)) (s : State) (bs : List Byte) (hs : s.mem.wf = true) :
    (s.engineStoreParts ps bs).mem.wf = true := by
  induction ps generalizing s bs with
  | nil => exact hs
  | cons p ps ih => exact ih _ _ (engineStore_wf _ _ _ hs)

@[simp] theorem storeOutside_wf (s : State) (pa : Nat) (bs : List Byte) (hs : s.mem.wf = true) : (s.storeOutside pa bs).mem.wf = true := by
  simp [State.storeOutside, wf_splice, hs]

@[simp] theorem updCtx_mem (s : State) (h : BitVec 32) (f : Ctx → Ctx) : (s.updCtx h f).mem = s.mem := rfl

theorem journalAppend_wf (s : State) (h : BitVec 32) (j : Journal) (addr type : Nat) (old : List Byte) (hs : s.mem.wf = true) :
    Yields (fun r => r.1.mem.wf = true) (s.journalAppend h j addr type old) := by
  unfold State.journalAppend
  dsimp only
  split
  · simp
  · exact .step fun parts => by simp [storeParts_wf, hs]

theorem journalLines_wf (h : BitVec 32) (ls : List Nat) (s : State) (hs : s.mem.wf = true) :
    Yields (fun t => t.mem.wf = true) (s.journalLines h ls) := by
  induction ls generalizing s with
  | nil => simpa [State.journalLines] using hs
  | cons a rest ih =>
    rw [State.journalLines]
    split
    · simpa using hs
    · split
      · simpa using hs
      · split
        · exact ih s hs
        · exact (journalAppend_wf _ _ _ _ _ _ hs).bind fun r hr => ih _ hr

theorem journalHold_wf (s : State) (lines : List Nat) (hs : s.mem.wf = true) : Yields (fun r => r.1.mem.wf = true) (s.journalHold lines) := by
  unfold State.journalHold
  split
  · simpa using hs
  · split
    · simpa using hs
    · dsimp only
      split
      · simpa using hs
      · split
        · simp
        · exact .step fun _ => by simpa using hs

theorem journalRun_wf (s : State) (va n : Nat) (hs : s.mem.wf = true) : Yields (fun t => t.mem.wf = true) (s.journalRun va n) := by
  unfold State.journalRun
  split
  · simpa using hs
  · split
    · simpa using hs
    · exact journalLines_wf _ _ _ hs

theorem journalPa_wf (s : State) (pa n : Nat) (hs : s.mem.wf = true) : Yields (fun t => t.mem.wf = true) (s.journalPa pa n) := by
  unfold State.journalPa
  split
  · simpa using hs
  · split
    · simpa using hs
    · exact journalLines_wf _ _ _ hs

@[simp] theorem reachLines_mem (s : State) (acc : Acc) (parts : List (Loc × Nat)) : (s.reachLines acc parts).mem = s.mem := by
  unfold State.reachLines
  split
  · rw [engineRead_mem]
    refine foldl_mem _ (fun t x => ?_) _ _
    dsimp only
    split <;> rfl
  · simp

theorem storeVirt_wf (s : State) (acc : Acc) (va : Nat) (bs : List Byte) (hs : s.mem.wf = true) :
    Yields (fun t => t.mem.wf = true) (s.storeVirt acc va bs) :=
  .step fun parts => (journalRun_wf _ _ _ hs).bind fun t ht => by simp [storeParts_wf, ht]

@[simp] theorem setOwner_mem (s : State) (sp : Space) (ea : Nat) (o : Owner) : (s.setOwner sp ea o).mem = s.mem := by
  unfold State.setOwner
  split <;> rfl

theorem storeRun_wf (s : State) (sp : Space) (acc : Acc) (ea : Nat) (bs : List Byte) (hs : s.mem.wf = true) :
    Yields (fun t => t.mem.wf = true) (s.storeRun sp acc ea bs) := by
  unfold State.storeRun
  split
  · exact storeVirt_wf _ _ _ _ hs
  · simp [storeAt_wf, hs]
  · exact (journalPa_wf _ _ _ hs).bind fun t ht => by simp [wf_splice, ht]

theorem storeChecked_wf (s : State) (sp : Space) (owner : Option Owner) (acc : Acc) (ea : Word) (bs : List Byte) (hs : s.mem.wf = true) :
    Yields (fun t => t.mem.wf = true) (s.storeChecked sp owner acc ea bs) := by
  unfold State.storeChecked
  exact .unless (.step fun _ => storeRun_wf _ _ _ _ _ hs)

/-! The operations of Machine/Layout.lean. -/

@[simp] theorem writeImages_wf (s : State) (base : Nat) (ms : List Member) (hs : s.mem.wf = true) : (s.writeImages base ms).mem.wf = true := by
  refine foldl_wf _ (fun t x ht => ?_) _ _ hs
  simp [wf_splice, ht]

/-! The operations of Machine/Outside.lean. -/

@[simp] theorem setPartField_mem (s : State) (p : BitVec 6) (k : Fin 19) (v : Word) : (s.setPartField p k v).mem = s.mem := rfl

@[simp] theorem putGroup_mem (s : State) (g : Nat) (x : Group) : (s.putGroup g x).mem = s.mem := rfl

@[simp] theorem holdReq_mem (s : State) (w : ReqHold) (r : OutReq) : (s.holdReq w r).mem = s.mem := rfl

@[simp] theorem stewardWrite_wf (s : State) (d : Nat) (l : Loc) (bs : List Byte) (hs : s.mem.wf = true) : (s.stewardWrite d l bs).mem.wf = true := by
  unfold State.stewardWrite
  split <;> simp [storeAt_wf, hs]

@[simp] theorem ualinkIn_wf (s : State) (g pa n : Nat) (data : Option (List Byte)) (hs : s.mem.wf = true) :
    (s.ualinkIn g pa n data).mem.wf = true := by
  unfold State.ualinkIn
  dsimp only
  (repeat' split) <;> simp [hs]

@[simp] theorem writeOutside_wf (d : Nat) (ps : List (Loc × Nat)) (s : State) (bs : List Byte) (hs : s.mem.wf = true) :
    (s.writeOutside d ps bs).mem.wf = true := by
  induction ps generalizing s bs with
  | nil => exact hs
  | cons p ps ih => exact ih _ _ (stewardWrite_wf _ _ _ _ hs)

@[simp] theorem rmaIn_wf (s : State) (g : Nat) (key : BitVec 32) (off n : Nat) (data : Option (List Byte)) (hs : s.mem.wf = true) :
    (s.rmaIn g key off n data).mem.wf = true := by
  unfold State.rmaIn
  dsimp only
  (repeat' split) <;> simp [hs]

@[simp] theorem hostAccess_wf (s : State) (pa n : Nat) (data : Option (List Byte)) (hs : s.mem.wf = true) :
    (s.hostAccess pa n data).mem.wf = true := by
  unfold State.hostAccess
  split <;> simp [hs]

@[simp] theorem postedIn_wf (s : State) (c : Option (BitVec 32)) (d pa : Nat) (mask : Byte) (bs : List Byte) (hs : s.mem.wf = true) :
    (s.postedIn c d pa mask bs).mem.wf = true := by
  simp [State.postedIn, hs]

@[simp] theorem serve_wf (s : State) (r : OutReq) (hs : s.mem.wf = true) : (s.serve r).mem.wf = true := by
  unfold State.serve
  split <;> simp [hs]

@[simp] theorem releaseReqs_wf (s : State) (w : ReqHold → Bool) (hs : s.mem.wf = true) : (s.releaseReqs w).mem.wf = true := by
  refine foldl_wf _ (fun t x ht => ?_) _ _ hs
  simp [ht]

/-! The operations of Machine/Cut.lean. -/

@[simp] theorem updSlate_mem (s : State) (f : Slate → Slate) : (s.updSlate f).mem = s.mem := rfl

@[simp] theorem resumeWork_wf (s : State) (hs : s.mem.wf = true) : s.resumeWork.mem.wf = true := by simp [State.resumeWork, hs]

@[simp] theorem dropCut_wf (s : State) (cause : Nat) (hs : s.mem.wf = true) : (s.dropCut cause).mem.wf = true := by simp [State.dropCut, hs]

@[simp] theorem endRestore_mem (s : State) (status : Nat) : (s.endRestore status).mem = s.mem := by simp [State.endRestore]

@[simp] theorem startCut_wf (s : State) (man : Bool) (asked : Word) (hs : s.mem.wf = true) : (s.startCut man asked).mem.wf = true := by
  unfold State.startCut
  dsimp only
  (repeat' split) <;> simp [hs]

@[simp] theorem cutStart_wf (s : State) (hs : s.mem.wf = true) : s.cutStart.mem.wf = true := by simp [State.cutStart, hs]

@[simp] theorem failCut_wf (s : State) (cause : Nat) (hs : s.mem.wf = true) : (s.failCut cause).mem.wf = true := by simp [State.failCut, hs]

@[simp] theorem requestCut_wf (s : State) (hs : s.mem.wf = true) : s.requestCut.mem.wf = true := by simp [State.requestCut, hs]

@[simp] theorem errorCorrected_wf (s : State) (k : Fin 3) (g : BitVec 4) (hs : s.mem.wf = true) : (s.errorCorrected k g).mem.wf = true := by
  simp [State.errorCorrected, hs]

@[simp] theorem countUnused_wf (s : State) (f : Option Stop) (hs : s.mem.wf = true) : (s.countUnused f).mem.wf = true := by
  unfold State.countUnused
  split <;> simp [hs]

/-! The operations of Machine/Steward.lean. -/

@[simp] theorem putCore_mem (s : State) (c : Core) : (s.putCore c).mem = s.mem := by simp [State.putCore]

@[simp] theorem onCore_mem (s : State) (id : BitVec 10) (f : State → State) (hf : ∀ t, (f t).mem = t.mem) : (s.onCore id f).mem = s.mem := by
  simp [State.onCore, hf]

theorem onCore_wf (s : State) (id : BitVec 10) (f : State → State) (hf : ∀ t, t.mem.wf = true → (f t).mem.wf = true) (hs : s.mem.wf = true) :
    (s.onCore id f).mem.wf = true := by
  simpa [State.onCore] using hf _ (by simpa using hs)

@[simp] theorem postWrite_mem (s : State) (k pa : Nat) (mask : Byte) (bs : List Byte) : (s.postWrite k pa mask bs).mem = s.mem := rfl

@[simp] theorem writeOne_wf (s : State) (behind : Option Nat) (l : Loc) (mask : Byte) (bs : List Byte) (hs : s.mem.wf = true) :
    (s.writeOne behind l mask bs).mem.wf = true := by
  unfold State.writeOne
  (repeat' split) <;> simp [hs]

@[simp] theorem writeMasked_wf (s : State) (behind : Option Nat) (ws : List (Loc × Byte × List Byte)) (hs : s.mem.wf = true) :
    (s.writeMasked behind ws).mem.wf = true := by
  refine foldl_wf _ (fun t x ht => ?_) _ _ hs
  simp [ht]

@[simp] theorem writeRecord_wf (s : State) (behind : Option Nat) (l : Loc) (bs : List Byte) (hs : s.mem.wf = true) :
    (s.writeRecord behind l bs).mem.wf = true := by
  unfold State.writeRecord
  split
  · split <;> simp [storeAt_wf, hs]
  · exact storeAt_wf _ _ _ hs

@[simp] theorem journalTake_mem (s : State) (lines : List Nat) : (s.journalTake lines).1.mem = s.mem := by
  refine foldl_fst_mem _ (fun r a => ?_) _ _
  dsimp only
  (repeat' split) <;> rfl

@[simp] theorem drainEntry_wf (s : State) (e : QEntry) (hs : s.mem.wf = true) : (s.drainEntry e).mem.wf = true := by
  have ht : (s.journalTake e.lines).1.mem.wf = true := by simpa using hs
  exact writeMasked_wf _ _ _ (foldl_wf _ (fun u w hu => writeRecord_wf _ _ _ _ hu) _ _ ht)

@[simp] theorem drainEntries_wf (es : List QEntry) (s : State) (hs : s.mem.wf = true) : (s.drainEntries es).mem.wf = true := by
  induction es generalizing s with
  | nil => exact hs
  | cons e es ih => exact ih _ (drainEntry_wf _ _ hs)

@[simp] theorem drainStream_wf (s : State) (q : Fin 8) (hs : s.mem.wf = true) : (s.drainStream q).mem.wf = true := by simp [State.drainStream, hs]

@[simp] theorem settleWrites_wf (s : State) (mask : BitVec 16) (hs : s.mem.wf = true) : (s.settleWrites mask).mem.wf = true := by
  refine foldl_wf _ (fun t x ht => ?_) _ _ hs
  simp [ht]

theorem settled_wf (s : State) (mask : BitVec 16) (hs : s.mem.wf = true) : Yields (fun t => t.mem.wf = true) (s.settled mask) := by
  unfold State.settled
  split <;> simp [hs]

@[simp] theorem settleStream_wf (s : State) (q : Fin 8) (hs : s.mem.wf = true) : (s.settleStream q).mem.wf = true := by simp [State.settleStream, hs]

@[simp] theorem settleStreams_wf (s : State) (hs : s.mem.wf = true) : s.settleStreams.mem.wf = true := by
  refine foldl_wf _ (fun t x ht => ?_) _ _ hs
  simp [ht]

@[simp] theorem postIrq_mem (s : State) (v : Nat) : (s.postIrq v).mem = s.mem := by simp [State.postIrq]

@[simp] theorem postError_mem (s : State) (p : BitVec 6) : (s.postError p).mem = s.mem := by simp [State.postError]

@[simp] theorem updPage_mem (s : State) (part : BitVec 6) (va : Nat) (f : Page → Page) : (s.updPage part va f).mem = s.mem := rfl

@[simp] theorem queueMove_mem (s : State) (p : Page) (level : Nat) (dest : Tier) (kind : MoveKind) : (s.queueMove p level dest kind).mem = s.mem := by
  simp [State.queueMove]

@[simp] theorem recallPage_mem (s : State) (p : Page) (level : Nat) : (s.recallPage p level).mem = s.mem := by
  unfold State.recallPage
  split <;> simp

@[simp] theorem recall_mem (s : State) (part : BitVec 6) (va level : Nat) : (s.recall part va level).mem = s.mem := by
  unfold State.recall
  split <;> simp

@[simp] theorem countRes_mem (s : State) (d : BitVec 2) (k : Fin 7) (n : Nat) : (s.countRes d k n).mem = s.mem := rfl

@[simp] theorem recallAll_mem (s : State) (h : BitVec 32) : (s.recallAll h).mem = s.mem := by
  refine foldl_mem _ (fun t x => ?_) _ _
  simp

@[simp] theorem enterReady_mem (s : State) (h : BitVec 32) : (s.enterReady h).mem = s.mem := by simp [State.enterReady]

@[simp] theorem readyEvent_mem (s : State) (h : BitVec 32) : (s.readyEvent h).mem = s.mem := by
  unfold State.readyEvent
  (repeat' split) <;> simp

@[simp] theorem takeMember_wf (s : State) (id : BitVec 10) (hs : s.mem.wf = true) : (s.takeMember id).1.mem.wf = true := by
  simpa [State.takeMember] using onCore_wf _ _ _ settleStreams_wf hs

@[simp] theorem takeMembers_wf (ids : List (BitVec 10)) (s : State) (hs : s.mem.wf = true) : (s.takeMembers ids).1.mem.wf = true := by
  induction ids generalizing s with
  | nil => exact hs
  | cons id ids ih => exact ih _ (takeMember_wf _ _ hs)

@[simp] theorem unbind_wf (s : State) (h : BitVec 32) (hs : s.mem.wf = true) : (s.unbind h).mem.wf = true := by
  unfold State.unbind
  split
  · exact hs
  · split
    · exact hs
    · simpa using takeMembers_wf _ _ hs

@[simp] theorem dropStandby_mem (s : State) (h : BitVec 32) : (s.dropStandby h).mem = s.mem := rfl

@[simp] theorem holdOn_wf (s : State) (h : BitVec 32) (src : HoldSrc) (hs : s.mem.wf = true) : (s.holdOn h src).mem.wf = true := by
  unfold State.holdOn
  (repeat' split) <;> simp [hs]

@[simp] theorem holdPosted_wf (s : State) (h : BitVec 32) (hs : s.mem.wf = true) : (s.holdPosted h).mem.wf = true := by
  refine foldl_wf _ (fun t x ht => ?_) _ _ hs
  simp [ht]

@[simp] theorem park_wf (s : State) (h : BitVec 32) (cause : Cause) (mask : BitVec 3) (hs : s.mem.wf = true) :
    (s.park h cause mask).mem.wf = true := by
  simp [State.park, hs]

@[simp] theorem leave_wf (s : State) (h : BitVec 32) (hs : s.mem.wf = true) : (s.leave h).mem.wf = true := by simp [State.leave, hs]

@[simp] theorem faultPark_wf (s : State) (h : BitVec 32) (va : Nat) (hs : s.mem.wf = true) : (s.faultPark h va).mem.wf = true := by
  unfold State.faultPark
  split <;> simp [hs]

@[simp] theorem holdOff_mem (s : State) (h : BitVec 32) (src : HoldSrc) : (s.holdOff h src).mem = s.mem := by
  unfold State.holdOff
  split <;> simp

@[simp] theorem releaseHolds_mem (s : State) (src : HoldSrc) : (s.releaseHolds src).mem = s.mem := by
  refine foldl_mem _ (fun t x => ?_) _ _
  simp

@[simp] theorem settleAll_wf (s : State) (hs : s.mem.wf = true) : s.settleAll.mem.wf = true :=
  foldl_wf _ holdPosted_wf _ _ (foldl_wf _ (fun _ _ => onCore_wf _ _ _ (fun _ => settleWrites_wf _ _)) _ _ hs)

@[simp] theorem updQueue_mem (s : State) (q : Nat) (f : HostQueue → HostQueue) : (s.updQueue q f).mem = s.mem := rfl

@[simp] theorem retireCompletion_mem (s : State) (c : Completion) : (s.retireCompletion c).mem = s.mem := by simp [State.retireCompletion]

theorem tryWrite_wf (s : State) (c : Completion) (fin : State → State) (hf : ∀ t, t.mem.wf = true → (fin t).mem.wf = true)
    (hs : s.mem.wf = true) : (s.tryWrite c fin).mem.wf = true := by
  unfold State.tryWrite
  dsimp only
  (repeat' split) <;> simp [hf, hs]

@[simp] theorem endNode_mem (s : State) (gid node status : Nat) : (s.endNode gid node status).mem = s.mem := rfl

@[simp] theorem endGraphs_wf (s : State) (hs : s.mem.wf = true) : s.endGraphs.mem.wf = true := by
  refine foldl_wf _ (fun t g ht => ?_) _ _ hs
  exact tryWrite_wf _ _ _ (fun u hu => by simpa using hu) ht

@[simp] theorem finishCompletion_wf (s : State) (c : Completion) (hs : s.mem.wf = true) : (s.finishCompletion c).mem.wf = true := by
  unfold State.finishCompletion
  split <;> simp [hs]

@[simp] theorem tryCompletion_wf (s : State) (c : Completion) (hs : s.mem.wf = true) : (s.tryCompletion c).mem.wf = true :=
  tryWrite_wf _ _ _ (fun t ht => finishCompletion_wf t c ht) hs

@[simp] theorem complete_wf (s : State) (t : Task) (h : BitVec 32) (status : Nat) (later : Bool) (hs : s.mem.wf = true) :
    (s.complete t h status later).mem.wf = true := by
  simp [State.complete, hs]

@[simp] theorem endTask_wf (s : State) (h : BitVec 32) (status : Nat) (later : Bool) (hs : s.mem.wf = true) :
    (s.endTask h status later).mem.wf = true := by
  unfold State.endTask
  (repeat' split) <;> simp [hs]

@[simp] theorem haltTask_wf (s : State) (h : BitVec 32) (status : Nat) (hs : s.mem.wf = true) : (s.haltTask h status).mem.wf = true := by
  simp [State.haltTask, hs]

@[simp] theorem tryUnpark_mem (s : State) (h : BitVec 32) (kick : Bool) : (s.tryUnpark h kick).mem = s.mem := by
  unfold State.tryUnpark
  split <;> simp

@[simp] theorem wakeFaulted_mem (s : State) (p : Page) : (s.wakeFaulted p).mem = s.mem := by
  refine foldl_mem _ (fun t x => ?_) _ _
  simp

@[simp] theorem settleResides_mem (s : State) (p : Page) : (s.settleResides p).mem = s.mem := by
  refine foldl_mem _ (fun t x => ?_) _ _
  simp

@[simp] theorem dropPage_mem (s : State) (p : Page) : (s.dropPage p).mem = s.mem := rfl

@[simp] theorem removePage_mem (s : State) (p : Page) : (s.removePage p).mem = s.mem := by simp [State.removePage]

@[simp] theorem emptyPage_mem (s : State) (p : Page) : (s.emptyPage p).mem = s.mem := by simp [State.emptyPage]

@[simp] theorem releaseLate_mem (s : State) : s.releaseLate.mem = s.mem := by
  refine foldl_mem _ (fun t x => ?_) _ _
  simp

@[simp] theorem releaseOwned_wf (s : State) (h : BitVec 32) (hs : s.mem.wf = true) : (s.releaseOwned h).mem.wf = true := by
  refine foldl_wf _ (fun t p ht => ?_) _ _ ?_
  · split <;> simp [ht]
  · split <;> simp [hs]

@[simp] theorem freeCtx_wf (s : State) (h : BitVec 32) (status : Nat) (hs : s.mem.wf = true) : (s.freeCtx h status).mem.wf = true :=
  releaseOwned_wf _ _ (endTask_wf _ _ _ _ (unbind_wf _ _ hs))

@[simp] theorem unhold_mem (s : State) (h : BitVec 32) : (s.unhold h).mem = s.mem := rfl

@[simp] theorem clearSlot_mem (s : State) (h : BitVec 32) (id : BitVec 10) (slot : Bool) : (s.clearSlot h id slot).mem = s.mem := by
  unfold State.clearSlot
  split <;> simp

@[simp] theorem imageInSlot_mem (s : State) (h : BitVec 32) (id : BitVec 10) (slot : Bool) : (s.imageInSlot h id slot).mem = s.mem := by
  simp [State.imageInSlot]

@[simp] theorem bindMember_mem (s : State) (h : BitVec 32) (c : Ctx) (id : BitVec 10) (i : Nat) : (s.bindMember h c id i).mem = s.mem := by
  simp [State.bindMember]

@[simp] theorem moveNs_wf (s : State) (size : Nat) (hs : s.mem.wf = true) : (s.moveNs size).mem.wf = true := by simp [State.moveNs, wf_clear, hs]

@[simp] theorem endStandbys_mem (s : State) (h : BitVec 32) (ids : List (BitVec 10)) : (s.endStandbys h ids).mem = s.mem := by
  refine foldl_mem _ (fun t x => ?_) _ _
  rfl

@[simp] theorem holdOnly_mem (s : State) (h : BitVec 32) (ids : List (BitVec 10)) : (s.holdOnly h ids).mem = s.mem := rfl

@[simp] theorem bindCtx_mem (s : State) (h : BitVec 32) (base : BitVec 10) : (s.bindCtx h base).mem = s.mem := by
  unfold State.bindCtx
  split
  · rfl
  · dsimp only
    rw [updCtx_mem, holdOnly_mem, dropStandby_mem, foldl_mem _ fun t i => bindMember_mem _ _ _ _ _, endStandbys_mem]

/-! The operations of Machine/Ops.lean. -/

@[simp] theorem takeDraw_mem (s : State) : s.takeDraw.mem = s.mem := rfl

@[simp] theorem drawFor_mem (s : State) (rm : Rm) : (s.drawFor rm).mem = s.mem := by simp [State.drawFor]

@[simp] theorem writeCsr_mem (s : State) (c : Csr) (v : Word) : (s.writeCsr c v).mem = s.mem := by
  unfold State.writeCsr
  split <;> rfl

theorem writeWords_wf (s : State) (va : Nat) (ws : List Word) (hs : s.mem.wf = true) :
    Yields (fun t => t.mem.wf = true) (s.writeWords va ws) :=
  .step fun _ => by simp [storeParts_wf, hs]

@[simp] theorem shelveStreams_mem (s : State) : s.shelveStreams.mem = s.mem := rfl

@[simp] theorem nestedTrap_wf (s : State) (e : Exc) (hs : s.mem.wf = true) : (s.nestedTrap e).mem.wf = true := by
  unfold State.nestedTrap
  generalize hw : s.writeWords _ _ = r
  cases r with
  | ok t =>
    have ht : t.mem.wf = true := writeWords_wf _ _ _ hs t hw
    dsimp only
    split <;> simp [ht]
  | error st =>
    dsimp only
    split <;> simp [hs]

@[simp] theorem stopAt_mem (s : State) (pc : Word) : (s.stopAt pc).mem = s.mem := rfl

@[simp] theorem parkOn_wf (s : State) (va : Nat) (hs : s.mem.wf = true) : (s.parkOn va).mem.wf = true := by
  unfold State.parkOn
  split <;> simp [hs]

@[simp] theorem holdHere_wf (s : State) (src : HoldSrc) (read : Bool) (hs : s.mem.wf = true) : (s.holdHere src read).mem.wf = true := by
  unfold State.holdHere
  split <;> simp [hs]

@[simp] theorem linkWait_mem (s : State) (g va : Nat) (q : LinkReq) : (s.linkWait g va q).mem = s.mem := rfl

@[simp] theorem takeTrap_wf (s : State) (e : Exc) (epc : Word) (hs : s.mem.wf = true) : (s.takeTrap e epc).mem.wf = true := by
  unfold State.takeTrap
  dsimp only
  split
  · simp [hs]
  · split
    case h_7 t ht =>
      have hw : t.mem.wf = true := writeWords_wf _ _ _ (by simp [hs]) t ht
      rw [setPc_mem, writeS_mem, writeS_mem, setImg_mem]
      exact hw
    all_goals simp [hs]

@[simp] theorem keepFault_mem (s : State) (st : Stop) : (s.keepFault st).mem = s.mem := by
  unfold State.keepFault
  (repeat' split) <;> simp

@[simp] theorem deliver_wf (s : State) (unit : Nat) (st : Stop) (hs : s.mem.wf = true) : (s.deliver unit st).mem.wf = true := by
  unfold State.deliver
  split <;> simp [hs]

@[simp] theorem returnFromTrap_wf (s : State) (hs : s.mem.wf = true) : s.returnFromTrap.mem.wf = true := by
  unfold State.returnFromTrap
  dsimp only
  (repeat' split) <;> simp [hs]

@[simp] theorem close_wf (f : Fate) (len : Nat) (hf : f.Canonical) : (f.close len).mem.wf = true := by
  cases f <;> simpa [Fate.close] using hf

/-! The operations of Machine/Fetch.lean. -/

@[simp] theorem countLat_mem (s : State) (t0 t1 : Nat) : (s.countLat t0 t1).mem = s.mem := rfl

@[simp] theorem popEvent_mem (s : State) : s.popEvent.mem = s.mem := rfl

/-! The operations of Machine/Stream.lean. -/

@[simp] theorem touchPlaces_mem (s : State) (write : Bool) (sh : BitVec 512) (places : List ElemPlace) :
    (s.touchPlaces write sh places).mem = s.mem := by
  unfold State.touchPlaces
  split
  · exact foldl_mem _ (fun t e => touchParts_mem _ _ _) _ _
  · rfl

@[simp] theorem putElem_wf (s : State) (sh : BitVec 512) (e : ElemPlace) (v : Nat) (hs : s.mem.wf = true) : (s.putElem sh e v).mem.wf = true := by
  refine foldl_wf _ (fun t x ht => ?_) _ _ hs
  simp [ht]

@[simp] theorem setStream_mem (s : State) (q : QReg) (st : Stream) : (s.setStream q st).mem = s.mem := rfl

@[simp] theorem setQueue_mem (s : State) (q : QReg) (es : List QEntry) : (s.setQueue q es).mem = s.mem := rfl

@[simp] theorem setPages_mem (s : State) (q : QReg) (cpt npt : Option Nat) : (s.setPages q cpt npt).mem = s.mem := rfl

@[simp] theorem enterPage_mem (s : State) (q : QReg) (st : Stream) (p : Nat) : (s.enterPage q st p).mem = s.mem := by
  unfold State.enterPage
  split <;> simp

@[simp] theorem fillNext_mem (s : State) (q : QReg) (acc : Acc) (st : Stream) (p : Nat) : (s.fillNext q acc st p).mem = s.mem := by
  unfold State.fillNext
  (repeat' split) <;> simp

@[simp] theorem crossPages_mem (s : State) (q : QReg) (acc : Acc) (ps : List Nat) : (s.crossPages q acc ps).mem = s.mem := by
  refine foldl_mem _ (fun t x => ?_) _ _
  simp

theorem fetchEntry_wf (s : State) (q : QReg) (hs : s.mem.wf = true) :
    Yields (fun r => r.2.mem.wf = true) (s.fetchEntry q) :=
  .step fun _ => by simp [hs]

@[simp] theorem streamFetch_wf (s : State) (q : QReg) (hs : s.mem.wf = true) : (s.streamFetch q).mem.wf = true := by
  unfold State.streamFetch
  dsimp only
  split
  · split
    · rename_i e t he
      simpa using fetchEntry_wf _ _ hs _ he
    · split <;> simp [hs]
  · exact hs

theorem popQ_wf (s : State) (q : QReg) (hs : s.mem.wf = true) :
    Yields (fun r => r.2.mem.wf = true) (s.popQ q) := by
  unfold State.popQ
  dsimp only
  split
  · simp
  · simp
  · split
    · simp [hs]
    · split
      · simp
      · split
        · simp
        · split
          · simp
          · rename_i e t he
            simpa using fetchEntry_wf _ _ hs _ he

@[simp] theorem streamWrite_wf (s : State) (q : QReg) (hs : s.mem.wf = true) : (s.streamWrite q).mem.wf = true := by
  unfold State.streamWrite
  dsimp only
  (repeat' split) <;> simp [hs]

@[simp] theorem drainQ_wf (s : State) (q : QReg) (hs : s.mem.wf = true) : (s.drainQ q).mem.wf = true := by simp [State.drainQ, hs]

@[simp] theorem settleOthers_wf (s : State) (q : QReg) (hs : s.mem.wf = true) : (s.settleOthers q).mem.wf = true := by
  refine foldl_wf _ (fun t x ht => ?_) _ _ hs
  simp [ht]

theorem journalElems_wf (s : State) (sh : BitVec 512) (idxs : List (List Nat)) (hs : s.mem.wf = true) :
    Yields (fun t => t.mem.wf = true) (s.journalElems sh idxs) := by
  unfold State.journalElems
  split
  · simpa using hs
  · split
    · simpa using hs
    · exact journalLines_wf _ _ _ hs

theorem pushQ_wf (s : State) (q : QReg) (v : Vec) (hs : s.mem.wf = true) :
    Yields (fun t => t.mem.wf = true) (s.pushQ q v) := by
  unfold State.pushQ
  dsimp only
  split
  · simp
  · simp
  · simp
  · split
    · simp
    · refine .step fun places => ?_
      split
      · simp
      · refine (journalHold_wf _ _ hs).bind fun ⟨t, lines⟩ hr => ?_
        have ho : (t.settleOthers q).mem.wf = true := settleOthers_wf _ _ hr
        (repeat' split) <;> simp [ho]

@[simp] theorem closeQ_wf (s : State) (q : QReg) (hs : s.mem.wf = true) : (s.closeQ q).mem.wf = true := by
  unfold State.closeQ
  split <;> simp [hs]

@[simp] theorem openQ_wf (s : State) (dir : StreamDir) (q : QReg) (cl : BitVec 4) (a b : ShReg) (hs : s.mem.wf = true) :
    Yields (fun t => t.mem.wf = true) (s.openQ dir q cl a b) := by
  unfold State.openQ
  refine .unless (.step fun sh => ?_)
  dsimp only
  split <;> simp [hs]

@[simp] theorem advQ_wf (s : State) (q : QReg) (b : Nat) (hs : s.mem.wf = true) :
    Yields (fun t => t.mem.wf = true) (s.advQ q b) := by
  unfold State.advQ
  dsimp only
  split <;> simp [hs]

theorem scaleFill_wf (s : State) (e : BitVec 256) (hs : s.mem.wf = true) : Yields (fun t => t.mem.wf = true) (s.scaleFill e) := by
  simp [State.scaleFill, hs]

@[simp] theorem scaleLoad_mem (s : State) (e : BitVec 256) : (s.scaleLoad e).mem = s.mem := by simp [State.scaleLoad]

theorem scaleTake_wf (s : State) (hs : s.mem.wf = true) :
    Yields (fun r => r.2.mem.wf = true) (s.scaleTake) := by
  unfold State.scaleTake
  split <;> simp [hs]

theorem scaleTakeN_wf (n : Nat) (s : State) (hs : s.mem.wf = true) : Yields (fun r => r.2.mem.wf = true) (s.scaleTakeN n) := by
  induction n generalizing s with
  | zero => simpa [State.scaleTakeN] using hs
  | succ n ih => exact (scaleTake_wf _ hs).bind fun r hr => (ih _ hr).bind fun u hu => by simpa using hu

/-! The operations of Machine/Operands.lean. -/

@[simp] theorem putReg_wf (s : State) (off : Nat) (bs : List Byte) (hs : s.mem.wf = true) : (s.putReg off bs).mem.wf = true := by
  simp [State.putReg, storeParts_wf, hs]

@[simp] theorem writeV_wf (s : State) (n : VReg) (v : Vec) (hs : s.mem.wf = true) : (s.writeV n v).mem.wf = true := by simp [State.writeV, hs]

theorem readVOp_wf (s : State) (o : VOp) (hs : s.mem.wf = true) :
    Yields (fun r => r.2.mem.wf = true) (s.readVOp o) := by
  cases o with
  | reg n => simpa [State.readVOp] using hs
  | queue q => exact popQ_wf _ _ hs

theorem writeVOp_wf (s : State) (o : VOp) (v : Vec) (hs : s.mem.wf = true) :
    Yields (fun t => t.mem.wf = true) (s.writeVOp o v) := by
  cases o with
  | reg n => simp [State.writeVOp, hs]
  | queue q => exact pushQ_wf _ _ _ hs

theorem readSrc_wf (s : State) (b : VSrc) (hs : s.mem.wf = true) :
    Yields (fun r => r.2.mem.wf = true) (s.readSrc b) := by
  cases b with
  | op o => exact (readVOp_wf _ _ hs).bind fun r hr => by simpa using hr
  | lit l => simpa [State.readSrc] using hs

theorem readWide_wf (o : VOp) (n : Nat) (s : State) (hs : s.mem.wf = true) : Yields (fun r => r.2.mem.wf = true) (s.readWide o n) := by
  induction n generalizing s with
  | zero => simpa [State.readWide] using hs
  | succ n ih =>
    cases o with
    | reg v => simpa [State.readWide] using hs
    | queue q => exact (popQ_wf _ _ hs).bind fun r hr => (ih _ hr).bind fun u hu => by simpa using hu

theorem writeWide_wf (o : VOp) (vs : List Vec) (s : State) (hs : s.mem.wf = true) : Yields (fun t => t.mem.wf = true) (s.writeWide o vs) := by
  induction vs generalizing s with
  | nil => simpa [State.writeWide] using hs
  | cons v vs ih =>
    cases o with
    | reg n => exact (yields_ok _).2 (foldl_wf _ (fun t x ht => putReg_wf _ _ _ ht) _ _ hs)
    | queue q => exact (pushQ_wf _ _ _ hs).bind fun t ht => ih t ht

theorem readElems_wf (s : State) (o : VOp) (sf f : Fmt) (hs : s.mem.wf = true) :
    Yields (fun r => r.2.mem.wf = true) (s.readElems o sf f) :=
  (readWide_wf _ _ _ hs).bind fun r hr => by simpa using hr

theorem writeElems_wf (s : State) (o : VOp) (f sf : Fmt) (xs : List Nat) (hs : s.mem.wf = true) :
    Yields (fun t => t.mem.wf = true) (s.writeElems o f sf xs) :=
  writeWide_wf _ _ _ hs

/-! The operations of Machine/Access.lean. -/

@[simp] theorem shldBody_wf (sp : Space) (d : ShReg) (ea : Word) (s : State) (hs : s.mem.wf = true) :
    Yields (fun t => t.mem.wf = true) (shldBody sp d ea s) :=
  .step fun _ => .step fun _ => by simp [hs]

@[simp] theorem shstBody_wf (sp : Space) (d : ShReg) (ea : Word) (s : State) (hs : s.mem.wf = true) :
    Yields (fun t => t.mem.wf = true) (shstBody sp d ea s) :=
  storeChecked_wf _ _ _ _ _ _ (settleWrites_wf _ _ hs)

@[simp] theorem shsetBody_wf (d : ShReg) (n : BitVec 3) (v : Word) (s : State) (hs : s.mem.wf = true) :
    Yields (fun t => t.mem.wf = true) (shsetBody d n v s) :=
  .step fun _ => by simp [hs]

@[simp] theorem vldBody_wf (d : VReg) (a : ShReg) (p : Word) (c : MReg) (s : State) (hs : s.mem.wf = true) :
    Yields (fun t => t.mem.wf = true) (vldBody d a p c s) :=
  .step fun _ => .step fun _ => by simp [hs]

@[simp] theorem vstBody_wf (d : VReg) (a : ShReg) (p : Word) (c : MReg) (s : State) (hs : s.mem.wf = true) :
    Yields (fun t => t.mem.wf = true) (vstBody d a p c s) :=
  .step fun _ => .step fun _ => (journalElems_wf _ _ _ (settleWrites_wf _ _ hs)).bind fun t ht =>
    (yields_ok _).2 (foldl_wf _ (fun _ _ hu => putElem_wf _ _ _ _ hu) _ _ (by simpa using ht))

@[simp] theorem pldBody_wf (d : VReg) (a : ShReg) (p : Word) (c : MReg) (s : State) (hs : s.mem.wf = true) :
    Yields (fun t => t.mem.wf = true) (pldBody d a p c s) :=
  .step fun _ => .step fun _ => by simp [hs]

@[simp] theorem resideBody_wf (d : SReg) (a : ShReg) (p : Word) (c : MReg) (s : State) (hs : s.mem.wf = true) :
    Yields (fun t => t.mem.wf = true) (resideBody d a p c s) := by
  refine .step fun sh => ?_
  dsimp only
  split
  all_goals
    refine .step fun pages => ?_
    rw [yields_pure, writeS_mem]
    split <;> simp [foldl_mem, hs]

@[simp] theorem scldBody_wf (a : ShReg) (p : Word) (s : State) (hs : s.mem.wf = true) :
    Yields (fun t => t.mem.wf = true) (scldBody a p s) := by
  unfold scldBody
  refine .step fun sh => .unless ?_
  dsimp only
  split <;> simp [hs]

@[simp] theorem prefBody_wf (a : ShReg) (s : State) (hs : s.mem.wf = true) :
    Yields (fun t => t.mem.wf = true) (prefBody a s) :=
  .step fun _ => by simpa using hs

@[simp] theorem closeBody_wf (q : QReg) (s : State) (hs : s.mem.wf = true) :
    Yields (fun t => t.mem.wf = true) (closeBody q s) :=
  .step fun _ => by simp [hs]

@[simp] theorem drainBody_wf (q : QReg) (s : State) (hs : s.mem.wf = true) :
    Yields (fun t => t.mem.wf = true) (drainBody q s) :=
  .step fun _ => by simp [hs]

@[simp] theorem lookaheadBody_wf (q : QReg) (b : Word) (s : State) (hs : s.mem.wf = true) :
    Yields (fun t => t.mem.wf = true) (lookaheadBody q b s) := by
  simp [lookaheadBody, hs]

/-! The operations of Machine/Vector.lean. -/

theorem finishVec_wf (s : State) (f : Fmt) (rm : Rm) (d : VOp) (res : List Nat × Flags) (hs : s.mem.wf = true) :
    Yields (fun t => t.mem.wf = true) (s.finishVec f rm d res) :=
  (writeVOp_wf _ _ _ hs).bind fun t ht => by simpa using ht

@[simp] theorem arithBody_wf (f : Fmt) (rm : Rm) (sat : Bool) (d a : VOp) (b : VSrc) (c : MReg) (fi : Int → Int → Int → Int)
    (fv : FVal → FVal → FVal → FVal × Flags) (s : State) (hs : s.mem.wf = true) :
    Yields (fun t => t.mem.wf = true) (arithBody f rm sat d a b c fi fv s) :=
  (readVOp_wf _ _ hs).bind fun _ ht => (readSrc_wf _ _ ht).bind fun _ hu => finishVec_wf _ _ _ _ _ hu

@[simp] theorem extremeBody_wf (f : Fmt) (d a : VOp) (b : VSrc) (c : MReg) (fi : Int → Int → Int) (fv : FVal → FVal → FVal) (s : State)
    (hs : s.mem.wf = true) :
    Yields (fun t => t.mem.wf = true) (extremeBody f d a b c fi fv s) :=
  (readVOp_wf _ _ hs).bind fun _ ht => (readSrc_wf _ _ ht).bind fun _ hu => finishVec_wf _ _ _ _ _ hu

@[simp] theorem unaryBody_wf (f : Fmt) (rm : Rm) (d a : VOp) (c : MReg) (g : Rounding → Nat → Nat → Nat × Flags) (sat : Bool) (s : State)
    (hs : s.mem.wf = true) :
    Yields (fun t => t.mem.wf = true) (unaryBody f rm d a c g sat s) :=
  (readVOp_wf _ _ hs).bind fun _ ht => finishVec_wf _ _ _ _ _ ht

@[simp] theorem bitsBody_wf (f : Fmt) (d a : VOp) (b : VSrc) (c : MReg) (g : Nat → Nat → Nat) (s : State) (hs : s.mem.wf = true) :
    Yields (fun t => t.mem.wf = true) (bitsBody f d a b c g s) :=
  (readVOp_wf _ _ hs).bind fun _ ht => (readSrc_wf _ _ ht).bind fun _ hu => finishVec_wf _ _ _ _ _ hu

@[simp] theorem mulhiBody_wf (f : Fmt) (d a : VOp) (b : VSrc) (c : MReg) (s : State) (hs : s.mem.wf = true) :
    Yields (fun t => t.mem.wf = true) (mulhiBody f d a b c s) :=
  (readVOp_wf _ _ hs).bind fun _ ht => (readSrc_wf _ _ ht).bind fun _ hu => finishVec_wf _ _ _ _ _ hu

@[simp] theorem vcmpBody_wf (f : Fmt) (d : MReg) (a : VOp) (b : VSrc) (c : VCond) (s : State) (hs : s.mem.wf = true) :
    Yields (fun t => t.mem.wf = true) (vcmpBody f d a b c s) :=
  (readVOp_wf _ _ hs).bind fun _ ht => (readSrc_wf _ _ ht).bind fun _ hu => by simpa using hu

@[simp] theorem vselBody_wf (f : Fmt) (d a b : VOp) (c : MReg) (s : State) (hs : s.mem.wf = true) :
    Yields (fun t => t.mem.wf = true) (vselBody f d a b c s) :=
  (readVOp_wf _ _ hs).bind fun _ ht => (readVOp_wf _ _ ht).bind fun _ hu => finishVec_wf _ _ _ _ _ hu

@[simp] theorem fillBody_wf (f : Fmt) (rm : Rm) (d : VOp) (c : MReg) (g : Nat → Nat × Flags) (s : State) (hs : s.mem.wf = true) :
    Yields (fun t => t.mem.wf = true) (fillBody f rm d c g s) :=
  finishVec_wf _ _ _ _ _ hs

@[simp] theorem vcvtBody_wf (f sf : Fmt) (rm : Rm) (sat : Bool) (d a : VOp) (s : State) (hs : s.mem.wf = true) :
    Yields (fun t => t.mem.wf = true) (vcvtBody f sf rm sat d a s) :=
  (readElems_wf _ _ _ _ hs).bind fun _ ht => (writeElems_wf _ _ _ _ _ ht).bind fun _ hu => by simpa using hu

@[simp] theorem widenBody_wf (f sf : Fmt) (rm : Rm) (sat : Bool) (d a b : VOp) (fi : Int → Int → Int) (fv : FVal → FVal → FVal × Flags)
    (s : State) (hs : s.mem.wf = true) :
    Yields (fun t => t.mem.wf = true) (widenBody f sf rm sat d a b fi fv s) :=
  (readVOp_wf _ _ hs).bind fun _ ht => (readVOp_wf _ _ ht).bind fun _ hu =>
    (writeElems_wf _ _ _ _ _ hu).bind fun _ hv => by simpa using hv

@[simp] theorem vnarrowBody_wf (f sf : Fmt) (rm : Rm) (sat : Bool) (d a : VOp) (b : Word) (s : State) (hs : s.mem.wf = true) :
    Yields (fun t => t.mem.wf = true) (vnarrowBody f sf rm sat d a b s) :=
  (readElems_wf _ _ _ _ hs).bind fun _ ht => (writeElems_wf _ _ _ _ _ ht).bind fun _ hu => by simpa using hu

@[simp] theorem redsumBody_wf (f : Fmt) (rm : Rm) (sat : Bool) (d a : VOp) (c : MReg) (s : State) (hs : s.mem.wf = true) :
    Yields (fun t => t.mem.wf = true) (redsumBody f rm sat d a c s) :=
  (readVOp_wf _ _ hs).bind fun _ ht => finishVec_wf _ _ _ _ _ ht

@[simp] theorem redExtremeBody_wf (f : Fmt) (d a : VOp) (c : MReg) (fi : Int → Int → Int) (fv : FVal → FVal → FVal) (s : State)
    (hs : s.mem.wf = true) :
    Yields (fun t => t.mem.wf = true) (redExtremeBody f d a c fi fv s) :=
  (readVOp_wf _ _ hs).bind fun _ ht => finishVec_wf _ _ _ _ _ ht

@[simp] theorem scanBody_wf (f : Fmt) (rm : Rm) (sat : Bool) (d a : VOp) (c : MReg) (s : State) (hs : s.mem.wf = true) :
    Yields (fun t => t.mem.wf = true) (scanBody f rm sat d a c s) :=
  (readVOp_wf _ _ hs).bind fun _ ht => finishVec_wf _ _ _ _ _ ht

@[simp] theorem vpermBody_wf (f : Fmt) (d a b : VOp) (c : MReg) (s : State) (hs : s.mem.wf = true) :
    Yields (fun t => t.mem.wf = true) (vpermBody f d a b c s) :=
  (readVOp_wf _ _ hs).bind fun _ ht => (readWide_wf _ _ _ ht).bind fun _ hu => finishVec_wf _ _ _ _ _ hu

@[simp] theorem vslideBody_wf (f : Fmt) (d a : VOp) (b : Word) (c : MReg) (s : State) (hs : s.mem.wf = true) :
    Yields (fun t => t.mem.wf = true) (vslideBody f d a b c s) :=
  (readVOp_wf _ _ hs).bind fun _ ht => finishVec_wf _ _ _ _ _ ht

@[simp] theorem zipBody_wf (f : Fmt) (d a b : VOp) (g : List Nat → List Nat → List Nat) (s : State) (hs : s.mem.wf = true) :
    Yields (fun t => t.mem.wf = true) (zipBody f d a b g s) :=
  (readVOp_wf _ _ hs).bind fun _ ht => (readVOp_wf _ _ ht).bind fun _ hu => writeWide_wf _ _ _ hu

@[simp] theorem vcompressBody_wf (f : Fmt) (d a : VOp) (c : MReg) (s : State) (hs : s.mem.wf = true) :
    Yields (fun t => t.mem.wf = true) (vcompressBody f d a c s) :=
  (readVOp_wf _ _ hs).bind fun _ ht => writeVOp_wf _ _ _ ht

@[simp] theorem vexpandBody_wf (f : Fmt) (d a : VOp) (c : MReg) (s : State) (hs : s.mem.wf = true) :
    Yields (fun t => t.mem.wf = true) (vexpandBody f d a c s) :=
  (readVOp_wf _ _ hs).bind fun _ ht => writeVOp_wf _ _ _ ht

@[simp] theorem vinsBody_wf (f : Fmt) (d : VReg) (a b : Word) (s : State) (hs : s.mem.wf = true) : (vinsBody f d a b s).mem.wf = true := by
  simp [vinsBody, hs]

@[simp] theorem vextBody_wf (f : Fmt) (d : SReg) (a : VOp) (b : Word) (s : State) (hs : s.mem.wf = true) :
    Yields (fun t => t.mem.wf = true) (vextBody f d a b s) :=
  (readVOp_wf _ _ hs).bind fun _ ht => by simpa using ht

/-! The operations of Machine/Convert.lean. -/

@[simp] theorem qcvtBody_wf (f sf : Fmt) (rm : Rm) (d a : VOp) (k : BitVec 2) (s : State) (hs : s.mem.wf = true) :
    Yields (fun t => t.mem.wf = true) (qcvtBody f sf rm d a k s) :=
  (readElems_wf _ _ _ _ hs).bind fun _ ht => (writeVOp_wf _ _ _ ht).bind fun _ hu =>
    (scaleFill_wf _ _ hu).bind fun _ hv => by simpa using hv

@[simp] theorem qdcvtBody_wf (f sf : Fmt) (rm : Rm) (sat : Bool) (d a : VOp) (k : BitVec 1) (s : State) (hs : s.mem.wf = true) :
    Yields (fun t => t.mem.wf = true) (qdcvtBody f sf rm sat d a k s) :=
  (readVOp_wf _ _ hs).bind fun _ ht => (scaleTake_wf _ ht).bind fun _ hu =>
    (writeElems_wf _ _ _ _ _ hu).bind fun _ hv => by simpa using hv

@[simp] theorem lqBody_wf (sf : Fmt) (sat : Bool) (d : VReg) (a : VOp) (l : Word) (s : State) (hs : s.mem.wf = true) :
    Yields (fun t => t.mem.wf = true) (lqBody sf sat d a l s) :=
  (readVOp_wf _ _ hs).bind fun _ ht => by simp [ht]

@[simp] theorem ldqBody_wf (f : Fmt) (rm : Rm) (sat : Bool) (d : VReg) (a : VOp) (l : Word) (s : State) (hs : s.mem.wf = true) :
    Yields (fun t => t.mem.wf = true) (ldqBody f rm sat d a l s) :=
  (readVOp_wf _ _ hs).bind fun _ ht => by simp [ht]

@[simp] theorem lqrepBody_wf (sf : Fmt) (sat : Bool) (d : VReg) (a : VOp) (l : Word) (s : State) (hs : s.mem.wf = true) :
    Yields (fun t => t.mem.wf = true) (lqrepBody sf sat d a l s) :=
  (readVOp_wf _ _ hs).bind fun _ ht => by simp [ht]

@[simp] theorem lstatBody_wf (sf : Fmt) (d : SReg) (a : VOp) (l : Word) (s : State) (hs : s.mem.wf = true) :
    Yields (fun t => t.mem.wf = true) (lstatBody sf d a l s) :=
  (readVOp_wf _ _ hs).bind fun _ ht => by simp [ht]

@[simp] theorem rngseedBody_mem (b : Word) (s : State) : (rngseedBody b s).mem = s.mem := rfl

@[simp] theorem rnggetBody_wf (f : Fmt) (d : VOp) (c : MReg) (s : State) (hs : s.mem.wf = true) :
    Yields (fun t => t.mem.wf = true) (rnggetBody f d c s) :=
  (fillBody_wf _ _ _ _ _ _ hs).bind fun _ ht => by simpa using ht

@[simp] theorem scpushBody_wf (a : VOp) (b : Word) (s : State) (hs : s.mem.wf = true) :
    Yields (fun t => t.mem.wf = true) (scpushBody a b s) :=
  (readVOp_wf _ _ hs).bind fun _ ht => scaleFill_wf _ _ ht

@[simp] theorem scpopBody_wf (d : VReg) (b : Word) (s : State) (hs : s.mem.wf = true) :
    Yields (fun t => t.mem.wf = true) (scpopBody d b s) :=
  (scaleTake_wf _ hs).bind fun _ ht => by simp [ht]

/-! The operations of Machine/Matrix.lean. -/

@[simp] theorem setMr_mem (s : State) (r : MatrixRec) : (s.setMr r).mem = s.mem := rfl

@[simp] theorem setSlotRec_mem (s : State) (b : WSlot) (r : SlotRec) : (s.setSlotRec b r).mem = s.mem := rfl

@[simp] theorem setSlotFail_mem (s : State) (b : WSlot) (f : Option Stop) : (s.setSlotFail b f).mem = s.mem := rfl

@[simp] theorem fillSlot_mem (s : State) (b : WSlot) (v : BitVec 34816) : (s.fillSlot b v).mem = s.mem := rfl

@[simp] theorem muDone_mem (s : State) (busy : Nat) (queued scaled : Bool) : (s.muDone busy queued scaled).mem = s.mem := rfl

@[simp] theorem noteImage_mem (s : State) (f : Fmt) (c : BitVec 6) (ea : Word) (ts : Space) (t : Nat) : (s.noteImage f c ea ts t).mem = s.mem := by
  simp [State.noteImage]

@[simp] theorem noteReload_mem (s : State) (b : WSlot) : (s.noteReload b).mem = s.mem := by simp [State.noteReload]

@[simp] theorem reloadSlot_mem (s : State) (b : WSlot) : (s.reloadSlot b).mem = s.mem := by
  unfold State.reloadSlot
  (repeat' split) <;> simp

@[simp] theorem reloadSlots_mem (s : State) : s.reloadSlots.mem = s.mem := by
  unfold State.reloadSlots
  exact foldl_mem _ (fun t i => reloadSlot_mem _ _) _ _

@[simp] theorem startMember_wf (s : State) (id : BitVec 10) (hs : s.mem.wf = true) : (s.startMember id).mem.wf = true := by
  simp [State.startMember, hs]

@[simp] theorem placeCtx_wf (s : State) (h : BitVec 32) (base : BitVec 10) (hs : s.mem.wf = true) : (s.placeCtx h base).mem.wf = true := by
  unfold State.placeCtx
  split
  · exact hs
  · exact foldl_wf _ (fun t id ht => startMember_wf _ _ ht) _ _ (by simpa using hs)

theorem popEntries_wf (s : State) (q : QReg) (n : Nat) (hs : s.mem.wf = true) :
    Yields (fun r => r.2.mem.wf = true) (s.popEntries q n) := by
  unfold State.popEntries
  dsimp only
  split
  · simp
  · exact readWide_wf _ _ _ hs

theorem readTile_wf (s : State) (a : TOp) (hs : s.mem.wf = true) :
    Yields (fun r => r.2.mem.wf = true) (s.readTile a) := by
  cases a with
  | tile t => simpa [State.readTile] using hs
  | queue q => exact (popEntries_wf _ _ _ hs).bind fun r hr => by simpa using hr

theorem slotFor_wf (s : State) (f : Fmt) (lattice : Bool) (b : WSlot) (hs : s.mem.wf = true) :
    Yields (fun r => r.2.mem.wf = true) (s.slotFor f lattice b) := by
  unfold State.slotFor
  dsimp only
  (repeat' split) <;> simp [hs]

@[simp] theorem accumulate_wf (s : State) (f : Fmt) (sat : Bool) (d : AccReg) (busy : Nat) (queued scaled : Bool) (rows : List (List FVal))
    (cols : List (List FVal × Flags)) (hs : s.mem.wf = true) : (s.accumulate f sat d busy queued scaled rows cols).mem.wf = true := by
  simp [State.accumulate, hs]

theorem takeScales_wf (s : State) (f : Fmt) (kd : Nat) (hs : s.mem.wf = true) :
    Yields (fun r => r.2.mem.wf = true) (s.takeScales f kd) := by
  unfold State.takeScales
  split
  · exact (scaleTakeN_wf _ _ hs).bind fun r hr => by simpa using hr
  · simpa using hs

@[simp] theorem mmaBody_wf (f : Fmt) (sat lattice : Bool) (d : AccReg) (a : TOp) (b : WSlot) (s : State) (hs : s.mem.wf = true) :
    Yields (fun t => t.mem.wf = true) (mmaBody f sat lattice d a b s) :=
  (readTile_wf _ _ hs).bind fun _ ht => (slotFor_wf _ _ _ _ ht).bind fun _ hu =>
    .step fun _ => (takeScales_wf _ _ _ hu).bind fun _ hv => by simp [hv]

@[simp] theorem mmasBody_wf (f : Fmt) (sat : Bool) (d : AccReg) (a : TOp) (b : WSlot) (c : TileReg) (s : State) (hs : s.mem.wf = true) :
    Yields (fun t => t.mem.wf = true) (mmasBody f sat d a b c s) := by
  refine (readTile_wf _ _ hs).bind fun _ ht => (slotFor_wf _ _ _ _ ht).bind fun _ hu => (slotFor_wf _ _ _ _ hu).bind fun _ hv => ?_
  exact .unless (.step fun _ => (takeScales_wf _ _ _ hv).bind fun _ hw => by simp [hw])

@[simp] theorem mmagBody_wf (f : Fmt) (sat : Bool) (d : AccReg) (a : TileReg) (b : WSlot) (c : VOp) (s : State) (hs : s.mem.wf = true) :
    Yields (fun t => t.mem.wf = true) (mmagBody f sat d a b c s) := by
  unfold mmagBody
  dsimp only
  split
  on_goal 2 => refine (popEntries_wf _ _ _ hs).bind fun _ hp => ?_
  all_goals
    refine Yields.bind (R := fun r => r.2.mem.wf = true) ?_ fun _ ht => (slotFor_wf _ _ _ _ ht).bind fun _ hu =>
      .step fun _ => .step fun _ => (takeScales_wf _ _ _ hu).bind fun _ hv => by simp [hv]
  · simpa using hs
  · simpa using hp

@[simp] theorem mzeroBody_wf (d : AccReg) (s : State) (hs : s.mem.wf = true) : (mzeroBody d s).mem.wf = true := by
  unfold mzeroBody
  rw [muDone_mem]
  exact putReg_wf _ _ _ hs

theorem amaxUpdate_wf (s : State) (f : Fmt) (sp : Space) (ea : Word) (acc : List Nat) (hs : s.mem.wf = true) :
    Yields (fun t => t.mem.wf = true) (s.amaxUpdate f sp ea acc) := by
  unfold State.amaxUpdate
  exact .unless (.step fun _ => .step fun _ => storeRun_wf _ _ _ _ _ hs)

@[simp] theorem mdrainBody_wf (f : Fmt) (rm : Rm) (sat : Bool) (sp : Space) (z : Bool) (d : TOp) (a : AccReg) (ea : Word) (s : State)
    (hs : s.mem.wf = true) :
    Yields (fun t => t.mem.wf = true) (mdrainBody f rm sat sp z d a ea s) := by
  rw [mdrainBody]
  generalize List.replicate 16384 (0 : Byte) = zeros
  split
  dsimp only
  split
  on_goal 1 => refine .step fun _ => ?_
  all_goals refine Yields.bind (R := fun t => t.mem.wf = true) ?_ fun t ht => ?_
  on_goal 1 => exact (yields_pure _).2 (putReg_wf _ _ _ hs)
  on_goal 2 => exact writeWide_wf _ _ _ hs
  all_goals
    have hz : (if z then t.putReg (s.offAcc a.toNat) zeros else t).mem.wf = true := by
      split
      · exact putReg_wf _ _ _ ht
      · exact ht
    split
    · exact (amaxUpdate_wf _ _ _ _ _ hz).bind fun _ hu => by simpa using hu
    · exact Yields.bind (R := fun t => t.mem.wf = true) ((yields_pure _).2 hz) fun _ hu => by simpa using hu

@[simp] theorem mcfgBody_wf (b : Word) (s : State) (hs : s.mem.wf = true) : Yields (fun t => t.mem.wf = true) (mcfgBody b s) := by simp [mcfgBody, hs]

@[simp] theorem wloadDone_mem (s : State) (f : Fmt) (c : BitVec 6) (cl : BitVec 4) (d : WSlot) (ea : Word) (v : BitVec 34816) :
    (s.wloadDone f c cl d ea v).mem = s.mem := by
  simp [State.wloadDone]

@[simp] theorem wloadFailed_mem (s : State) (f : Fmt) (c : BitVec 6) (cl : BitVec 4) (d : WSlot) (ea : Word) (st : Stop) :
    (s.wloadFailed f c cl d ea st).mem = s.mem :=
  rfl

@[simp] theorem wtabBody_wf (sp : Space) (ea : Word) (len : Nat) (s : State) (hs : s.mem.wf = true) :
    Yields (fun t => t.mem.wf = true) (wtabBody sp ea len s) := by
  unfold wtabBody
  exact .unless (.step fun _ => by simpa using hs)

@[simp] theorem reloadDue_mem (s : State) (slots : List WSlot) (st : Stop) : (s.reloadDue slots st).mem = s.mem := by
  refine foldl_mem _ (fun t x => ?_) _ _
  split <;> simp

/-! The operations of Machine/Copy.lean. -/

theorem journalRuns_wf (s : State) (sp : Space) (runs : List (Nat × Nat)) (hs : s.mem.wf = true) :
    Yields (fun t => t.mem.wf = true) (s.journalRuns sp runs) := by
  unfold State.journalRuns
  split
  · refine foldlM_wf _ (fun t r ht => ?_) _ _ hs
    split
    · simpa using ht
    · exact journalRun_wf _ _ _ ht
  · simpa using hs
  · exact foldlM_wf _ (fun t r ht => journalPa_wf _ _ _ ht) _ _ hs

@[simp] theorem copyBody_wf (dsp ssp : Space) (dst src n : Nat) (s : State) (hs : s.mem.wf = true) :
    Yields (fun t => t.mem.wf = true) (copyBody dsp ssp dst src n s) := by
  unfold copyBody
  exact .unless (.step fun _ => (journalRuns_wf _ _ _ hs).bind fun _ ht => by simp [ht])

@[simp] theorem enginePut_wf (s : State) (w : Nat) (high : Bool) (parts : List (Loc × Nat)) (v : Nat) (hs : s.mem.wf = true) :
    (s.enginePut w high parts v).mem.wf = true := by
  simp [State.enginePut, hs]

@[simp] theorem enginePutAll_wf (w : Nat) (es : List (Nat × Bool)) (ps : List (List (Loc × Nat))) (vs : List Nat) (s : State) (hs : s.mem.wf = true) :
    (s.enginePutAll w es ps vs).mem.wf = true := by
  induction es generalizing s ps vs with
  | nil => simpa [State.enginePutAll] using hs
  | cons e es ih =>
    cases ps <;> cases vs <;> simp [State.enginePutAll, hs, ih]

@[simp] theorem copynBody_wf (d a : ShReg) (s : State) (hs : s.mem.wf = true) :
    Yields (fun t => t.mem.wf = true) (copynBody d a s) := by
  unfold copynBody
  exact .step fun _ => .step fun _ => .unless (.unless (.step fun _ => (journalRuns_wf _ _ _ hs).bind fun _ ht => by simp [ht]))

@[simp] theorem cfillBody_wf (f : Fmt) (sp : Space) (dst : Nat) (pat : Word) (n : Nat) (s : State) (hs : s.mem.wf = true) :
    Yields (fun t => t.mem.wf = true) (cfillBody f sp dst pat n s) := by
  unfold cfillBody
  exact .unless (.step fun _ => (journalRuns_wf _ _ _ hs).bind fun _ ht => by simp [ht])

theorem indexList_wf (s : State) (ish : BitVec 512) (limit : Nat) (hs : s.mem.wf = true) :
    Yields (fun r => r.2.mem.wf = true) (s.indexList ish limit) := by
  refine .step fun sides => ?_
  dsimp only
  split <;> simp [hs]

theorem gatherSetup_wf (s : State) (a b : ShReg) (hs : s.mem.wf = true) :
    Yields (fun r => r.2.2.mem.wf = true) (s.gatherSetup a b) := by
  unfold State.gatherSetup
  exact .step fun _ => .step fun _ => .unless (.unless ((indexList_wf _ _ _ hs).bind fun r hr => by simpa using hr))

@[simp] theorem gatherLoop_wf (w : Nat) (out : List (Loc × Nat)) (es : List (Nat × Bool)) (ps : List (List (Loc × Nat))) (q : Nat) (s : State)
    (hs : s.mem.wf = true) : (s.gatherLoop w out q es ps).mem.wf = true := by
  induction es generalizing s ps q with
  | nil => simpa [State.gatherLoop] using hs
  | cons e es ih =>
    cases ps <;> simp [State.gatherLoop, hs, ih]

@[simp] theorem gatherBody_wf (sp : Space) (dst : Nat) (a b : ShReg) (s : State) (hs : s.mem.wf = true) :
    Yields (fun t => t.mem.wf = true) (gatherBody sp dst a b s) :=
  (gatherSetup_wf _ _ _ hs).bind fun _ ht => .step fun _ => (journalRuns_wf _ _ _ ht).bind fun _ hu => by simp [hu]

@[simp] theorem scatterBody_wf (sp : Space) (src : Nat) (d b : ShReg) (s : State) (hs : s.mem.wf = true) :
    Yields (fun t => t.mem.wf = true) (scatterBody sp src d b s) :=
  (gatherSetup_wf _ _ _ hs).bind fun _ ht => .step fun _ => (journalRuns_wf _ _ _ ht).bind fun _ hu => by simp [hu]

@[simp] theorem xposeBody_wf (f : Fmt) (dsp ssp : Space) (dst src : Nat) (geom : Word) (s : State) (hs : s.mem.wf = true) :
    Yields (fun t => t.mem.wf = true) (xposeBody f dsp ssp dst src geom s) :=
  .step fun _ => (journalRuns_wf _ _ _ hs).bind fun _ ht => by simp [ht]

@[simp] theorem vpushBody_wf (d : VReg) (ea : Word) (s : State) (hs : s.mem.wf = true) :
    Yields (fun t => t.mem.wf = true) (vpushBody d ea s) := by
  unfold vpushBody
  exact .unless (.unless (.unless ((journalPa_wf _ _ _ hs).bind fun _ ht => by simp [ht])))

@[simp] theorem cleanBody_wf (drop : Bool) (a n : Word) (s : State) (hs : s.mem.wf = true) :
    Yields (fun t => t.mem.wf = true) (cleanBody drop a n s) := by
  simp [cleanBody, hs]

@[simp] theorem phaseBody_wf (d : SReg) (b : Word) (s : State) (hs : s.mem.wf = true) :
    Yields (Fate.Canonical) (phaseBody d b s) := by
  unfold phaseBody
  (repeat' split) <;> simp [hs]

/-! The operations of Machine/Sync.lean. -/

@[simp] theorem fenceBody_wf (b : Word) (s : State) (hs : s.mem.wf = true) :
    Yields (fun t => t.mem.wf = true) (fenceBody b s) :=
  settled_wf _ _ hs

@[simp] theorem atomicBody_wf (op : AtomicOp) (f : Fmt) (rm : Rm) (sp : Space) (d : SReg) (ea v : Word) (s : State) (hs : s.mem.wf = true) :
    Yields (fun t => t.mem.wf = true) (atomicBody op f rm sp d ea v s) :=
  (settled_wf _ _ hs).bind fun _ ht => .step fun _ =>
    (storeRun_wf _ _ _ _ _ ht).bind fun _ hu => by simpa using hu

theorem vatomicRun_wf (op : AtomicOp) (f : Fmt) (sp : Space) (es : List (Word × Nat)) (s : State) (hs : s.mem.wf = true) :
    Yields (fun r => r.1.mem.wf = true) (State.vatomicRun op f sp s es) := by
  induction es generalizing s with
  | nil => simpa [State.vatomicRun] using hs
  | cons e es ih =>
    exact .step fun _ => (storeRun_wf _ _ _ _ _ hs).bind fun t ht => (ih t ht).bind fun r hr => by simpa using hr

@[simp] theorem vatomicBody_wf (op : AtomicOp) (f : Fmt) (sp : Space) (m : MReg) (d : VReg) (base : Word) (b : VOp) (s : State)
    (hs : s.mem.wf = true) :
    Yields (fun t => t.mem.wf = true) (vatomicBody op f sp m d base b s) :=
  (readVOp_wf _ _ hs).bind fun _ ht => (settled_wf _ _ ht).bind fun _ hu => .step fun _ =>
    (vatomicRun_wf _ _ _ _ _ hu).bind fun r hr => by simpa using hr

@[simp] theorem ownGiveBody_wf (sp : Space) (frm dst : Owner) (a : Word) (n : Nat) (s : State) (hs : s.mem.wf = true) :
    Yields (fun t => t.mem.wf = true) (ownGiveBody sp frm dst a n s) := by
  unfold ownGiveBody
  refine .unless (.step fun ts => ?_)
  dsimp only
  split
  all_goals refine Yields.bind (R := fun t => t.mem.wf = true) ?_ fun t ht => .step fun _ => by simpa [foldl_mem] using ht
  · exact settled_wf _ _ hs
  · simpa using hs

@[simp] theorem ownTakeBody_wf (sp : Space) (o : Owner) (a : Word) (n : Nat) (s : State) (hs : s.mem.wf = true) :
    Yields (fun t => t.mem.wf = true) (ownTakeBody sp o a n s) :=
  .step fun _ => .step fun _ => by simpa using hs

@[simp] theorem ownTestBody_wf (sp : Space) (d : SReg) (a : Word) (n : Nat) (s : State) (hs : s.mem.wf = true) :
    Yields (fun t => t.mem.wf = true) (ownTestBody sp d a n s) :=
  .step fun _ => by simpa using hs

@[simp] theorem putChannel_mem (s : State) (c : Channel) : (s.putChannel c).mem = s.mem := rfl

@[simp] theorem endRound_mem (s : State) (c : Channel) (status : Nat) : (s.endRound c status).mem = s.mem := rfl

theorem arrive_mem (s t : State) (sc : Scope) (dom k n : Nat) (h : s.arrive sc dom k n = some t) : t.mem = s.mem := by
  unfold State.arrive at h
  dsimp only at h
  split at h
  · cases h
  · cases h
    simp

@[simp] theorem setBar_mem (s : State) (r : Option BarRec) : (s.setBar r).mem = s.mem := rfl

@[simp] theorem barGoOn_wf (s : State) (d : SReg) (r : BarRec) (hs : s.mem.wf = true) : (s.barGoOn d r).Canonical := by
  unfold State.barGoOn
  (repeat' split) <;> simp [hs]

@[simp] theorem barBody_wf (sc : Scope) (d : SReg) (k : BitVec 4) (b : Word) (s : State) (hs : s.mem.wf = true) :
    Yields (Fate.Canonical) (barBody sc d k b s) := by
  unfold barBody
  split
  · simp [hs]
  · generalize (if b = 0 then s.gangInDomain sc else b.toNat % 2 ^ 32) = n
    dsimp only
    split
    · simp
    · refine (settled_wf _ _ hs).bind fun t ht => ?_
      split
      · simp
      · rename_i u hu
        have hw : u.mem.wf = true := by simpa [arrive_mem _ _ _ _ _ _ hu] using ht
        split <;> simp [hw]

@[simp] theorem sstepBody_wf (len : Nat) (sc : Scope) (d : SReg) (k : BitVec 4) (b : Word) (s : State) (hs : s.mem.wf = true) :
    Yields (Fate.Canonical) (sstepBody len sc d k b s) := by
  refine (barBody_wf _ _ _ _ _ hs).bind fun f hf => ?_
  cases f
  case done t =>
    have ht : t.mem.wf = true := hf
    dsimp only
    (repeat' split) <;> simp [ht]
  all_goals simpa using hf

@[simp] theorem parkWaitm_wf (s : State) (hs : s.mem.wf = true) : s.parkWaitm.mem.wf = true := by
  unfold State.parkWaitm
  split <;> simp [hs]

@[simp] theorem waitmBody_wf (q : WaitmReq) (s : State) (hs : s.mem.wf = true) :
    Yields (Fate.Canonical) (waitmBody q s) := by
  refine .step fun v => ?_
  dsimp only
  (repeat' split) <;> simp [hs]

@[simp] theorem wakeWatchers_mem (s : State) (sc : Scope) (l : Loc) : (s.wakeWatchers sc l).mem = s.mem := by
  refine foldl_mem _ (fun t x => ?_) _ _
  simp

@[simp] theorem signalBody_wf (f : Fmt) (sc : Scope) (sp : Space) (add : Bool) (ea b : Word) (s : State) (hs : s.mem.wf = true) :
    Yields (fun t => t.mem.wf = true) (signalBody f sc sp add ea b s) := by
  refine (settled_wf _ _ hs).bind fun t ht => .step fun old => ?_
  dsimp only
  split
  all_goals exact .step fun _ => (storeRun_wf _ _ _ _ _ ht).bind fun _ hu => by simp [hu]

/-! The operations of Machine/Context.lean. -/

@[simp] theorem newCtx_mem (s : State) (part : BitVec 6) (die : BitVec 2) (attr seed : Word) : (s.newCtx part die attr seed).1.mem = s.mem := by
  unfold State.newCtx
  (repeat' split) <;> rfl

@[simp] theorem ctxnewBody_wf (d : SReg) (attr seed : Word) (s : State) (hs : s.mem.wf = true) :
    Yields (fun t => t.mem.wf = true) (ctxnewBody d attr seed s) := by
  unfold ctxnewBody
  exact .unless (.unless (by simp [hs]))

@[simp] theorem ctxfreeBody_wf (v : Word) (s : State) (hs : s.mem.wf = true) :
    Yields (fun t => t.mem.wf = true) (ctxfreeBody v s) := by
  unfold ctxfreeBody
  refine .unless (.step fun c => .unless ?_)
  dsimp only
  split <;> simp [hs]

@[simp] theorem ctxqBody_wf (d : SReg) (v : Word) (k : Fin 7) (s : State) (hs : s.mem.wf = true) :
    Yields (fun t => t.mem.wf = true) (ctxqBody d v k s) :=
  .step fun _ => by simpa using hs

@[simp] theorem kick_mem (s : State) (h : BitVec 32) : (s.kick h).mem = s.mem := by
  unfold State.kick
  split <;> simp

@[simp] theorem setPrio_mem (s : State) (c : Ctx) (p : BitVec 3) : (s.setPrio c p).mem = s.mem := by simp [State.setPrio]

@[simp] theorem setCtxField_mem (s : State) (c : Ctx) (k : BitVec 3) (b : Word) : (s.setCtxField c k b).mem = s.mem := by
  unfold State.setCtxField
  split <;> simp

@[simp] theorem ctxsetBody_wf (v b : Word) (k : BitVec 3) (s : State) (hs : s.mem.wf = true) :
    Yields (fun t => t.mem.wf = true) (ctxsetBody v b k s) :=
  .step fun _ => by simp [hs]

@[simp] theorem wakeatBody_mem (inn : Bool) (b : Word) (s : State) : (wakeatBody inn b s).mem = s.mem := by
  unfold wakeatBody
  split <;> rfl

@[simp] theorem setWait_mem (s : State) (x : Option Wait) : (s.setWait x).mem = s.mem := rfl

@[simp] theorem gangGoOn_mem (s : State) (ids : List (BitVec 10)) (v : Word) : (s.gangGoOn ids v).mem = s.mem := by
  refine foldl_mem _ (fun t x => ?_) _ _
  simp

@[simp] theorem gangOwe_mem (s : State) (ids : List (BitVec 10)) (v : Word) : (s.gangOwe ids v).mem = s.mem := by
  refine foldl_mem _ (fun t x => ?_) _ _
  simp

@[simp] theorem actCswap_wf (s : State) (c : Ctx) (ids : List (BitVec 10)) (hs : s.mem.wf = true) : (s.actCswap c ids).Canonical := by
  unfold State.actCswap
  split
  · simp [hs]
  · split
    · simp [hs]
    · split
      · exact hs
      · exact foldl_wf _ (fun t x ht => placeCtx_wf _ _ _ ht) _ _ (by simp [hs])

@[simp] theorem actYield_wf (s : State) (c : Ctx) (ids : List (BitVec 10)) (hs : s.mem.wf = true) : (s.actYield c ids).Canonical := by
  unfold State.actYield
  split <;> simp [hs]

@[simp] theorem actPark_wf (s : State) (c : Ctx) (ids : List (BitVec 10)) (mask : BitVec 3) (hs : s.mem.wf = true) :
    (s.actPark c ids mask).Canonical := by
  unfold State.actPark
  dsimp only
  split <;> simp [hs]

@[simp] theorem collectiveBody_wf (k : Collective) (d : SReg) (s : State) (hs : s.mem.wf = true) :
    Yields (Fate.Canonical) (collectiveBody k d s) := by
  refine .step fun _ => ?_
  split
  · simpa using hs
  · split
    · simpa using hs
    · refine (settled_wf _ _ hs).bind fun t ht => ?_
      dsimp only
      (repeat' split) <;> simp [ht]

@[simp] theorem putQueue_mem (s : State) (q : Nat) (x : HostQueue) : (s.putQueue q x).mem = s.mem := rfl

@[simp] theorem launchBody_wf (d : SReg) (a b : Word) (s : State) (hs : s.mem.wf = true) :
    Yields (fun t => t.mem.wf = true) (launchBody d a b s) := by
  unfold launchBody
  dsimp only
  split
  · simpa using hs
  · refine (settled_wf _ _ hs).bind fun t ht => .step fun bs => ?_
    split
    · simpa using ht
    · exact .step fun _ => (storeVirt_wf _ _ _ _ (by simpa using ht)).bind fun u hu => by simpa using hu

/-! The operations of Machine/HostQueue.lean. -/

@[simp] theorem writeQtail_mem (s : State) (q : Nat) (v : BitVec 32) : (s.writeQtail q v).mem = s.mem := by simp [State.writeQtail]

@[simp] theorem enableQueue_mem (s : State) (q : Nat) (log2n : BitVec 5) (part : BitVec 6) : (s.enableQueue q log2n part).mem = s.mem := by
  simp [State.enableQueue]

@[simp] theorem writeQctl_mem (s : State) (q : Nat) (v : Word) : (s.writeQctl q v).mem = s.mem := by simp [State.writeQctl]

@[simp] theorem noteSteward_mem (s : State) (part : BitVec 6) (d : Nat) (xs : List (Nat × Nat)) : (s.noteSteward part d xs).mem = s.mem := by
  refine foldl_mem _ (fun t x => ?_) _ _
  split <;> simp

@[simp] theorem noteAbsent_mem (s : State) (d : Nat) (st : Stop) : (s.noteAbsent d st).mem = s.mem := by
  unfold State.noteAbsent
  split <;> simp

theorem stewardWait_mem (s t : State) (part : BitVec 6) (st : Stop) (h : s.stewardWait part st = some t) : t.mem = s.mem := by
  cases st <;> simp [State.stewardWait] at h <;> subst h <;> simp

@[simp] theorem finishCur_mem (s : State) (q : Nat) : (s.finishCur q).mem = s.mem := rfl

@[simp] theorem completeCur_wf (s : State) (q : Nat) (l : Launch) (h : BitVec 32) (status : Nat) (hs : s.mem.wf = true) :
    (s.completeCur q l h status).mem.wf = true := by
  simp [State.completeCur, hs]

@[simp] theorem acceptRecord_wf (s : State) (q : Nat) (hs : s.mem.wf = true) : (s.acceptRecord q).mem.wf = true := by
  unfold State.acceptRecord
  dsimp only
  split
  · exact hs
  · split
    · split
      · rename_i t ht
        rw [stewardWait_mem _ _ _ _ ht]
        exact hs
      · simp [hs]
    · split <;> simp [hs]

/-- The state that the look at a TASK record leaves. -/
def TaskLook.state (r : TaskLook) : State :=
  match r with
  | .wait s | .fail s _ | .start s _ => s

theorem lookTask_mem (s : State) (part : BitVec 6) (d : Nat) (l : Launch) : (s.lookTask part d l).state.mem = s.mem := by
  have failed (t : State) (st : Stop) (ht : t.mem = s.mem) :
      (match s.stewardWait part st with | some w => TaskLook.wait w | none => .fail (t.noteAbsent d st) 8).state.mem = s.mem := by
    split
    · exact stewardWait_mem _ _ _ _ ‹_›
    · simpa [TaskLook.state] using ht
  unfold State.lookTask
  dsimp only
  split
  · rfl
  · split
    · rfl
    · split
      · rfl
      · split
        · exact failed _ _ rfl
        · split
          · exact failed _ _ (noteSteward_mem _ _ _ _)
          · split <;> simp [TaskLook.state]

@[simp] theorem startTask_mem (s : State) (h : BitVec 32) (t : Task) (e : KernelEntry) : (s.startTask h t e).mem = s.mem := by simp [State.startTask]

@[simp] theorem taskStart_wf (s : State) (q : Nat) (hs : s.mem.wf = true) : (s.taskStart q).mem.wf = true := by
  unfold State.taskStart
  split
  · exact hs
  · split
    · exact hs
    · dsimp only
      have hl := lookTask_mem s (s.queueAt q).part (queueDie q) ‹_›
      split <;> rename_i hr <;> rw [hr] at hl <;> simp_all [TaskLook.state]

@[simp] theorem createRecord_wf (s : State) (q : Nat) (hs : s.mem.wf = true) : (s.createRecord q).mem.wf = true := by
  unfold State.createRecord
  split
  · exact hs
  · dsimp only
    simp [hs]

@[simp] theorem freeRecord_wf (s : State) (q : Nat) (hs : s.mem.wf = true) : (s.freeRecord q).mem.wf = true := by
  unfold State.freeRecord
  dsimp only
  (repeat' split) <;> simp [hs]

@[simp] theorem graphStart_wf (s : State) (q : Nat) (hs : s.mem.wf = true) : (s.graphStart q).mem.wf = true := by
  have failed (t : State) (st : Stop) (p : BitVec 6) (d : Nat) (l : Launch) (ht : t.mem.wf = true) :
      (match s.stewardWait p st with | some w => w | none => (t.noteAbsent d st).completeCur q l 0 8).mem.wf = true := by
    split
    · rw [stewardWait_mem _ _ _ _ ‹_›]
      exact hs
    · simp [ht]
  unfold State.graphStart
  split
  · exact hs
  · split
    · exact hs
    · dsimp only
      split
      · exact failed _ _ _ _ _ hs
      · split
        · exact failed _ _ _ _ _ (by simpa using hs)
        · split <;> simp [hs]

@[simp] theorem setNode_mem (s : State) (gid n : Nat) (st : NodeState) : (s.setNode gid n st).mem = s.mem := rfl

@[simp] theorem graphNodeStart_wf (s : State) (gid n : Nat) (hs : s.mem.wf = true) : (s.graphNodeStart gid n).mem.wf = true := by
  unfold State.graphNodeStart
  split
  · exact hs
  · split
    · exact hs
    · split
      · dsimp only
        split
        · simp [hs]
        · split
          · exact hs
          · split
            · simp [hs]
            · split
              · exact hs
              · have hl := lookTask_mem s ‹Graph›.part (queueDie ‹Graph›.queue) ‹Launch›
                split <;> rename_i hr <;> rw [hr] at hl <;> simp_all [TaskLook.state]
      · exact hs

@[simp] theorem taskComplete_wf (s : State) (h : BitVec 32) (hs : s.mem.wf = true) : (s.taskComplete h).mem.wf = true := by
  unfold State.taskComplete
  split <;> simp [hs]

@[simp] theorem completionWrite_wf (s : State) (i : Nat) (hs : s.mem.wf = true) : (s.completionWrite i).mem.wf = true := by
  unfold State.completionWrite
  split <;> simp [hs]

@[simp] theorem failTransfer_wf (s : State) (c : Ctx) (own far : Nat) (hs : s.mem.wf = true) : (s.failTransfer c own far).mem.wf = true := by
  simp [State.failTransfer, hs]

@[simp] theorem commitImage_mem (s : State) (h : BitVec 32) (ps : List (Nat × Nat × Option Nat)) : (s.commitImage h ps).mem = s.mem := rfl

@[simp] theorem preemptNext_wf (s : State) (slice : Bool) (d : Nat) (hs : s.mem.wf = true) : (s.preemptNext slice d).mem.wf = true := by
  unfold State.preemptNext
  split
  · exact hs
  · exact foldl_wf _ (fun t v ht => leave_wf _ _ ht) _ _ hs

theorem imageGrant_mem (s t : State) (d : Nat) (p : BitVec 6) (h : s.imageGrant d = some (p, t)) : t.mem = s.mem := by
  unfold State.imageGrant at h
  obtain ⟨r, _, hr⟩ := Option.map_eq_some_iff.1 h
  cases hr
  rfl

@[simp] theorem placeNext_wf (s : State) (d : Nat) (hs : s.mem.wf = true) : (s.placeNext d).mem.wf = true := by
  unfold State.placeNext
  split
  · exact hs
  · split
    · exact hs
    · simp [hs]
    · split
      · exact hs
      · rename_i t hg
        have ht : t.mem.wf = true := by rwa [imageGrant_mem _ _ _ _ hg]
        simp [hs, ht]

theorem nextStandby_mem (s t : State) (d : Nat) (c : Ctx) (b : BitVec 10) (h : s.nextStandby d = some (c, b, t)) : t.mem = s.mem := by
  unfold State.nextStandby at h
  split at h
  · cases h
  · rename_i hg
    obtain ⟨r, _, hr⟩ := Option.map_eq_some_iff.1 h
    cases hr
    exact imageGrant_mem _ _ _ _ hg

@[simp] theorem standbyLoad_wf (s : State) (d : Nat) (hs : s.mem.wf = true) : (s.standbyLoad d).mem.wf = true := by
  unfold State.standbyLoad
  split
  · exact hs
  · split
    · exact hs
    · rename_i c b t hn
      have ht : t.mem.wf = true := by rwa [nextStandby_mem _ _ _ _ _ hn]
      dsimp only
      split
      · simp [ht]
      · refine foldl_wf _ (fun u id hu => by simpa using hu) _ _ ?_
        exact foldl_wf _ (fun u h hu => by simpa using hu) _ _ (by simp [ht])

@[simp] theorem standbyDone_wf (s : State) (h : BitVec 32) (hs : s.mem.wf = true) : (s.standbyDone h).mem.wf = true := by
  unfold State.standbyDone
  split <;> simp [hs]

@[simp] theorem swapOut_mem (s : State) (h : BitVec 32) : (s.swapOut h).mem = s.mem := by
  unfold State.swapOut
  split
  · rfl
  · split
    · split
      · rename_i hg _
        split
        · simpa using imageGrant_mem _ _ _ _ hg
        · rfl
      · rfl
    · rfl

@[simp] theorem swapOutDone_wf (s : State) (h : BitVec 32) (hs : s.mem.wf = true) : (s.swapOutDone h).mem.wf = true := by
  unfold State.swapOutDone
  (repeat' split) <;> simp [hs]

@[simp] theorem wakeTime_mem (s : State) (h : BitVec 32) : (s.wakeTime h).mem = s.mem := by
  unfold State.wakeTime
  split <;> simp

@[simp] theorem ifHost_mem (s t : State) (h : t.mem = s.mem) : (s.ifHost t).mem = s.mem := by simp [State.ifHost, h]

@[simp] theorem ifHost_wf (s t : State) (hs : s.mem.wf = true) (ht : t.mem.wf = true) : (s.ifHost t).mem.wf = true := by
  simp [State.ifHost, hs, ht]

@[simp] theorem ifUp_wf (s : State) (d : Nat) (t : State) (hs : s.mem.wf = true) (ht : t.mem.wf = true) : (s.ifUp d t).mem.wf = true := by
  simp [State.ifUp, hs, ht]

/-! The operations of Machine/Residency.lean. -/

@[simp] theorem beginMove_mem (s : State) (m : Move) (p : Page) (x : Spot) : (s.beginMove m p x).mem = s.mem := by simp [State.beginMove]

@[simp] theorem moveStart_wf (s : State) (d : BitVec 2) (hs : s.mem.wf = true) : (s.moveStart d).mem.wf = true := by
  have ha : s.settleAll.mem.wf = true := settleAll_wf s hs
  unfold State.moveStart
  generalize s.settleAll = t at ha
  dsimp only
  split
  · exact ha
  · split
    · exact ha
    · split
      · rw [beginMove_mem]
        exact ha
      · exact ha

@[simp] theorem landed_mem (s : State) (p : Page) : (s.landed p).mem = s.mem := by simp [State.landed]

@[simp] theorem finishGone_mem (s : State) (p : Page) : (s.finishGone p).mem = s.mem := by
  unfold State.finishGone
  split <;> simp

@[simp] theorem putPage_mem (s : State) (p : Page) : (s.putPage p).mem = s.mem := rfl

@[simp] theorem undoMove_mem (s : State) (m : Move) (p : Page) : (s.undoMove m p).mem = s.mem := by simp [State.undoMove]

@[simp] theorem endMove_wf (s : State) (m : Move) (p : Page) (hs : s.mem.wf = true) : (s.endMove m p).mem.wf = true := by
  simp [State.endMove, wf_place, hs]

@[simp] theorem moveComplete_wf (s : State) (part : BitVec 6) (va : Nat) (hs : s.mem.wf = true) : (s.moveComplete part va).mem.wf = true := by
  unfold State.moveComplete
  split <;> simp [hs]

@[simp] theorem breakPaths_mem (s : State) (lost : Nat × Nat × Option Nat → Bool) : (s.breakPaths lost).mem = s.mem := by
  refine foldl_mem _ (fun t x => ?_) _ _
  simp

@[simp] theorem breakEnds_mem (s : State) (d : Nat) : (s.breakEnds d).mem = s.mem := by
  refine foldl_mem _ (fun t x => ?_) _ _
  simp

@[simp] theorem clearEngine_mem (s : State) (d : Nat) : (s.clearEngine d).mem = s.mem := by
  refine foldl_mem _ (fun t x => ?_) _ _
  split <;> simp

@[simp] theorem loseVault_mem (s : State) (d : Nat) : (s.loseVault d).mem = s.mem := by
  unfold State.loseVault
  dsimp only
  refine foldl_mem _ (fun t p => ?_) _ _
  (repeat' split) <;> simp

@[simp] theorem demote_mem (s : State) (d : BitVec 2) (part : BitVec 6) (hbm : Bool) : (s.demote d part hbm).mem = s.mem := by
  unfold State.demote
  dsimp only
  (repeat' split) <;> simp

@[simp] theorem wakeRecall_mem (s : State) (h : BitVec 32) : (s.wakeRecall h).mem = s.mem := by
  unfold State.wakeRecall
  split
  · rfl
  · dsimp only
    split
    · rfl
    · exact foldl_mem _ (fun t p => by simp) _ _

@[simp] theorem hotPromote_mem (s : State) (part : BitVec 6) (va : Nat) : (s.hotPromote part va).mem = s.mem := by
  unfold State.hotPromote
  (repeat' split) <;> simp

@[simp] theorem hotExpire_mem (s : State) (d : BitVec 2) : (s.hotExpire d).mem = s.mem := by simp [State.hotExpire]

@[simp] theorem compact_mem (s : State) (d : BitVec 2) (pa : Nat) : (s.compact d pa).mem = s.mem := by
  unfold State.compact
  dsimp only
  (repeat' split) <;> simp

theorem quiet_wf (s : State) (hs : s.mem.wf = true) :
    Yields (fun t => t.mem.wf = true) (s.quiet) := by
  unfold State.quiet
  split
  · split
    · exact settled_wf _ _ hs
    · dsimp only
      split
      · simp
      · exact (yields_ok _).2 (foldl_wf _ (fun _ _ => onCore_wf _ _ _ (fun _ => settleWrites_wf _ _)) _ _ hs)
  · exact settled_wf _ _ hs

theorem flushPages_wf (s : State) (ps : List Page) (hs : s.mem.wf = true) :
    Yields (fun t => t.mem.wf = true) (s.flushPages ps) := by
  unfold State.flushPages
  dsimp only
  split <;> simp [hs]

@[simp] theorem grantBody_wf (d : SReg) (a : Word) (n : Nat) (s : State) (hs : s.mem.wf = true) :
    Yields (fun t => t.mem.wf = true) (grantBody d a n s) := by
  unfold grantBody
  exact .unless (.step fun _ => by simpa [foldl_mem] using hs)

@[simp] theorem pgmapBody_wf (d : SReg) (a b owner : Word) (s : State) (hs : s.mem.wf = true) :
    Yields (fun t => t.mem.wf = true) (pgmapBody d a b owner s) := by
  refine .step fun _ => (quiet_wf _ hs).bind fun t ht => ?_
  dsimp only
  split
  · simpa using ht
  · split
    · exact grantBody_wf _ _ _ _ ht
    · exact .step fun _ => .step fun _ => .unless (.step fun _ => .step fun _ => by simp [ht])

@[simp] theorem pgunmapBody_wf (d : SReg) (a : Word) (s : State) (hs : s.mem.wf = true) :
    Yields (fun t => t.mem.wf = true) (pgunmapBody d a s) := by
  refine .step fun _ => (quiet_wf _ hs).bind fun t ht => .step fun p => ?_
  dsimp only
  split
  · simpa using ht
  · split
    · simpa using ht
    · split
      · simpa using ht
      · refine .step fun _ => ?_
        split
        · simpa using ht
        · exact (flushPages_wf _ _ ht).bind fun u hu => by simpa using hu

@[simp] theorem pgungrantBody_wf (d : SReg) (a : Word) (n : Nat) (s : State) (hs : s.mem.wf = true) :
    Yields (Fate.Canonical) (pgungrantBody d a n s) := by
  refine .step fun _ => (quiet_wf _ hs).bind fun t ht => .step fun fs => ?_
  dsimp only
  split
  · simpa [foldl_mem] using ht
  · simpa [foldl_mem] using ht

@[simp] theorem pgpinBody_wf (d : SReg) (a : Word) (s : State) (hs : s.mem.wf = true) :
    Yields (fun t => t.mem.wf = true) (pgpinBody d a s) :=
  (quiet_wf _ hs).bind fun t ht => .step fun _ => by simp [ht]

@[simp] theorem pgunpinBody_wf (d : SReg) (a : Word) (s : State) (hs : s.mem.wf = true) :
    Yields (fun t => t.mem.wf = true) (pgunpinBody d a s) :=
  (quiet_wf _ hs).bind fun t ht => .step fun _ => by simp [ht]

@[simp] theorem pgmoveBody_wf (d : SReg) (a : Word) (k : Fin 3) (s : State) (hs : s.mem.wf = true) :
    Yields (fun t => t.mem.wf = true) (pgmoveBody d a k s) := by
  refine (quiet_wf _ hs).bind fun t ht => .step fun p => ?_
  split <;> simp [ht]

@[simp] theorem hintPage_mem (s : State) (p : Page) (k : Nat) : (s.hintPage p k).1.mem = s.mem := by
  unfold State.hintPage
  split <;> (repeat' split) <;> simp

@[simp] theorem pghintBody_wf (d : SReg) (a : Word) (k : Fin 6) (s : State) (hs : s.mem.wf = true) :
    Yields (fun t => t.mem.wf = true) (pghintBody d a k s) := by
  refine (quiet_wf _ hs).bind fun t ht => ?_
  dsimp only
  split
  · simpa using ht
  · refine .step fun p => ?_
    split
    · simpa using ht
    · split
      · simpa using ht
      · exact .unless (by simpa using ht)

@[simp] theorem kvallocBody_wf (d : SReg) (a b : Word) (s : State) (hs : s.mem.wf = true) :
    Yields (fun t => t.mem.wf = true) (kvallocBody d a b s) := by
  refine (quiet_wf _ hs).bind fun t ht => ?_
  exact .unless (.unless (.step fun _ => .step fun _ => by simp [ht]))

@[simp] theorem freeKv_mem (s : State) (whole : Bool) (p : Page) : (s.freeKv whole p).mem = s.mem := by
  unfold State.freeKv
  dsimp only
  (repeat' split) <;> simp

@[simp] theorem kvfreeBody_wf (unmap : Bool) (d : SReg) (a b : Word) (s : State) (hs : s.mem.wf = true) :
    Yields (fun t => t.mem.wf = true) (kvfreeBody unmap d a b s) := by
  refine (quiet_wf _ hs).bind fun t ht => ?_
  dsimp only
  refine .unless (.step fun _ => ?_)
  split
  · simp
  · refine .step fun _ => ?_
    split
    · simp
    · refine .step fun _ => (flushPages_wf _ _ ht).bind fun u hu => ?_
      split <;> simpa [foldl_mem] using hu

@[simp] theorem noteReads_mem (s : State) (xs : List (Nat × Nat)) : (s.noteReads xs).mem = s.mem := by
  refine foldl_mem _ (fun t x => ?_) _ _
  simp

theorem deviceWrite_wf (s : State) (va : Nat) (bs : List Byte) (hs : s.mem.wf = true) :
    Yields (fun t => t.mem.wf = true) (s.deviceWrite va bs) := by
  refine .step fun parts => ?_
  have hr : (parts.foldl (fun t x => match x.1 with | .mem pa => t.snoop pa x.2 | _ => t) s).mem = s.mem :=
    foldl_mem _ (fun t x => by split <;> simp) _ _
  simpa [storeParts_wf, hr] using storeParts_wf _ _ _ (hr ▸ hs)

theorem journalRec_wf (s : State) (type a : Nat) (hs : s.mem.wf = true) :
    Yields (fun t => t.mem.wf = true) (s.journalRec type a) := by
  unfold State.journalRec
  split
  · simpa using hs
  · split
    · simpa using hs
    · exact .join (yields_true _) (yields_true _) fun _ _ => (journalAppend_wf _ _ _ _ _ _ hs).bind fun r hr => by simpa using hr

theorem recordedWrite_wf (s : State) (va : Nat) (bs : List Byte) (hs : s.mem.wf = true) :
    Yields (fun t => t.mem.wf = true) (s.recordedWrite va bs) := by
  exact (foldlM_wf _ (fun t i ht => journalRec_wf _ _ _ ht) _ _ hs).bind fun t ht => deviceWrite_wf _ _ _ ht

theorem takePage_wf (s : State) (r : Region) (entry : Nat) (hs : s.mem.wf = true) :
    Yields (fun t => t.mem.wf = true) (s.takePage r entry) := by
  unfold State.takePage
  dsimp only
  split
  · exact .step fun _ => .unless ((journalRec_wf _ _ _ hs).bind fun t ht => recordedWrite_wf _ _ _ (by simp [wf_clear, ht]))
  · simpa using hs

theorem setValid_wf (s : State) (q : SeqDesc) (lo hi : Nat) (hs : s.mem.wf = true) :
    Yields (fun t => t.mem.wf = true) (s.setValid q lo hi) := by
  exact foldlM_wf _ (fun t a ht => .step fun old => recordedWrite_wf _ _ _ ht) _ _ hs

theorem appendPass2_wf (es : List (SeqDesc × Nat)) (lens : List (Nat × Nat)) (served : Nat) (s : State) (hs : s.mem.wf = true) :
    Yields (fun r => r.1.mem.wf = true) (s.appendPass2 es lens served) := by
  induction es generalizing s lens served with
  | nil => simpa [State.appendPass2] using hs
  | cons e es ih =>
    obtain ⟨q, add⟩ := e
    rw [State.appendPass2]
    dsimp only
    split
    · simpa using hs
    · split
      · simpa using hs
      · split
        · simpa using hs
        · refine (foldlM_wf _ (fun t m ht => takePage_wf _ _ _ ht) _ _ hs).bind fun t ht => ?_
          refine .join ((yields_pure _).2 ht) (setValid_wf _ _ _ _ ht) fun u hu => ?_
          exact .join ((yields_pure _).2 hu) (recordedWrite_wf _ _ _ hu) fun v hv => ih _ _ _ hv

@[simp] theorem kvappendBody_wf (d : SReg) (a : Word) (s : State) (hs : s.mem.wf = true) :
    Yields (fun t => t.mem.wf = true) (kvappendBody d a s) := by
  refine (quiet_wf _ hs).bind fun t ht => ?_
  refine .unless (.step fun _ => .unless (.step fun _ => .unless (.step fun _ => .step fun _ => ?_)))
  refine (appendPass2_wf _ _ _ _ (by simpa using ht)).bind fun r hr => ?_
  dsimp only
  split <;> simpa using hr

@[simp] theorem kvinvalBody_wf (z : Bool) (d : SReg) (a b : Word) (s : State) (hs : s.mem.wf = true) :
    Yields (fun t => t.mem.wf = true) (kvinvalBody z d a b s) := by
  refine (quiet_wf _ hs).bind fun t ht => .step fun q => ?_
  refine .unless (.step fun _ => .step fun _ => .step fun _ => ?_)
  dsimp only
  refine .join (yields_true _) (yields_true _) fun es _ => .step fun _ => .step fun _ => .unless ?_
  refine Yields.bind (R := fun t => t.mem.wf = true) (foldlM_wf _ (fun u x hu => ?_) _ _ (by simpa using ht)) fun u hu => by simpa using hu
  split
  · simpa using hu
  · refine (journalRec_wf _ _ _ hu).bind fun v hv => .step fun _ => (deviceWrite_wf _ _ _ hv).bind fun w hw => ?_
    exact foldlM_wf _ (fun x y hx => (journalRun_wf _ _ _ hx).bind fun y hy => deviceWrite_wf _ _ _ hy) _ _ hw

@[simp] theorem setJournal_mem (s : State) (j : Option Journal) : (s.setJournal j).mem = s.mem := by
  unfold State.setJournal
  split <;> rfl

@[simp] theorem jbeginBody_wf (a b : Word) (s : State) (hs : s.mem.wf = true) :
    Yields (fun t => t.mem.wf = true) (jbeginBody a b s) := by
  refine (quiet_wf _ hs).bind fun t ht => ?_
  refine .unless (.unless (.step fun _ => .unless (.step fun _ => ?_)))
  split
  · simp
  · simpa using ht

@[simp] theorem jcommitBody_wf (d : SReg) (s : State) (hs : s.mem.wf = true) :
    Yields (fun t => t.mem.wf = true) (jcommitBody d s) := by
  refine (quiet_wf _ hs).bind fun t ht => ?_
  split
  · simp
  · simpa using ht

theorem replay_wf (s : State) (buf : Nat) (r : Nat × Nat) (hs : s.mem.wf = true) :
    Yields (fun t => t.mem.wf = true) (s.replay buf r) := by
  refine .step fun a => ?_
  dsimp only
  split
  · exact .step fun _ => deviceWrite_wf _ _ _ (by simpa using hs)
  · exact .step fun _ => deviceWrite_wf _ _ _ (by simpa using hs)
  · refine .step fun p => ?_
    split
    · exact (flushPages_wf _ _ (by simpa using hs)).bind fun t ht => by simpa using ht
    · simpa using hs

@[simp] theorem jrewindBody_wf (d : SReg) (s : State) (hs : s.mem.wf = true) :
    Yields (Fate.Canonical) (jrewindBody d s) := by
  refine (quiet_wf _ hs).bind fun t ht => ?_
  split
  · simp
  · refine .step fun _ => ?_
    split
    · simpa using ht
    · exact (foldlM_wf _ (fun u r hu => replay_wf _ _ _ hu) _ _ ht).bind fun u hu => by simpa using hu

/-! The operations of Machine/MemStack.lean. -/

@[simp] theorem putStack_mem (s : State) (k : Nat) (x : Stack) : (s.putStack k x).mem = s.mem := rfl

@[simp] theorem putPc_mem (s : State) (x : PseudoChannel) : (s.putPc x).mem = s.mem := rfl

@[simp] theorem refreshDue_mem (s : State) (k pc : Nat) (progress busy : Bool) : (s.refreshDue k pc progress busy).mem = s.mem := by
  simp [State.refreshDue]

@[simp] theorem refreshStart_mem (s : State) (k pc bank : Nat) : (s.refreshStart k pc bank).mem = s.mem := by
  unfold State.refreshStart
  dsimp only
  split <;> rfl

@[simp] theorem refreshEnd_mem (s : State) (k pc bank : Nat) : (s.refreshEnd k pc bank).mem = s.mem := by
  unfold State.refreshEnd
  dsimp only
  split <;> simp

@[simp] theorem paybackStart_mem (s : State) (k pc : Nat) (idle : BitVec 8) : (s.paybackStart k pc idle).mem = s.mem := by
  unfold State.paybackStart
  dsimp only
  (repeat' split) <;> simp

@[simp] theorem allbankStart_mem (s : State) (k pc : Nat) : (s.allbankStart k pc).mem = s.mem := by simp [State.allbankStart]

@[simp] theorem allbankEnd_mem (s : State) (k pc : Nat) : (s.allbankEnd k pc).mem = s.mem := by simp [State.allbankEnd]

@[simp] theorem mapPcs_mem (s : State) (k : Nat) (f : PseudoChannel → PseudoChannel) : (s.mapPcs k f).mem = s.mem := rfl

@[simp] theorem criticalAssert_wf (s : State) (k : Nat) (hs : s.mem.wf = true) : (s.criticalAssert k).mem.wf = true := by
  unfold State.criticalAssert
  dsimp only
  split
  · exact foldl_wf _ (fun t h ht => holdOn_wf _ _ _ ht) _ _ (by simpa using hs)
  · simpa using hs

@[simp] theorem selfrefEnter_mem (s : State) (k : Nat) : (s.selfrefEnter k).mem = s.mem := by simp [State.selfrefEnter]

@[simp] theorem criticalDeassert_mem (s : State) (k : Nat) : (s.criticalDeassert k).mem = s.mem := by simp [State.criticalDeassert]

@[simp] theorem selfrefExit_mem (s : State) (k : Nat) : (s.selfrefExit k).mem = s.mem := by simp [State.selfrefExit]

@[simp] theorem releaseStack_wf (s : State) (k : Nat) (hs : s.mem.wf = true) : (s.releaseStack k).mem.wf = true := by simp [State.releaseStack, hs]

@[simp] theorem exitComplete_wf (s : State) (k : Nat) (hs : s.mem.wf = true) : (s.exitComplete k).mem.wf = true := by simp [State.exitComplete, hs]

@[simp] theorem controllerUp_wf (s : State) (k : Nat) (hs : s.mem.wf = true) : (s.controllerUp k).mem.wf = true := by simp [State.controllerUp, hs]

@[simp] theorem memhintBody_wf (crit : Bool) (d : SReg) (a : Word) (s : State) (hs : s.mem.wf = true) :
    Yields (fun t => t.mem.wf = true) (memhintBody crit d a s) := by
  refine .step fun pa => ?_
  split <;> simp [hs]

@[simp] theorem memstat_mem (s : State) (pa k : Nat) : (s.memstat pa k).1.mem = s.mem := by
  unfold State.memstat
  dsimp only
  split <;> rfl

@[simp] theorem memstatBody_wf (d : SReg) (a : Word) (k : Fin 7) (s : State) (hs : s.mem.wf = true) :
    Yields (fun t => t.mem.wf = true) (memstatBody d a k s) := by
  refine .step fun pa => ?_
  split <;> simp [hs]

/-! The operations of Machine/Slate.lean. -/

@[simp] theorem slateReset_wf (s : State) (hs : s.mem.wf = true) : s.slateReset.mem.wf = true := by simp [State.slateReset, hs]

@[simp] theorem targetUpdate_wf (s : State) (hs : s.mem.wf = true) : s.targetUpdate.mem.wf = true := by
  unfold State.targetUpdate
  split <;> simp [hs]

@[simp] theorem stopTimeout_wf (s : State) (h : BitVec 32) (hs : s.mem.wf = true) : (s.stopTimeout h).mem.wf = true := by
  unfold State.stopTimeout
  split <;> simp [hs]

@[simp] theorem stopDone_wf (s : State) (hs : s.mem.wf = true) : s.stopDone.mem.wf = true := by simp [State.stopDone, hs]

@[simp] theorem copyDone_wf (s : State) (hs : s.mem.wf = true) : s.copyDone.mem.wf = true := by simp [State.copyDone, hs]

@[simp] theorem commitCut_wf (s : State) (hs : s.mem.wf = true) : s.commitCut.mem.wf = true := by
  unfold State.commitCut
  dsimp only
  split <;> simp [hs]

@[simp] theorem drainDone_wf (s : State) (hs : s.mem.wf = true) : s.drainDone.mem.wf = true := by simp [State.drainDone, hs]

theorem writeAreas_wf (s : State) (y : Snapshot) (hs : s.mem.wf = true) : (s.writeAreas y).wf = true := by
  unfold State.writeAreas
  generalize s.slateAreas y.enroll = areas
  generalize s.mem = m at hs
  induction areas generalizing m with
  | nil => exact hs
  | cons a areas ih => exact ih _ (wf_place _ _ _ _ hs)

@[simp] theorem restoreDone_wf (s : State) (hs : s.mem.wf = true) : s.restoreDone.mem.wf = true := by
  unfold State.restoreDone
  dsimp only
  split
  · exact hs
  · split
    · simpa using hs
    · rw [endRestore_mem, releaseHolds_mem]
      refine foldl_wf _ (fun t c ht => ?_) _ _ (writeAreas_wf _ _ hs)
      split <;> simp [ht]

@[simp] theorem spoil_mem (s : State) (u : Nat × Nat) : (s.spoil u).mem = s.mem := rfl

@[simp] theorem watchExpire_mem (s : State) : s.watchExpire.mem = s.mem := by simp [State.watchExpire]

@[simp] theorem slcutBody_wf (m : Bool) (d : SReg) (s : State) (hs : s.mem.wf = true) :
    Yields (Fate.Canonical) (slcutBody m d s) := by
  refine .step fun _ => ?_
  split
  · simpa using hs
  · split
    · simpa using hs
    · split
      · simpa using hs
      · refine (settled_wf _ _ hs).bind fun t ht => ?_
        dsimp only
        (repeat' split) <;> simp [ht]

@[simp] theorem slwaitBody_wf (d : SReg) (k : Fin 2) (s : State) (hs : s.mem.wf = true) :
    Yields (Fate.Canonical) (slwaitBody d k s) := by
  refine .step fun _ => ?_
  dsimp only
  (repeat' split) <;> simp [hs]

@[simp] theorem slcommitBody_wf (d : SReg) (b : Word) (s : State) (hs : s.mem.wf = true) :
    Yields (fun t => t.mem.wf = true) (slcommitBody d b s) :=
  .step fun _ => by simp [hs]

@[simp] theorem slrestoreBody_wf (d : SReg) (b : Word) (s : State) (hs : s.mem.wf = true) :
    Yields (Fate.Canonical) (slrestoreBody d b s) := by
  refine .step fun _ => ?_
  dsimp only
  (repeat' split) <;> simp [hs]

@[simp] theorem errwatchBody_wf (d : SReg) (b : Word) (k : Fin 7) (s : State) (hs : s.mem.wf = true) :
    Yields (fun t => t.mem.wf = true) (errwatchBody d b k s) := by
  simp [errwatchBody, hs]

/-! The operations of Machine/Link.lean. -/

@[simp] theorem mapMembers_mem (s : State) (f : Member → Member) : (s.mapMembers f).mem = s.mem := rfl

@[simp] theorem endRecast_mem (s : State) (g out : Nat) : (s.endRecast g out).mem = s.mem := rfl

@[simp] theorem podUpdate_mem (s : State) : s.podUpdate.mem = s.mem := by simp [State.podUpdate]

@[simp] theorem setGroup_wf (s : State) (g : Nat) (x : Group) (hs : s.mem.wf = true) : (s.setGroup g x).mem.wf = true := by simp [State.setGroup, hs]

@[simp] theorem mapLinks_mem (s : State) (g : Nat) (f : BitVec 6 → Nat → LinkReq → LinkReq) : (s.mapLinks g f).mem = s.mem := rfl

@[simp] theorem releaseGroup_wf (s : State) (g : Nat) (hs : s.mem.wf = true) : (s.releaseGroup g).mem.wf = true := by simp [State.releaseGroup, hs]

@[simp] theorem drained_wf (s : State) (g : Nat) (hs : s.mem.wf = true) : (s.drained g).mem.wf = true := by simp [State.drained, hs]

@[simp] theorem drainTimeout_mem (s : State) (g : Nat) : (s.drainTimeout g).mem = s.mem := by simp [State.drainTimeout]

@[simp] theorem retargeted_wf (s : State) (g : Nat) (hs : s.mem.wf = true) : (s.retargeted g).mem.wf = true := by simp [State.retargeted, hs]

@[simp] theorem trained_wf (s : State) (g : Nat) (hs : s.mem.wf = true) : (s.trained g).mem.wf = true := by simp [State.trained, hs]

@[simp] theorem trainFailed_wf (s : State) (g : Nat) (hs : s.mem.wf = true) : (s.trainFailed g).mem.wf = true := by simp [State.trainFailed, hs]

@[simp] theorem groupRequest_mem (s : State) (g : Nat) (write : Bool) : (s.groupRequest g write).mem = s.mem := by
  unfold State.groupRequest
  split <;> simp

@[simp] theorem breakGroup_mem (s : State) (g : Nat) : (s.breakGroup g).mem = s.mem := by
  refine foldl_mem _ (fun t x => ?_) _ _
  simp

@[simp] theorem groupReset_wf (s : State) (g : Nat) (hs : s.mem.wf = true) : (s.groupReset g).mem.wf = true := by simp [State.groupReset, hs]

@[simp] theorem losePaths_mem (s : State) (lost : Nat × Nat × Option Nat → Bool) : (s.losePaths lost).mem = s.mem := by
  unfold State.losePaths
  rw [breakPaths_mem]
  exact foldl_mem _ (fun t x => countIsland_mem _ _) _ _

@[simp] theorem acceptRecast_wf (s : State) (g : Nat) (p : Pers) (win : Option Window) (ue : Option (BitVec 6 × BitVec 32)) (tmo : Word)
    (hs : s.mem.wf = true) : (s.acceptRecast g p win ue tmo).mem.wf = true := by
  simp [State.acceptRecast, hs]

@[simp] theorem recastGoOn_wf (s : State) (d : SReg) (g : Nat) (out : Option Nat) (hs : s.mem.wf = true) : (s.recastGoOn d g out).Canonical := by
  unfold State.recastGoOn
  dsimp only
  (repeat' split) <;> simp [hs]

/-- What RECAST does with a window it accepts (R394, R397). -/
theorem acceptCase_wf (s : State) (p : Pers) (wt : Bool) (d : SReg) (g : Nat) (win : Option Window) (ue : Option (BitVec 6 × BitVec 32))
    (tmo : Word) (hs : s.mem.wf = true) :
    (if (s.group g).busy then Fate.done (s.writeS d 1)
      else if s.poolBusy g then .done (s.writeS d 2)
      else if !s.islandUp (dieOfGroup g) then .done (s.writeS d (Config.freeWord s.fresh))
      else if wt then .stay ((s.acceptRecast g p win ue tmo).setWait (some (.recast g none)))
      else .done ((s.acceptRecast g p win ue tmo).writeS d 0)).Canonical := by
  have h := acceptRecast_wf s g p win ue tmo hs
  simp [hs, h]

@[simp] theorem recastBody_wf (p : Pers) (wt : Bool) (d : SReg) (a b : Word) (s : State) (hs : s.mem.wf = true) :
    Yields (Fate.Canonical) (recastBody p wt d a b s) := by
  refine .step fun _ => .unless ?_
  split
  · exact (yields_pure _).2 (recastGoOn_wf _ _ _ _ hs)
  · have refuse (t : State) (v : Word) (ht : t.mem = s.mem) : (Fate.done (t.writeS d v)).Canonical := by simpa [ht] using hs
    refine .step fun _ => .ite ((yields_pure _).2 ?_) (.ite ((yields_pure _).2 (refuse _ _ rfl)) (.step fun bs => ?_))
    · split
      · exact acceptCase_wf s p _ _ _ _ _ _ hs
      · exact refuse _ _ rfl
    · have ht : (s.touchRead .virt b.toNat 32).mem = s.mem := touchRead_mem _ _ _ _
      refine .ite ((yields_pure _).2 (refuse _ _ ht)) (.ite ((yields_pure _).2 (refuse _ _ ht)) (.ite ((yields_pure _).2 ?_) ((yields_pure _).2 ?_)))
      · exact acceptCase_wf _ p _ _ _ _ _ _ (ht ▸ hs)
      · exact acceptCase_wf _ p _ _ _ _ _ _ (ht ▸ hs)

@[simp] theorem lnkstatBody_wf (d : SReg) (a : Word) (k : Fin 6) (s : State) (hs : s.mem.wf = true) :
    Yields (fun t => t.mem.wf = true) (lnkstatBody d a k s) := by
  unfold lnkstatBody
  (repeat' split) <;> simp [hs]

@[simp] theorem ristatBody_wf (d : SReg) (a : Word) (k : Fin 4) (s : State) (hs : s.mem.wf = true) :
    Yields (fun t => t.mem.wf = true) (ristatBody d a k s) := by
  unfold ristatBody
  (repeat' split) <;> simp [hs]

@[simp] theorem rmaBody_wf (fetch : Bool) (d : SReg) (a : Word) (s : State) (hs : s.mem.wf = true) :
    Yields (fun t => t.mem.wf = true) (rmaBody fetch d a s) := by
  unfold rmaBody
  refine .unless (.step fun _ => .unless ((settled_wf _ _ (by simpa using hs)).bind fun t ht => .step fun _ => ?_))
  dsimp only
  split
  · simpa using ht
  · refine .step fun _ => .step fun _ => .step fun _ => ?_
    split
    · simpa using ht
    · split
      · exact (journalRuns_wf _ _ _ ht).bind fun u hu => by simp [hu]
      · simpa using ht

@[simp] theorem ringGoOn_wf (s : State) (d : SReg) (since tmo : Word) (flag : Nat) (epoch step : BitVec 32) (timedOut : Bool) (hs : s.mem.wf = true) :
    Yields (Fate.Canonical) (s.ringGoOn d since tmo flag epoch step timedOut) :=
  .step fun _ => by simp [hs]

@[simp] theorem ringBody_wf (d : SReg) (a b : Word) (s : State) (hs : s.mem.wf = true) :
    Yields (Fate.Canonical) (ringBody d a b s) := by
  unfold ringBody
  split
  · exact ringGoOn_wf _ _ _ _ _ _ _ _ hs
  · refine .unless (.step fun _ => .unless (.unless (.step fun _ => (settled_wf _ _ (by simpa using hs)).bind fun t ht => ?_)))
    dsimp only
    split
    · split
      · simpa using ht
      · exact ringGoOn_wf _ _ _ _ _ _ _ _ ht
    · split <;> simp [ht]

@[simp] theorem ringTimeout_mem (s : State) (id : BitVec 10) : (s.ringTimeout id).mem = s.mem := by
  unfold State.ringTimeout
  dsimp only
  split <;> simp

@[simp] theorem writePodid_mem (s : State) (v : Word) : (s.writePodid v).mem = s.mem := by simp [State.writePodid]

@[simp] theorem timeMessage_mem (s : State) (t : Word) : (s.timeMessage t).mem = s.mem := by simp [State.timeMessage]

/-! The operations of Machine/System.lean. -/

@[simp] theorem scrubCore_wf (s : State) (id : BitVec 10) (part : BitVec 6) (hs : s.mem.wf = true) : (s.scrubCore id part).mem.wf = true := by
  unfold State.scrubCore
  dsimp only
  refine wf_clear _ _ _ ?_
  rw [writeBack_mem, foldl_mem _ (fun t x => ?_)]
  · exact hs
  · split <;> simp

@[simp] theorem switchOut_wf (s : State) (ids : List (BitVec 10)) (hs : s.mem.wf = true) : (s.switchOut ids).mem.wf = true := by
  refine foldl_wf _ (fun t x ht => ?_) _ _ hs
  simp [ht]

@[simp] theorem moveQuad_wf (s : State) (p : BitVec 6) (d : Fin 4) (gain : Bool) (n : Nat) (hs : s.mem.wf = true) :
    (s.moveQuad p d gain n).mem.wf = true := by
  unfold State.moveQuad
  dsimp only
  refine foldl_wf _ (fun t id ht => scrubCore_wf _ _ _ ht) _ _ ?_
  split
  · refine foldl_wf _ (fun t i ht => ?_) _ _ (switchOut_wf _ _ hs)
    split
    · exact ht
    · exact ht
  · exact switchOut_wf _ _ hs

@[simp] theorem writeQuads_wf (s : State) (p : BitVec 6) (d : Fin 4) (v : Word) (hs : s.mem.wf = true) : (s.writeQuads p d v).mem.wf = true := by
  refine foldl_wf _ (fun t x ht => ?_) _ _ hs
  simp [ht]

theorem writeField_wf (s t : State) (p : BitVec 6) (k : Fin 19) (v : Word) (h : s.writeField p k v = some t) (hs : s.mem.wf = true) :
    t.mem.wf = true := by
  unfold State.writeField at h
  dsimp only at h
  split at h
  · cases h
    exact writeQuads_wf _ _ _ _ hs
  · (repeat' split at h) <;> cases h <;> simpa using hs

@[simp] theorem abortRecs_mem (s : State) (rs : List BarRec) : (s.abortRecs rs).mem = s.mem := by
  refine foldl_mem _ (fun t x => ?_) _ _
  simp

@[simp] theorem resetCores_wf (s : State) (ids : List (BitVec 10)) (hs : s.mem.wf = true) : (s.resetCores ids).mem.wf = true := by
  unfold State.resetCores
  exact foldl_wf _ (fun t id ht => scrubCore_wf _ _ _ ht) _ _ (switchOut_wf _ _ (by simpa using hs))

@[simp] theorem clearChannels_mem (s : State) (inIt : Scope → Nat → Bool) : (s.clearChannels inIt).mem = s.mem := rfl

@[simp] theorem resetQuad_wf (s : State) (q : Nat) (hs : s.mem.wf = true) : (s.resetQuad q).mem.wf = true := by simp [State.resetQuad, hs]

@[simp] theorem stopQueue_mem (s : State) (q : Nat) : (s.stopQueue q).mem = s.mem := rfl

@[simp] theorem resetFields_mem (s : State) (p : BitVec 6) : (s.resetFields p).mem = s.mem := by
  unfold State.resetFields
  exact foldl_mem _ (fun t k => setPartField_mem _ _ _ _) _ _

@[simp] theorem resetPartition_wf (s : State) (p : BitVec 6) (hs : s.mem.wf = true) : (s.resetPartition p).mem.wf = true := by
  unfold State.resetPartition
  dsimp only
  rw [postError_mem, setPartField_mem]
  refine foldl_wf _ (fun t id ht => scrubCore_wf _ _ _ ht) _ _ ?_
  refine foldl_wf _ (fun t c ht => freeCtx_wf _ _ _ ht) _ _ ?_
  rw [foldl_mem _ (fun t q => stopQueue_mem _ _), abortRecs_mem, setPartField_mem, resetFields_mem]
  exact hs

@[simp] theorem dropMoves_mem (s : State) (d : Nat) : (s.dropMoves d).mem = s.mem := by
  unfold State.dropMoves
  dsimp only
  rw [foldl_mem _ (fun t m => ?_), breakEnds_mem]
  (repeat' split) <;> simp

@[simp] theorem setDie_mem (s : State) (d : Nat) (st : DieState) : (s.setDie d st).mem = s.mem := rfl

@[simp] theorem setReady_mem (s : State) (i : Nat) (v : Bool) : (s.setReady i v).mem = s.mem := rfl

@[simp] theorem loseDirty_wf (s : State) (d : Nat) (hs : s.mem.wf = true) : (s.loseDirty d).mem.wf = true := by
  refine foldl_wf _ (fun t c ht => foldl_wf _ (fun u x hu => ?_) _ _ ht) _ _ hs
  split
  · exact wf_splice _ _ _ (by simpa using hu)
  · exact hu

@[simp] theorem loseHeld_wf (s : State) (d : Nat) (hs : s.mem.wf = true) : (s.loseHeld d).mem.wf = true := by simp [State.loseHeld, hs]

@[simp] theorem settleDie_wf (s : State) (d : Nat) (hs : s.mem.wf = true) : (s.settleDie d).mem.wf = true :=
  foldl_wf _ (fun _ _ ht => onCore_wf _ _ _ (fun _ => settleStreams_wf _) ht) _ _ hs

@[simp] theorem resetDie_wf (s : State) (d : Nat) (hs : s.mem.wf = true) : (s.resetDie d).mem.wf = true := by
  unfold State.resetDie
  dsimp only
  refine slateReset_wf _ ?_
  rw [foldl_mem _ (fun t j => setReady_mem _ _ _)]
  refine wf_clear _ _ _ (wf_clear _ _ _ ?_)
  rw [clearChannels_mem, loseVault_mem]
  refine loseHeld_wf _ _ ?_
  rw [clearEngine_mem, dropMoves_mem]
  refine foldl_wf _ (fun t c ht => holdOn_wf _ _ _ ht) _ _ (foldl_wf _ (fun t c ht => freeCtx_wf _ _ _ ht) _ _ ?_)
  rw [setDie_mem]
  refine settleDie_wf _ _ (loseDirty_wf _ _ ?_)
  rw [abortRecs_mem]
  exact hs

@[simp] theorem setIsland_mem (s : State) (d : Nat) (x : Island) (bup : BitVec 4) : (s.setIsland d x bup).mem = s.mem := rfl

@[simp] theorem resetIsland_wf (s : State) (d : Nat) (hs : s.mem.wf = true) : (s.resetIsland d).mem.wf = true := by
  unfold State.resetIsland
  dsimp only
  rw [losePaths_mem]
  refine foldl_wf _ (fun t i ht => groupReset_wf _ _ ht) _ _ ?_
  rw [endRestore_mem]
  refine failCut_wf _ _ ?_
  rw [setReady_mem, setIsland_mem, abortRecs_mem]
  exact hs

@[simp] theorem packageReset_wf (s : State) : s.packageReset.mem.wf = true := rfl

@[simp] theorem heartbeat_wf (s : State) (d : Nat) (hs : s.mem.wf = true) : (s.heartbeat d).mem.wf = true := by simp [State.heartbeat, hs]

@[simp] theorem powerOff_wf (s : State) (d : Nat) (hs : s.mem.wf = true) : (s.powerOff d).mem.wf = true := by simp [State.powerOff, hs]

@[simp] theorem dieReady_mem (s : State) (d : Nat) : (s.dieReady d).mem = s.mem := by simp [State.dieReady]

@[simp] theorem boundaryDown_wf (s : State) (b : Nat) (hs : s.mem.wf = true) : (s.boundaryDown b).mem.wf = true := by simp [State.boundaryDown, hs]

@[simp] theorem pathBack_mem (s : State) : s.pathBack.mem = s.mem := by
  unfold State.pathBack
  rw [releaseLate_mem]
  exact foldl_mem _ (fun t d => releaseHolds_mem _ _) _ _

@[simp] theorem raiseBoundary_mem (s : State) (b : Nat) : (s.raiseBoundary b).mem = s.mem := by simp [State.raiseBoundary]

@[simp] theorem boundaryBack_mem (s : State) (b : Nat) : (s.boundaryBack b).mem = s.mem := by simp [State.boundaryBack]

@[simp] theorem islandReturn_mem (s : State) (d : Nat) : (s.islandReturn d).mem = s.mem := by simp [State.islandReturn]

@[simp] theorem functionReady_wf (s : State) (i : Nat) (hs : s.mem.wf = true) : (s.functionReady i).mem.wf = true := by
  simp [State.functionReady, hs]

@[simp] theorem hostField_wf (s : State) (p : BitVec 6) (k : Nat) (v : Word) (hs : s.mem.wf = true) : (s.hostField p k v).mem.wf = true := by
  unfold State.hostField
  split
  · cases h : s.writeField p ⟨k, ‹_›⟩ v with
    | none => exact hs
    | some t => exact writeField_wf _ _ _ _ _ h hs
  · exact hs

@[simp] theorem hostRegister_mem (s : State) (off : Nat) (v : Word) : (s.hostRegister off v).mem = s.mem := by
  unfold State.hostRegister
  (repeat' split) <;> simp

@[simp] theorem trapBody_wf (len : Nat) (b : Word) (s : State) (hs : s.mem.wf = true) :
    Yields (Fate.Canonical) (trapBody len b s) :=
  by simp [trapBody, hs]

@[simp] theorem eretBody_wf (s : State) (hs : s.mem.wf = true) :
    Yields (Fate.Canonical) (eretBody s) :=
  .step fun _ => by simp [hs]

@[simp] theorem scrubBody_wf (d : SReg) (a : Word) (s : State) (hs : s.mem.wf = true) : Yields (fun t => t.mem.wf = true) (scrubBody d a s) := by
  simp [scrubBody, hs]

@[simp] theorem partcfgBody_wf (len : Nat) (k : BitVec 5) (rd : Bool) (d : SReg) (a b : Word) (s : State) (hs : s.mem.wf = true) :
    Yields (Fate.Canonical) (partcfgBody len k rd d a b s) := by
  refine .step fun _ => .unless ?_
  dsimp only
  refine .unless ?_
  split
  · simpa using hs
  · refine .unless ?_
    split
    · simp
    · exact (yields_pure _).2 (writeField_wf _ _ _ _ _ ‹_› (by simpa using hs))

@[simp] theorem qoscfgBody_wf (rd : Bool) (d : SReg) (a b : Word) (s : State) (hs : s.mem.wf = true) :
    Yields (fun t => t.mem.wf = true) (qoscfgBody rd d a b s) := by
  unfold qoscfgBody
  split <;> simp [hs]

@[simp] theorem intpostBody_wf (b : Word) (s : State) (hs : s.mem.wf = true) :
    Yields (fun t => t.mem.wf = true) (intpostBody b s) := by
  refine .step fun _ => .unless ((settled_wf _ _ hs).bind fun t ht => by simpa using ht)

theorem resetdomCores_wf (s : State) (d : SReg) (ids : List (BitVec 10)) (go : State → State) (hgo : ∀ t, t.mem.wf = true → (go t).mem.wf = true)
    (hs : s.mem.wf = true) : (s.resetdomCores d ids go).Canonical := by
  unfold State.resetdomCores
  split
  · simpa using hs
  · split
    · simpa using hs
    · exact hgo _ (by simpa using hs)

@[simp] theorem resetdomBody_wf (d : SReg) (k : Fin 6) (a : Word) (s : State) (hs : s.mem.wf = true) :
    Yields (Fate.Canonical) (resetdomBody d k a s) := by
  refine .step fun _ => ?_
  dsimp only
  split
  · have h := resetdomCores_wf s d [coreOf a.toNat] _ (fun t ht => resetCores_wf t [coreOf a.toNat] ht) hs
    split <;> simp [hs, h]
  · have h := resetdomCores_wf s d (quadCores a.toNat) _ (fun t ht => resetQuad_wf t a.toNat ht) hs
    split <;> simp [hs, h]
  · refine .unless ?_
    split <;> simp [hs]
  all_goals simp [hs]

@[simp] theorem dropRange_mem (s : State) (part : BitVec 6) (a n : Nat) : (s.dropRange part a n).mem = s.mem := by
  unfold State.dropRange
  split
  · rfl
  · exact foldl_mem _ dropPage_mem _ _

@[simp] theorem tlbinvBody_wf (a b : Word) (s : State) (hs : s.mem.wf = true) : Yields (fun t => t.mem.wf = true) (tlbinvBody a b s) := by
  simp [tlbinvBody, hs]

@[simp] theorem rdlatBody_mem (clr : Bool) (d : SReg) (s : State) : (rdlatBody clr d s).mem = s.mem := by simp [rdlatBody]

theorem afterEarlier_wf (s : State) (f : State → State) (hf : ∀ t, t.mem.wf = true → (f t).mem.wf = true) (hs : s.mem.wf = true) :
    (s.afterEarlier f).Canonical := by
  simp [State.afterEarlier, hs, hf]

@[simp] theorem wfeBody_wf (len : Nat) (d : SReg) (b : Word) (s : State) (hs : s.mem.wf = true) : (wfeBody len d b s).Canonical := by
  simp [wfeBody, hs]

@[simp] theorem haltcBody_wf (s : State) (hs : s.mem.wf = true) :
    Yields (Fate.Canonical) (haltcBody s) := by
  refine .step fun _ => ?_
  split <;> simp [hs]

/-! The operations of Machine/Events.lean. -/

@[simp] theorem recheck_wf (s : State) (hs : s.mem.wf = true) : s.recheck.mem.wf = true := by
  unfold State.recheck
  split
  · split
    · exact hs
    · split
      · exact close_wf _ _ (waitmBody_wf _ _ hs _ ‹_›)
      · exact deliver_wf _ _ _ hs
  · exact hs

@[simp] theorem waitmDue_mem (s : State) : s.waitmDue.mem = s.mem := by
  unfold State.waitmDue
  split <;> simp

@[simp] theorem wfeWake_wf (s : State) (hs : s.mem.wf = true) : s.wfeWake.mem.wf = true := by
  unfold State.wfeWake
  split
  · split <;> simp [hs]
  · exact hs

@[simp] theorem streamEvent_wf (s : State) (f : State → State) (hf : ∀ t, t.mem.wf = true → (f t).mem.wf = true) (hs : s.mem.wf = true) :
    (s.streamEvent f).mem.wf = true := by
  simp [State.streamEvent, hs, hf]

@[simp] theorem podArrival_mem (s : State) (k : BitVec 4) (n : Nat) : (s.podArrival k n).mem = s.mem := by
  unfold State.podArrival
  split
  · cases h : s.arrive .pd 0 k.toNat n with
    | none => rfl
    | some t => exact arrive_mem _ _ _ _ _ _ h
  · rfl

@[simp] theorem illegalEncoding_wf (s : State) (hs : s.mem.wf = true) : s.illegalEncoding.mem.wf = true := by
  unfold State.illegalEncoding
  split <;> simp [hs]

@[simp] theorem fetchFault_wf (s : State) (hs : s.mem.wf = true) : s.fetchFault.mem.wf = true := by
  unfold State.fetchFault
  (repeat' split) <;> simp [hs]

@[simp] theorem writeStream_wf (s : State) (q : QReg) (hs : s.mem.wf = true) : (s.writeStream q).mem.wf = true := by
  unfold State.writeStream
  dsimp only
  split <;> simp [hs]

/-! The operations of Machine/Scalar.lean. -/

@[simp] theorem goTo_wf (s : State) (t : Word) (hs : s.mem.wf = true) : Yields Fate.Canonical (goTo s t) := by
  simp [goTo, hs]

@[simp] theorem endBody_wf (s : State) (hs : s.mem.wf = true) : Yields Fate.Canonical (endBody s) := by
  refine .step fun _ => .ite (by simpa using hs) ?_
  split
  · simp
  · exact (yields_pure _).2 (foldl_wf _ (fun t x ht => countUnused_wf _ _ ht) _ _ (settleStreams_wf _ hs))

@[simp] theorem loadScalar_wf (v : LdW) (sp : Space) (d : SReg) (ea : Word) (s : State) (hs : s.mem.wf = true) :
    Yields (fun t => t.mem.wf = true) (loadScalar v sp d ea s) :=
  .step fun _ => by simpa using hs

@[simp] theorem storeScalar_wf (v : StW) (sp : Space) (d : SReg) (ea : Word) (s : State) (hs : s.mem.wf = true) :
    Yields (fun t => t.mem.wf = true) (storeScalar v sp d ea s) :=
  storeChecked_wf _ _ _ _ _ _ (settleWrites_wf _ _ hs)

/-! Every arm of the dispatch. -/

/-- An instruction or event that goes on leaves canonical memory. -/
def Kept (o : Out) : Prop := ∀ t, o = .next t → t.mem.wf = true

theorem next_kept (s : State) (h : s.mem.wf = true) : Kept (.next s) := by
  rintro t ⟨⟩
  exact h

section Kept

variable {unit : Nat} {g : Guard} {len : Nat} {s : State}

theorem perform_kept {body : State → Except Stop State} (hs : s.mem.wf = true) (hb : Yields (fun t => t.mem.wf = true) (body s)) :
    Kept (perform unit g len body s) := by
  intro u hu
  obtain ⟨-, rfl⟩ | ⟨-, t, ht, rfl⟩ | ⟨-, st, -, rfl⟩ := perform_cases hu
  · simpa using hs
  · simpa using hb t ht
  · exact deliver_wf _ _ _ hs

theorem performPure_kept {body : State → State} (hs : s.mem.wf = true) (hb : (body s).mem.wf = true) : Kept (performPure g len body s) := by
  intro u hu
  obtain ⟨-, rfl⟩ | ⟨-, rfl⟩ := performPure_cases hu
  · simpa using hs
  · simpa using hb

theorem runFate_kept {body : State → Except Stop Fate} (hs : s.mem.wf = true) (hb : Yields Fate.Canonical (body s)) :
    Kept (runFate unit g len body s) := by
  intro u hu
  obtain ⟨-, rfl⟩ | ⟨-, f, hf, rfl⟩ | ⟨-, st, -, rfl⟩ := runFate_cases hu
  · simpa using hs
  · exact close_wf _ _ (hb f hf)
  · exact deliver_wf _ _ _ hs

theorem scalarOp_kept {d : SReg} {f : State → Word} (hs : s.mem.wf = true) : Kept (scalarOp g len d f s) :=
  performPure_kept hs (by simpa using hs)

theorem scalarFlags_kept {d : SReg} {f : State → Word × Flags} (hs : s.mem.wf = true) : Kept (scalarFlags g len d f s) :=
  performPure_kept hs (by simpa using hs)

theorem predOp_kept {d : PReg} {f : State → Bool} (hs : s.mem.wf = true) : Kept (predOp g len d f s) :=
  performPure_kept hs (by simpa using hs)

theorem performReader_kept {slots : List WSlot} {body : State → Except Stop State} (hs : s.mem.wf = true)
    (hb : Yields (fun t => t.mem.wf = true) (body s)) : Kept (performReader g slots body s) := by
  unfold performReader
  split
  · split
    · exact next_kept _ (by simpa using hb _ ‹_›)
    · exact next_kept _ (deliver_wf _ _ _ (by simpa using hs))
  · exact next_kept _ (by simpa using hs)

theorem performLoad_kept {f : Fmt} {c : BitVec 6} {cl : BitVec 4} {d : WSlot} {ea : Word} (hs : s.mem.wf = true) :
    Kept (performLoad g len f c cl d ea s) := by
  unfold performLoad
  split
  · split
    · exact next_kept _ (by simpa using hs)
    · exact next_kept _ (deliver_wf _ _ _ (by simpa using hs))
  · exact next_kept _ (by simpa using hs)

theorem noteScld_kept {o : Out} (ho : Kept o) : Kept (o.noteScld s) := by
  cases o with
  | next t =>
    refine next_kept _ ?_
    split
    · exact ho t rfl
    · exact ho t rfl
  | _ => exact ho

end Kept

theorem execRep_kept (step : BitVec 4) (mask : BitVec 3) (cnt : BitVec 7) (s : State) (hs : s.mem.wf = true) : Kept (execRep step mask cnt s) := by
  unfold execRep
  split
  · exact next_kept _ (deliver_wf _ _ _ hs)
  · split
    · exact next_kept _ (deliver_wf _ _ _ hs)
    · split
      · exact next_kept _ (by simpa using hs)
      · exact next_kept _ hs

theorem exec_kept (i : Instr) (s : State) (hs : s.mem.wf = true) : Kept (exec i s) :=
  match i with
  | .add g x d a b => show Kept (execAdd g x d a b s) from scalarFlags_kept hs
  | .add64 g x v sat d a b => show Kept (execAdd64 g x v sat d a b s) from scalarFlags_kept hs
  | .add96 g x v sat d a lit => show Kept (execAdd96 g x v sat d a lit s) from scalarFlags_kept hs
  | .sub g x d a b => show Kept (execSub g x d a b s) from scalarFlags_kept hs
  | .sub64 g x v sat d a b => show Kept (execSub64 g x v sat d a b s) from scalarFlags_kept hs
  | .sub96 g x v sat d a lit => show Kept (execSub96 g x v sat d a lit s) from scalarFlags_kept hs
  | .mul g x d a b => show Kept (execMul g x d a b s) from scalarFlags_kept hs
  | .mul64 g x v sat d a b => show Kept (execMul64 g x v sat d a b s) from scalarFlags_kept hs
  | .mul96 g x v sat d a lit => show Kept (execMul96 g x v sat d a lit s) from scalarFlags_kept hs
  | .mulh g d a b => show Kept (execMulh g d a b s) from scalarOp_kept hs
  | .mulh64 g v d a b => show Kept (execMulh64 g v d a b s) from scalarOp_kept hs
  | .mulh96 g v d a lit => show Kept (execMulh96 g v d a lit s) from scalarOp_kept hs
  | .div g d a b => show Kept (execDiv g d a b s) from scalarFlags_kept hs
  | .div64 g v sat d a b => show Kept (execDiv64 g v sat d a b s) from scalarFlags_kept hs
  | .div96 g v sat d a lit => show Kept (execDiv96 g v sat d a lit s) from scalarFlags_kept hs
  | .rem g d a b => show Kept (execRem g d a b s) from scalarFlags_kept hs
  | .rem64 g v d a b => show Kept (execRem64 g v d a b s) from scalarFlags_kept hs
  | .rem96 g v d a lit => show Kept (execRem96 g v d a lit s) from scalarFlags_kept hs
  | .and g x d a b => show Kept (execAnd g x d a b s) from scalarOp_kept hs
  | .and64 g x d a b => show Kept (execAnd64 g x d a b s) from scalarOp_kept hs
  | .and96 g x d a lit => show Kept (execAnd96 g x d a lit s) from scalarOp_kept hs
  | .or g x d a b => show Kept (execOr g x d a b s) from scalarOp_kept hs
  | .or64 g x d a b => show Kept (execOr64 g x d a b s) from scalarOp_kept hs
  | .or96 g x d a lit => show Kept (execOr96 g x d a lit s) from scalarOp_kept hs
  | .xor g x d a b => show Kept (execXor g x d a b s) from scalarOp_kept hs
  | .xor64 g x d a b => show Kept (execXor64 g x d a b s) from scalarOp_kept hs
  | .xor96 g x d a lit => show Kept (execXor96 g x d a lit s) from scalarOp_kept hs
  | .andn g x d a b => show Kept (execAndn g x d a b s) from scalarOp_kept hs
  | .andn64 g x d a b => show Kept (execAndn64 g x d a b s) from scalarOp_kept hs
  | .andn96 g x d a lit => show Kept (execAndn96 g x d a lit s) from scalarOp_kept hs
  | .shl g x d a b => show Kept (execShl g x d a b s) from scalarOp_kept hs
  | .shl64 g x v d a b => show Kept (execShl64 g x v d a b s) from scalarOp_kept hs
  | .shl96 g x v d a lit => show Kept (execShl96 g x v d a lit s) from scalarOp_kept hs
  | .shr g x d a b => show Kept (execShr g x d a b s) from scalarOp_kept hs
  | .shr64 g x v d a b => show Kept (execShr64 g x v d a b s) from scalarOp_kept hs
  | .shr96 g x v d a lit => show Kept (execShr96 g x v d a lit s) from scalarOp_kept hs
  | .sra g x d a b => show Kept (execSra g x d a b s) from scalarOp_kept hs
  | .sra64 g x v d a b => show Kept (execSra64 g x v d a b s) from scalarOp_kept hs
  | .sra96 g x v d a lit => show Kept (execSra96 g x v d a lit s) from scalarOp_kept hs
  | .rol g d a b => show Kept (execRol g d a b s) from scalarOp_kept hs
  | .rol64 g v d a b => show Kept (execRol64 g v d a b s) from scalarOp_kept hs
  | .rol96 g v d a lit => show Kept (execRol96 g v d a lit s) from scalarOp_kept hs
  | .clz g d a => show Kept (execClz g d a s) from scalarOp_kept hs
  | .clz64 g v d a => show Kept (execClz64 g v d a s) from scalarOp_kept hs
  | .ctz g d a => show Kept (execCtz g d a s) from scalarOp_kept hs
  | .ctz64 g v d a => show Kept (execCtz64 g v d a s) from scalarOp_kept hs
  | .popc g d a => show Kept (execPopc g d a s) from scalarOp_kept hs
  | .popc64 g v d a => show Kept (execPopc64 g v d a s) from scalarOp_kept hs
  | .brev g d a => show Kept (execBrev g d a s) from scalarOp_kept hs
  | .brev64 g v d a => show Kept (execBrev64 g v d a s) from scalarOp_kept hs
  | .min g x d a b => show Kept (execMin g x d a b s) from scalarOp_kept hs
  | .min64 g x v d a b => show Kept (execMin64 g x v d a b s) from scalarOp_kept hs
  | .min96 g x v d a lit => show Kept (execMin96 g x v d a lit s) from scalarOp_kept hs
  | .max g x d a b => show Kept (execMax g x d a b s) from scalarOp_kept hs
  | .max64 g x v d a b => show Kept (execMax64 g x v d a b s) from scalarOp_kept hs
  | .max96 g x v d a lit => show Kept (execMax96 g x v d a lit s) from scalarOp_kept hs
  | .sel g x d a b => show Kept (execSel g x d a b s) from scalarOp_kept hs
  | .sel64 g x d a b c => show Kept (execSel64 g x d a b c s) from scalarOp_kept hs
  | .sel96 g x d a lit c => show Kept (execSel96 g x d a lit c s) from scalarOp_kept hs
  | .mov g x d a => show Kept (execMov g x d a s) from scalarOp_kept hs
  | .mov64 g x d a => show Kept (execMov64 g x d a s) from scalarOp_kept hs
  | .movi g x d imm => show Kept (execMovi g x d imm s) from scalarOp_kept hs
  | .movi96 g x v d lit => show Kept (execMovi96 g x v d lit s) from scalarOp_kept hs
  | .addi g x d imm => show Kept (execAddi g x d imm s) from scalarOp_kept hs
  | .lea g x d a b => show Kept (execLea g x d a b s) from scalarOp_kept hs
  | .lea64 g x d a b c => show Kept (execLea64 g x d a b c s) from scalarOp_kept hs
  | .lea96 g x d a lit c => show Kept (execLea96 g x d a lit c s) from scalarOp_kept hs
  | .cmp g x d a b => show Kept (execCmp g x d a b s) from predOp_kept hs
  | .cmp64 g x v d a b => show Kept (execCmp64 g x v d a b s) from predOp_kept hs
  | .cmp96 g x v d a lit => show Kept (execCmp96 g x v d a lit s) from predOp_kept hs
  | .pand g x d a b => show Kept (execPand g x d a b s) from predOp_kept hs
  | .pand64 g x d a b => show Kept (execPand64 g x d a b s) from predOp_kept hs
  | .por g x d a b => show Kept (execPor g x d a b s) from predOp_kept hs
  | .por64 g x d a b => show Kept (execPor64 g x d a b s) from predOp_kept hs
  | .pxor g x d a b => show Kept (execPxor g x d a b s) from predOp_kept hs
  | .pxor64 g x d a b => show Kept (execPxor64 g x d a b s) from predOp_kept hs
  | .pnot g x d a => show Kept (execPnot g x d a s) from predOp_kept hs
  | .pnot64 g x d a => show Kept (execPnot64 g x d a s) from predOp_kept hs
  | .br g off => show Kept (execBr g off s) from runFate_kept hs (by simp [hs])
  | .jmp g a => show Kept (execJmp g a s) from runFate_kept hs (by simp [hs])
  | .jmp64 g a => show Kept (execJmp64 g a s) from runFate_kept hs (by simp [hs])
  | .jmp96 g a lit => show Kept (execJmp96 g a lit s) from runFate_kept hs (by simp [hs])
  | .call g off => show Kept (execCall g off s) from runFate_kept hs (by simp [hs])
  | .ret g a => show Kept (execRet g a s) from runFate_kept hs (by simp [hs])
  | .ret64 g a => show Kept (execRet64 g a s) from runFate_kept hs (by simp [hs])
  | .loop g d off => show Kept (execLoop g d off s) from runFate_kept hs (by simp [hs])
  | .rep step mask cnt => show Kept (execRep step mask cnt s) from execRep_kept _ _ _ _ hs
  | .nop g x => show Kept (execNop g x s) from performPure_kept hs (by simpa using hs)
  | .nop64 g x => show Kept (execNop64 g x s) from performPure_kept hs (by simpa using hs)
  | .endTask g => show Kept (execEndTask g s) from runFate_kept hs (by simp [hs])
  | .endTask64 g => show Kept (execEndTask64 g s) from runFate_kept hs (by simp [hs])
  | .lds g d a b => show Kept (execLds g d a b s) from perform_kept hs (by simp [hs])
  | .lds64 g v cl sp d a b => show Kept (execLds64 g v cl sp d a b s) from perform_kept hs (by simp [hs])
  | .lds96 g v cl sp d a lit => show Kept (execLds96 g v cl sp d a lit s) from perform_kept hs (by simp [hs])
  | .sts g d a b => show Kept (execSts g d a b s) from perform_kept hs (by simp [hs])
  | .sts64 g v cl sp d a b => show Kept (execSts64 g v cl sp d a b s) from perform_kept hs (by simp [hs])
  | .sts96 g v cl sp d a lit => show Kept (execSts96 g v cl sp d a lit s) from perform_kept hs (by simp [hs])
  | .csrr g d csr => show Kept (execCsrr g d csr s) from perform_kept hs (by simp [hs])
  | .csrw g d csr => show Kept (execCsrw g d csr s) from perform_kept hs (by simp [hs])
  | .shld g cl sp d a b => show Kept (execShld g cl sp d a b s) from perform_kept hs (by simp [hs])
  | .shldLit g cl sp d a lit => show Kept (execShldLit g cl sp d a lit s) from perform_kept hs (by simp [hs])
  | .shst g cl sp d a b => show Kept (execShst g cl sp d a b s) from perform_kept hs (by simp [hs])
  | .shstLit g cl sp d a lit => show Kept (execShstLit g cl sp d a lit s) from perform_kept hs (by simp [hs])
  | .shset g d b c => show Kept (execShset g d b c s) from perform_kept hs (by simp [hs])
  | .shsetLit g d lit c => show Kept (execShsetLit g d lit c s) from perform_kept hs (by simp [hs])
  | .shget g d a c => show Kept (execShget g d a c s) from perform_kept hs (by simp [hs])
  | .shmov g d a => show Kept (execShmov g d a s) from perform_kept hs (by simp [hs])
  | .openR g cl d a => show Kept (execOpenR g cl d a s) from perform_kept hs (by simp [hs])
  | .openW g cl d a => show Kept (execOpenW g cl d a s) from perform_kept hs (by simp [hs])
  | .openG g cl d a b => show Kept (execOpenG g cl d a b s) from perform_kept hs (by simp [hs])
  | .adv g d b => show Kept (execAdv g d b s) from perform_kept hs (by simp [hs])
  | .advLit g d lit => show Kept (execAdvLit g d lit s) from perform_kept hs (by simp [hs])
  | .close g d => show Kept (execClose g d s) from perform_kept hs (by simp [hs])
  | .drain g d => show Kept (execDrain g d s) from perform_kept hs (by simp [hs])
  | .pld g cl d a b c => show Kept (execPld g cl d a b c s) from perform_kept hs (by simp [hs])
  | .pldLit g cl d a lit c => show Kept (execPldLit g cl d a lit c s) from perform_kept hs (by simp [hs])
  | .reside g d a b c => show Kept (execReside g d a b c s) from perform_kept hs (by simp [hs])
  | .resideLit g d a lit c => show Kept (execResideLit g d a lit c s) from perform_kept hs (by simp [hs])
  | .lookahead g d b => show Kept (execLookahead g d b s) from perform_kept hs (by simp [hs])
  | .lookaheadLit g d lit => show Kept (execLookaheadLit g d lit s) from perform_kept hs (by simp [hs])
  | .posr g d a c => show Kept (execPosr g d a c s) from perform_kept hs (by simp [hs])
  | .qcnt g d a => show Kept (execQcnt g d a s) from perform_kept hs (by simp [hs])
  | .vld g cl d a b c => show Kept (execVld g cl d a b c s) from perform_kept hs (by simp [hs])
  | .vldLit g cl d a lit c => show Kept (execVldLit g cl d a lit c s) from perform_kept hs (by simp [hs])
  | .vst g cl d a b c => show Kept (execVst g cl d a b c s) from perform_kept hs (by simp [hs])
  | .vstLit g cl d a lit c => show Kept (execVstLit g cl d a lit c s) from perform_kept hs (by simp [hs])
  | .scld g cl a b => show Kept (execScld g cl a b s) from noteScld_kept (perform_kept hs (by simp [hs]))
  | .scldLit g cl a lit => show Kept (execScldLit g cl a lit s) from noteScld_kept (perform_kept hs (by simp [hs]))
  | .pref g a b c => show Kept (execPref g a b c s) from perform_kept hs (by simp [hs])
  | .prefLit g a lit c => show Kept (execPrefLit g a lit c s) from perform_kept hs (by simp [hs])
  | .vadd g f rm sat d a b c => show Kept (execVadd g f rm sat d a b c s) from perform_kept hs (by simp [hs])
  | .vaddLit g f rm sat d a lit c => show Kept (execVaddLit g f rm sat d a lit c s) from perform_kept hs (by simp [hs])
  | .vsub g f rm sat d a b c => show Kept (execVsub g f rm sat d a b c s) from perform_kept hs (by simp [hs])
  | .vsubLit g f rm sat d a lit c => show Kept (execVsubLit g f rm sat d a lit c s) from perform_kept hs (by simp [hs])
  | .vmul g f rm sat d a b c => show Kept (execVmul g f rm sat d a b c s) from perform_kept hs (by simp [hs])
  | .vmulLit g f rm sat d a lit c => show Kept (execVmulLit g f rm sat d a lit c s) from perform_kept hs (by simp [hs])
  | .vfma g f rm sat d a b c => show Kept (execVfma g f rm sat d a b c s) from perform_kept hs (by simp [hs])
  | .vfms g f rm sat d a b c => show Kept (execVfms g f rm sat d a b c s) from perform_kept hs (by simp [hs])
  | .vnfma g f rm sat d a b c => show Kept (execVnfma g f rm sat d a b c s) from perform_kept hs (by simp [hs])
  | .vmin g f d a b c => show Kept (execVmin g f d a b c s) from perform_kept hs (by simp [hs])
  | .vminLit g f d a lit c => show Kept (execVminLit g f d a lit c s) from perform_kept hs (by simp [hs])
  | .vmax g f d a b c => show Kept (execVmax g f d a b c s) from perform_kept hs (by simp [hs])
  | .vmaxLit g f d a lit c => show Kept (execVmaxLit g f d a lit c s) from perform_kept hs (by simp [hs])
  | .vabs g f sat d a c => show Kept (execVabs g f sat d a c s) from perform_kept hs (by simp [hs])
  | .vneg g f sat d a c => show Kept (execVneg g f sat d a c s) from perform_kept hs (by simp [hs])
  | .vand g f d a b c => show Kept (execVand g f d a b c s) from perform_kept hs (by simp [hs])
  | .vandLit g f d a lit c => show Kept (execVandLit g f d a lit c s) from perform_kept hs (by simp [hs])
  | .vor g f d a b c => show Kept (execVor g f d a b c s) from perform_kept hs (by simp [hs])
  | .vorLit g f d a lit c => show Kept (execVorLit g f d a lit c s) from perform_kept hs (by simp [hs])
  | .vxor g f d a b c => show Kept (execVxor g f d a b c s) from perform_kept hs (by simp [hs])
  | .vxorLit g f d a lit c => show Kept (execVxorLit g f d a lit c s) from perform_kept hs (by simp [hs])
  | .vnot g f d a c => show Kept (execVnot g f d a c s) from perform_kept hs (by simp [hs])
  | .vshl g f d a b c => show Kept (execVshl g f d a b c s) from perform_kept hs (by simp [hs])
  | .vshlLit g f d a lit c => show Kept (execVshlLit g f d a lit c s) from perform_kept hs (by simp [hs])
  | .vshr g f d a b c => show Kept (execVshr g f d a b c s) from perform_kept hs (by simp [hs])
  | .vshrLit g f d a lit c => show Kept (execVshrLit g f d a lit c s) from perform_kept hs (by simp [hs])
  | .vsra g f d a b c => show Kept (execVsra g f d a b c s) from perform_kept hs (by simp [hs])
  | .vsraLit g f d a lit c => show Kept (execVsraLit g f d a lit c s) from perform_kept hs (by simp [hs])
  | .vrol g f d a b c => show Kept (execVrol g f d a b c s) from perform_kept hs (by simp [hs])
  | .vrolLit g f d a lit c => show Kept (execVrolLit g f d a lit c s) from perform_kept hs (by simp [hs])
  | .vmulhi g f d a b c => show Kept (execVmulhi g f d a b c s) from perform_kept hs (by simp [hs])
  | .vmulhiLit g f d a lit c => show Kept (execVmulhiLit g f d a lit c s) from perform_kept hs (by simp [hs])
  | .vcmp g f d a b c => show Kept (execVcmp g f d a b c s) from perform_kept hs (by simp [hs])
  | .vcmpLit g f d a lit c => show Kept (execVcmpLit g f d a lit c s) from perform_kept hs (by simp [hs])
  | .vsel g f d a b c => show Kept (execVsel g f d a b c s) from perform_kept hs (by simp [hs])
  | .vmov g f d a c => show Kept (execVmov g f d a c s) from perform_kept hs (by simp [hs])
  | .vsplat g f d b c => show Kept (execVsplat g f d b c s) from perform_kept hs (by simp [hs])
  | .vsplatLit g f rm sat d lit c => show Kept (execVsplatLit g f rm sat d lit c s) from perform_kept hs (by simp [hs])
  | .viota g f d b c => show Kept (execViota g f d b c s) from perform_kept hs (by simp [hs])
  | .viotaLit g f d lit c => show Kept (execViotaLit g f d lit c s) from perform_kept hs (by simp [hs])
  | .vcvt g f sf rm sat d a => show Kept (execVcvt g f sf rm sat d a s) from perform_kept hs (by simp [hs])
  | .vwadd g f sf rm sat d a b => show Kept (execVwadd g f sf rm sat d a b s) from perform_kept hs (by simp [hs])
  | .vwmul g f sf rm sat d a b => show Kept (execVwmul g f sf rm sat d a b s) from perform_kept hs (by simp [hs])
  | .vnarrow g f sf rm sat d a b => show Kept (execVnarrow g f sf rm sat d a b s) from perform_kept hs (by simp [hs])
  | .vnarrowLit g f sf rm sat d a lit => show Kept (execVnarrowLit g f sf rm sat d a lit s) from perform_kept hs (by simp [hs])
  | .vredsum g f rm sat d a c => show Kept (execVredsum g f rm sat d a c s) from perform_kept hs (by simp [hs])
  | .vredmax g f d a c => show Kept (execVredmax g f d a c s) from perform_kept hs (by simp [hs])
  | .vredmin g f d a c => show Kept (execVredmin g f d a c s) from perform_kept hs (by simp [hs])
  | .vscan g f rm sat d a c => show Kept (execVscan g f rm sat d a c s) from perform_kept hs (by simp [hs])
  | .vperm g f d a b c => show Kept (execVperm g f d a b c s) from perform_kept hs (by simp [hs])
  | .vslide g f d a b c => show Kept (execVslide g f d a b c s) from perform_kept hs (by simp [hs])
  | .vslideLit g f d a lit c => show Kept (execVslideLit g f d a lit c s) from perform_kept hs (by simp [hs])
  | .vzip g f d a b => show Kept (execVzip g f d a b s) from perform_kept hs (by simp [hs])
  | .vunzip g f d a b => show Kept (execVunzip g f d a b s) from perform_kept hs (by simp [hs])
  | .vcompress g f d a c => show Kept (execVcompress g f d a c s) from perform_kept hs (by simp [hs])
  | .vexpand g f d a c => show Kept (execVexpand g f d a c s) from perform_kept hs (by simp [hs])
  | .vins g f d a b => show Kept (execVins g f d a b s) from perform_kept hs (by simp [hs])
  | .vinsLit g f d a lit => show Kept (execVinsLit g f d a lit s) from perform_kept hs (by simp [hs])
  | .vext g f d a b => show Kept (execVext g f d a b s) from perform_kept hs (by simp [hs])
  | .vextLit g f d a lit => show Kept (execVextLit g f d a lit s) from perform_kept hs (by simp [hs])
  | .vrcp g f rm sat d a c => show Kept (execVrcp g f rm sat d a c s) from perform_kept hs (by simp [hs])
  | .vrsq g f rm sat d a c => show Kept (execVrsq g f rm sat d a c s) from perform_kept hs (by simp [hs])
  | .vsqrt g f rm sat d a c => show Kept (execVsqrt g f rm sat d a c s) from perform_kept hs (by simp [hs])
  | .vexp2 g f rm sat d a c => show Kept (execVexp2 g f rm sat d a c s) from perform_kept hs (by simp [hs])
  | .vlog2 g f rm sat d a c => show Kept (execVlog2 g f rm sat d a c s) from perform_kept hs (by simp [hs])
  | .vtanh g f rm sat d a c => show Kept (execVtanh g f rm sat d a c s) from perform_kept hs (by simp [hs])
  | .mand g d a b => show Kept (execMand g d a b s) from performPure_kept hs (by simpa using hs)
  | .mor g d a b => show Kept (execMor g d a b s) from performPure_kept hs (by simpa using hs)
  | .mxor g d a b => show Kept (execMxor g d a b s) from performPure_kept hs (by simpa using hs)
  | .mnot g d a => show Kept (execMnot g d a s) from performPure_kept hs (by simpa using hs)
  | .mpopc g d a => show Kept (execMpopc g d a s) from performPure_kept hs (by simpa using hs)
  | .mfirst g d a => show Kept (execMfirst g d a s) from performPure_kept hs (by simpa using hs)
  | .qcvt g f sf rm d a b => show Kept (execQcvt g f sf rm d a b s) from perform_kept hs (by simp [hs])
  | .qdcvt g f sf rm sat d a b => show Kept (execQdcvt g f sf rm sat d a b s) from perform_kept hs (by simp [hs])
  | .lq g f sf sat d a b => show Kept (execLq g f sf sat d a b s) from perform_kept hs (by simp [hs])
  | .lqLit g f sf sat d a lit => show Kept (execLqLit g f sf sat d a lit s) from perform_kept hs (by simp [hs])
  | .ldq g f sf rm sat d a b => show Kept (execLdq g f sf rm sat d a b s) from perform_kept hs (by simp [hs])
  | .ldqLit g f sf rm sat d a lit => show Kept (execLdqLit g f sf rm sat d a lit s) from perform_kept hs (by simp [hs])
  | .lqrep g f sf sat d a b => show Kept (execLqrep g f sf sat d a b s) from perform_kept hs (by simp [hs])
  | .lqrepLit g f sf sat d a lit => show Kept (execLqrepLit g f sf sat d a lit s) from perform_kept hs (by simp [hs])
  | .lstat g f sf d a b => show Kept (execLstat g f sf d a b s) from perform_kept hs (by simp [hs])
  | .lstatLit g f sf d a lit => show Kept (execLstatLit g f sf d a lit s) from perform_kept hs (by simp [hs])
  | .rngseed g b => show Kept (execRngseed g b s) from performPure_kept hs (by simpa using hs)
  | .rngseedLit g lit => show Kept (execRngseedLit g lit s) from performPure_kept hs (by simpa using hs)
  | .rngget g f d c => show Kept (execRngget g f d c s) from perform_kept hs (by simp [hs])
  | .scpush g a b => show Kept (execScpush g a b s) from perform_kept hs (by simp [hs])
  | .scpushLit g a lit => show Kept (execScpushLit g a lit s) from perform_kept hs (by simp [hs])
  | .scpop g d b => show Kept (execScpop g d b s) from perform_kept hs (by simp [hs])
  | .scpopLit g d lit => show Kept (execScpopLit g d lit s) from perform_kept hs (by simp [hs])
  | .mma g f sat d a b => show Kept (execMma g f sat d a b s) from performReader_kept hs (by simp [hs])
  | .mmas g f sat d a b c => show Kept (execMmas g f sat d a b c s) from performReader_kept hs (by simp [hs])
  | .mmag g f sat d a b c => show Kept (execMmag g f sat d a b c s) from performReader_kept hs (by simp [hs])
  | .mmal g f sat d a b => show Kept (execMmal g f sat d a b s) from performReader_kept hs (by simp [hs])
  | .mzero g d => show Kept (execMzero g d s) from performPure_kept hs (mzeroBody_wf _ _ hs)
  | .mdrain g f rm sat sc cl sp z d a b => show Kept (execMdrain g f rm sat sc cl sp z d a b s) from perform_kept hs (by simp [hs])
  | .mdrainLit g f rm sat sc cl sp z d a lit => show Kept (execMdrainLit g f rm sat sc cl sp z d a lit s) from perform_kept hs (by simp [hs])
  | .mcfg g b => show Kept (execMcfg g b s) from perform_kept hs (by simp [hs])
  | .mcfgLit g lit => show Kept (execMcfgLit g lit s) from perform_kept hs (by simp [hs])
  | .wload g f cl sp mx ue k32 d a b => show Kept (execWload g f cl sp mx ue k32 d a b s) from performLoad_kept hs
  | .wloadLit g f cl sp mx ue k32 d a lit => show Kept (execWloadLit g f cl sp mx ue k32 d a lit s) from performLoad_kept hs
  | .wtab g cl sp a b => show Kept (execWtab g cl sp a b s) from perform_kept hs (by simp [hs])
  | .wtabLit g cl sp a lit => show Kept (execWtabLit g cl sp a lit s) from perform_kept hs (by simp [hs])
  | .wstat g d b => show Kept (execWstat g d b s) from performPure_kept hs (by simpa using hs)
  | .mstat g d b => show Kept (execMstat g d b s) from performPure_kept hs (by simpa using hs)
  | .copy g sc cl dsp ssp d a b => show Kept (execCopy g sc cl dsp ssp d a b s) from perform_kept hs (by simp [hs])
  | .copyLit g sc cl dsp ssp d a lit => show Kept (execCopyLit g sc cl dsp ssp d a lit s) from perform_kept hs (by simp [hs])
  | .copyn g sc cl d a => show Kept (execCopyn g sc cl d a s) from perform_kept hs (by simp [hs])
  | .gather g sc cl sp d a b => show Kept (execGather g sc cl sp d a b s) from perform_kept hs (by simp [hs])
  | .scatter g sc cl sp d a b => show Kept (execScatter g sc cl sp d a b s) from perform_kept hs (by simp [hs])
  | .xpose g f sc cl dsp ssp d a b => show Kept (execXpose g f sc cl dsp ssp d a b s) from perform_kept hs (by simp [hs])
  | .xposeLit g f sc cl dsp ssp d a lit => show Kept (execXposeLit g f sc cl dsp ssp d a lit s) from perform_kept hs (by simp [hs])
  | .cfill g f sc cl sp d a b => show Kept (execCfill g f sc cl sp d a b s) from perform_kept hs (by simp [hs])
  | .cfillLit g f sc cl sp d a lit => show Kept (execCfillLit g f sc cl sp d a lit s) from perform_kept hs (by simp [hs])
  | .phase g d b => show Kept (execPhase g d b s) from runFate_kept hs (by simp [hs])
  | .phaseLit g d lit => show Kept (execPhaseLit g d lit s) from runFate_kept hs (by simp [hs])
  | .vpush g cl d a b => show Kept (execVpush g cl d a b s) from perform_kept hs (by simp [hs])
  | .vpushLit g cl d a lit => show Kept (execVpushLit g cl d a lit s) from perform_kept hs (by simp [hs])
  | .cwb g a b => show Kept (execCwb g a b s) from perform_kept hs (by simp [hs])
  | .cwbLit g a lit => show Kept (execCwbLit g a lit s) from perform_kept hs (by simp [hs])
  | .cinv g a b => show Kept (execCinv g a b s) from perform_kept hs (by simp [hs])
  | .cinvLit g a lit => show Kept (execCinvLit g a lit s) from perform_kept hs (by simp [hs])
  | .fence g sc b => show Kept (execFence g sc b s) from perform_kept hs (by simp [hs])
  | .fenceLit g sc lit => show Kept (execFenceLit g sc lit s) from perform_kept hs (by simp [hs])
  | .aadd g f rm sc cl sp ord d a b => show Kept (execAadd g f rm sc cl sp ord d a b s) from perform_kept hs (by simp [hs])
  | .aaddLit g f rm sc cl sp ord d a lit => show Kept (execAaddLit g f rm sc cl sp ord d a lit s) from perform_kept hs (by simp [hs])
  | .aand g f sc cl sp ord d a b => show Kept (execAand g f sc cl sp ord d a b s) from perform_kept hs (by simp [hs])
  | .aandLit g f sc cl sp ord d a lit => show Kept (execAandLit g f sc cl sp ord d a lit s) from perform_kept hs (by simp [hs])
  | .aor g f sc cl sp ord d a b => show Kept (execAor g f sc cl sp ord d a b s) from perform_kept hs (by simp [hs])
  | .aorLit g f sc cl sp ord d a lit => show Kept (execAorLit g f sc cl sp ord d a lit s) from perform_kept hs (by simp [hs])
  | .axor g f sc cl sp ord d a b => show Kept (execAxor g f sc cl sp ord d a b s) from perform_kept hs (by simp [hs])
  | .axorLit g f sc cl sp ord d a lit => show Kept (execAxorLit g f sc cl sp ord d a lit s) from perform_kept hs (by simp [hs])
  | .amin g f sc cl sp ord d a b => show Kept (execAmin g f sc cl sp ord d a b s) from perform_kept hs (by simp [hs])
  | .aminLit g f sc cl sp ord d a lit => show Kept (execAminLit g f sc cl sp ord d a lit s) from perform_kept hs (by simp [hs])
  | .amax g f sc cl sp ord d a b => show Kept (execAmax g f sc cl sp ord d a b s) from perform_kept hs (by simp [hs])
  | .amaxLit g f sc cl sp ord d a lit => show Kept (execAmaxLit g f sc cl sp ord d a lit s) from perform_kept hs (by simp [hs])
  | .axchg g f sc cl sp ord d a b => show Kept (execAxchg g f sc cl sp ord d a b s) from perform_kept hs (by simp [hs])
  | .axchgLit g f sc cl sp ord d a lit => show Kept (execAxchgLit g f sc cl sp ord d a lit s) from perform_kept hs (by simp [hs])
  | .acas g f sc cl sp ord d a b => show Kept (execAcas g f sc cl sp ord d a b s) from perform_kept hs (by simp [hs])
  | .acasLit g f sc cl sp ord d a lit => show Kept (execAcasLit g f sc cl sp ord d a lit s) from perform_kept hs (by simp [hs])
  | .vaor g f sc cl sp m d a b => show Kept (execVaor g f sc cl sp m d a b s) from perform_kept hs (by simp [hs])
  | .vaadd g f sc cl sp m d a b => show Kept (execVaadd g f sc cl sp m d a b s) from perform_kept hs (by simp [hs])
  | .vamax g f sc cl sp m d a b => show Kept (execVamax g f sc cl sp m d a b s) from perform_kept hs (by simp [hs])
  | .ownGive g sc sp frm d a b => show Kept (execOwnGive g sc sp frm d a b s) from perform_kept hs (by simp [hs])
  | .ownTake g sp d a b => show Kept (execOwnTake g sp d a b s) from perform_kept hs (by simp [hs])
  | .ownTest g sp d a b => show Kept (execOwnTest g sp d a b s) from perform_kept hs (by simp [hs])
  | .bar g sc d a b => show Kept (execBar g sc d a b s) from runFate_kept hs (by simp [hs])
  | .barLit g sc d a lit => show Kept (execBarLit g sc d a lit s) from runFate_kept hs (by simp [hs])
  | .sstep g sc d a b => show Kept (execSstep g sc d a b s) from runFate_kept hs (by simp [hs])
  | .sstepLit g sc d a lit => show Kept (execSstepLit g sc d a lit s) from runFate_kept hs (by simp [hs])
  | .waitm g f sc cl sp cond park d a b => show Kept (execWaitm g f sc cl sp cond park d a b s) from runFate_kept hs (by simp [hs])
  | .waitmLit g f sc cl sp cond park d a lit => show Kept (execWaitmLit g f sc cl sp cond park d a lit s) from runFate_kept hs (by simp [hs])
  | .signal g f sc cl sp add a b => show Kept (execSignal g f sc cl sp add a b s) from perform_kept hs (by simp [hs])
  | .signalLit g f sc cl sp add a lit => show Kept (execSignalLit g f sc cl sp add a lit s) from perform_kept hs (by simp [hs])
  | .cswap g d => show Kept (execCswap g d s) from runFate_kept hs (by simp [hs])
  | .yield g => show Kept (execYield g s) from runFate_kept hs (by simp [hs])
  | .park g wr wt wk d => show Kept (execPark g wr wt wk d s) from runFate_kept hs (by simp [hs])
  | .wakeat g inn b => show Kept (execWakeat g inn b s) from performPure_kept hs (by simpa using hs)
  | .wakeatLit g inn lit => show Kept (execWakeatLit g inn lit s) from performPure_kept hs (by simpa using hs)
  | .ctxnew g d a b => show Kept (execCtxnew g d a b s) from perform_kept hs (by simp [hs])
  | .ctxnewLit g d a lit => show Kept (execCtxnewLit g d a lit s) from perform_kept hs (by simp [hs])
  | .ctxfree g a => show Kept (execCtxfree g a s) from perform_kept hs (by simp [hs])
  | .ctxq g d a c => show Kept (execCtxq g d a c s) from perform_kept hs (by simp [hs])
  | .ctxset g a b c => show Kept (execCtxset g a b c s) from perform_kept hs (by simp [hs])
  | .ctxsetLit g a lit c => show Kept (execCtxsetLit g a lit c s) from perform_kept hs (by simp [hs])
  | .launch g d a b => show Kept (execLaunch g d a b s) from perform_kept hs (by simp [hs])
  | .launchLit g d a lit => show Kept (execLaunchLit g d a lit s) from perform_kept hs (by simp [hs])
  | .pgmap g d a b c => show Kept (execPgmap g d a b c s) from perform_kept hs (by simp [hs])
  | .pgmapLit g d a lit c => show Kept (execPgmapLit g d a lit c s) from perform_kept hs (by simp [hs])
  | .pgunmap g d a => show Kept (execPgunmap g d a s) from perform_kept hs (by simp [hs])
  | .pgunmapGrant g d a b => show Kept (execPgunmapGrant g d a b s) from runFate_kept hs (by simp [hs])
  | .pgunmapGrantLit g d a lit => show Kept (execPgunmapGrantLit g d a lit s) from runFate_kept hs (by simp [hs])
  | .pgpin g d a => show Kept (execPgpin g d a s) from perform_kept hs (by simp [hs])
  | .pgunpin g d a => show Kept (execPgunpin g d a s) from perform_kept hs (by simp [hs])
  | .pgmove g d a c => show Kept (execPgmove g d a c s) from perform_kept hs (by simp [hs])
  | .pghint g d a c => show Kept (execPghint g d a c s) from perform_kept hs (by simp [hs])
  | .kvalloc g d a b => show Kept (execKvalloc g d a b s) from perform_kept hs (by simp [hs])
  | .kvallocLit g d a lit => show Kept (execKvallocLit g d a lit s) from perform_kept hs (by simp [hs])
  | .kvfree g unmap d a b => show Kept (execKvfree g unmap d a b s) from perform_kept hs (by simp [hs])
  | .kvfreeLit g unmap d a lit => show Kept (execKvfreeLit g unmap d a lit s) from perform_kept hs (by simp [hs])
  | .kvappend g cl d a => show Kept (execKvappend g cl d a s) from perform_kept hs (by simp [hs])
  | .kvinval g cl z d a b => show Kept (execKvinval g cl z d a b s) from perform_kept hs (by simp [hs])
  | .kvinvalLit g cl z d a lit => show Kept (execKvinvalLit g cl z d a lit s) from perform_kept hs (by simp [hs])
  | .jbegin g a b => show Kept (execJbegin g a b s) from perform_kept hs (by simp [hs])
  | .jbeginLit g a lit => show Kept (execJbeginLit g a lit s) from perform_kept hs (by simp [hs])
  | .jcommit g d => show Kept (execJcommit g d s) from perform_kept hs (by simp [hs])
  | .jrewind g d => show Kept (execJrewind g d s) from runFate_kept hs (by simp [hs])
  | .trap g b => show Kept (execTrap g b s) from runFate_kept hs (by simp [hs])
  | .trapLit g lit => show Kept (execTrapLit g lit s) from runFate_kept hs (by simp [hs])
  | .eret g => show Kept (execEret g s) from runFate_kept hs (by simp [hs])
  | .scrub g d a => show Kept (execScrub g d a s) from perform_kept hs (by simp [hs])
  | .partcfg g k rd d a b => show Kept (execPartcfg g k rd d a b s) from runFate_kept hs (by simp [hs])
  | .partcfgLit g k rd d a lit => show Kept (execPartcfgLit g k rd d a lit s) from runFate_kept hs (by simp [hs])
  | .qoscfg g rd d a b => show Kept (execQoscfg g rd d a b s) from perform_kept hs (by simp [hs])
  | .qoscfgLit g rd d a lit => show Kept (execQoscfgLit g rd d a lit s) from perform_kept hs (by simp [hs])
  | .intpost g b => show Kept (execIntpost g b s) from perform_kept hs (by simp [hs])
  | .intpostLit g lit => show Kept (execIntpostLit g lit s) from perform_kept hs (by simp [hs])
  | .resetdom g d a c => show Kept (execResetdom g d a c s) from runFate_kept hs (by simp [hs])
  | .tlbinv g a b => show Kept (execTlbinv g a b s) from perform_kept hs (by simp [hs])
  | .tlbinvLit g a lit => show Kept (execTlbinvLit g a lit s) from perform_kept hs (by simp [hs])
  | .rdtime g wait d => show Kept (execRdtime g wait d s) from runFate_kept hs (by simp [hs, afterEarlier_wf])
  | .rdlat g clr d => show Kept (execRdlat g clr d s) from runFate_kept hs ((yields_ok _).2 (afterEarlier_wf _ _ (fun t ht => by simpa using ht) hs))
  | .wfe g d b => show Kept (execWfe g d b s) from runFate_kept hs (by simp [hs])
  | .wfeLit g d lit => show Kept (execWfeLit g d lit s) from runFate_kept hs (by simp [hs])
  | .haltc g => show Kept (execHaltc g s) from runFate_kept hs (by simp [hs])
  | .recast g pers wait d a b => show Kept (execRecast g pers wait d a b s) from runFate_kept hs (by simp [hs])
  | .recastLit g pers wait d a lit => show Kept (execRecastLit g pers wait d a lit s) from runFate_kept hs (by simp [hs])
  | .lnkstat g d a c => show Kept (execLnkstat g d a c s) from perform_kept hs (by simp [hs])
  | .ristat g d a c => show Kept (execRistat g d a c s) from perform_kept hs (by simp [hs])
  | .nsend g cl d a => show Kept (execNsend g cl d a s) from perform_kept hs (by simp [hs])
  | .nfetch g cl d a => show Kept (execNfetch g cl d a s) from perform_kept hs (by simp [hs])
  | .ringstep g d a b => show Kept (execRingstep g d a b s) from runFate_kept hs (by simp [hs])
  | .ringstepLit g d a lit => show Kept (execRingstepLit g d a lit s) from runFate_kept hs (by simp [hs])
  | .slcut g m d => show Kept (execSlcut g m d s) from runFate_kept hs (by simp [hs])
  | .slwait g d c => show Kept (execSlwait g d c s) from runFate_kept hs (by simp [hs])
  | .slcommit g d b => show Kept (execSlcommit g d b s) from perform_kept hs (by simp [hs])
  | .slcommitLit g d lit => show Kept (execSlcommitLit g d lit s) from perform_kept hs (by simp [hs])
  | .slrestore g d b => show Kept (execSlrestore g d b s) from runFate_kept hs (by simp [hs])
  | .slrestoreLit g d lit => show Kept (execSlrestoreLit g d lit s) from runFate_kept hs (by simp [hs])
  | .slstat g d c => show Kept (execSlstat g d c s) from performPure_kept hs (by simpa using hs)
  | .errwatch g d b c => show Kept (execErrwatch g d b c s) from perform_kept hs (by simp [hs])
  | .errwatchLit g d lit c => show Kept (execErrwatchLit g d lit c s) from perform_kept hs (by simp [hs])
  | .memhint g crit d a => show Kept (execMemhint g crit d a s) from perform_kept hs (by simp [hs])
  | .memstat g d a c => show Kept (execMemstat g d a c s) from perform_kept hs (by simp [hs])
  | .qtailWrite q v => show Kept (execQtailWrite q v s) from next_kept _ (by simp [hs])
  | .queueEnable q log2n part => show Kept (execQueueEnable q log2n part s) from next_kept _ (by simp [hs])
  | .queueDisable q => show Kept (execQueueDisable q s) from next_kept _ (by simp [hs])
  | .ovrClear q => show Kept (execOvrClear q s) from next_kept _ (by simp [hs])
  | .rerrClear q => show Kept (execRerrClear q s) from next_kept _ (by simp [hs])
  | .hostPartitionWrite p k v => show Kept (execHostPartitionWrite p k v s) from next_kept _ (by simp [hs])
  | .podidWrite v => show Kept (execPodidWrite v s) from next_kept _ (by simp [hs])
  | .pcapWrite v => show Kept (execPcapWrite v s) from next_kept _ (by simp [hs])
  | .hostRegisterWrite off v => show Kept (execHostRegisterWrite off v s) from next_kept _ (by simp [hs])
  | .hostMemAccess pa n data => show Kept (execHostMemAccess pa n data s) from next_kept _ (by simp [hs])
  | .ualinkRequestIn grp pa n data => show Kept (execUalinkRequestIn grp pa n data s) from next_kept _ (by simp [hs])
  | .remoteRmaIn grp key off n data => show Kept (execRemoteRmaIn grp key off n data s) from next_kept _ (by simp [hs])
  | .timeMessage t => show Kept (execTimeMessage t s) from next_kept _ (by simp [hs])
  | .packageReset => show Kept (execPackageReset s) from next_kept _ (packageReset_wf s)
  | .functionReady k => show Kept (execFunctionReady k s) from next_kept _ (by simp [hs])
  | .computeDieReady d => show Kept (execComputeDieReady d s) from next_kept _ (by simp [hs])
  | .heartbeatTimeout d => show Kept (execHeartbeatTimeout d s) from next_kept _ (by simp [hs])
  | .diePowerOff d => show Kept (execDiePowerOff d s) from next_kept _ (by simp [hs])
  | .boundaryDown d => show Kept (execBoundaryDown d s) from next_kept _ (by simp [hs])
  | .islandReturn d => show Kept (execIslandReturn d s) from next_kept _ (by simp [hs])
  | .groupRequest grp wr => show Kept (execGroupRequest grp wr s) from next_kept _ (by simp [hs])
  | .groupDrainDone grp => show Kept (execGroupDrainDone grp s) from next_kept _ (by simp [hs])
  | .groupDrainTimeout grp => show Kept (execGroupDrainTimeout grp s) from next_kept _ (by simp [hs])
  | .groupRetargeted grp => show Kept (execGroupRetargeted grp s) from next_kept _ (by simp [hs])
  | .groupTrained grp => show Kept (execGroupTrained grp s) from next_kept _ (by simp [hs])
  | .groupTrainFailed grp => show Kept (execGroupTrainFailed grp s) from next_kept _ (by simp [hs])
  | .taskStart q => show Kept (execTaskStart q s) from next_kept _ (by simp [hs])
  | .graphStart q => show Kept (execGraphStart q s) from next_kept _ (by simp [hs])
  | .createRecord q => show Kept (execCreateRecord q s) from next_kept _ (by simp [hs])
  | .freeRecord q => show Kept (execFreeRecord q s) from next_kept _ (by simp [hs])
  | .graphNodeStart graph n => show Kept (execGraphNodeStart graph n s) from next_kept _ (by simp [hs])
  | .taskComplete h => show Kept (execTaskComplete h s) from next_kept _ (by simp [hs])
  | .completionWordWrite n => show Kept (execCompletionWordWrite n s) from next_kept _ (by simp [hs])
  | .place d => show Kept (execPlace d s) from next_kept _ (by simp [hs])
  | .standbyLoad d => show Kept (execStandbyLoad d s) from next_kept _ (by simp [hs])
  | .standbyLoadDone h => show Kept (execStandbyLoadDone h s) from next_kept _ (by simp [hs])
  | .sliceEnd d => show Kept (execSliceEnd d s) from next_kept _ (by simp [hs])
  | .preempt d => show Kept (execPreempt d s) from next_kept _ (by simp [hs])
  | .swapOut h => show Kept (execSwapOut h s) from next_kept _ (by simp [hs])
  | .swapOutDone h => show Kept (execSwapOutDone h s) from next_kept _ (by simp [hs])
  | .wakeTimeReached h => show Kept (execWakeTimeReached h s) from next_kept _ (by simp [hs])
  | .moveStart d => show Kept (execMoveStart d s) from next_kept _ (by simp [hs])
  | .moveComplete part va => show Kept (execMoveComplete part va s) from next_kept _ (by simp [hs])
  | .demote d part hbm => show Kept (execDemote d part hbm s) from next_kept _ (by simp [hs])
  | .wakeRecallTrigger h => show Kept (execWakeRecallTrigger h s) from next_kept _ (by simp [hs])
  | .hotPagePromote part va => show Kept (execHotPagePromote part va s) from next_kept _ (by simp [hs])
  | .hotWindowExpire d => show Kept (execHotWindowExpire d s) from next_kept _ (by simp [hs])
  | .compact d pa => show Kept (execCompact d pa s) from next_kept _ (by simp [hs])
  | .streamFetch id q => show Kept (execStreamFetch id q s) from
      next_kept _ (onCore_wf _ _ _ (fun t ht => streamEvent_wf t _ (fun u hu => streamFetch_wf u q hu) ht) hs)
  | .streamWrite id q => show Kept (execStreamWrite id q s) from
      next_kept _ (onCore_wf _ _ _ (fun t ht => streamEvent_wf t _ (fun u hu => writeStream_wf u q hu) ht) hs)
  | .waitmRecheck id => show Kept (execWaitmRecheck id s) from next_kept _ (onCore_wf _ _ _ (fun t ht => recheck_wf t ht) hs)
  | .waitmParkTimeout id => show Kept (execWaitmParkTimeout id s) from next_kept _ (onCore_wf _ _ _ (fun t ht => by simpa using ht) hs)
  | .wfeWake id => show Kept (execWfeWake id s) from next_kept _ (onCore_wf _ _ _ (fun t ht => wfeWake_wf t ht) hs)
  | .ringstepTimeout id => show Kept (execRingstepTimeout id s) from next_kept _ (by simp [hs])
  | .refreshDue st pc progress busy => show Kept (execRefreshDue st pc progress busy s) from next_kept _ (by simp [hs])
  | .refreshEnd st pc bank => show Kept (execRefreshEnd st pc bank s) from next_kept _ (by simp [hs])
  | .paybackStart st pc idle => show Kept (execPaybackStart st pc idle s) from next_kept _ (by simp [hs])
  | .allbankStart st pc => show Kept (execAllbankStart st pc s) from next_kept _ (by simp [hs])
  | .allbankEnd st pc => show Kept (execAllbankEnd st pc s) from next_kept _ (by simp [hs])
  | .criticalTempAssert st => show Kept (execCriticalTempAssert st s) from next_kept _ (by simp [hs])
  | .selfrefEnter st => show Kept (execSelfrefEnter st s) from next_kept _ (by simp [hs])
  | .criticalTempDeassert st => show Kept (execCriticalTempDeassert st s) from next_kept _ (by simp [hs])
  | .selfrefExitStart st => show Kept (execSelfrefExitStart st s) from next_kept _ (by simp [hs])
  | .exitComplete st => show Kept (execExitComplete st s) from next_kept _ (by simp [hs])
  | .errorCorrected k grp u => show Kept (execErrorCorrected k grp u s) from next_kept _ (by cases u <;> simp [hs])
  | .watchWindowExpire => show Kept (execWatchWindowExpire s) from next_kept _ (by simp [hs])
  | .cutStart => show Kept (execCutStart s) from next_kept _ (by simp [hs])
  | .stopTimeout h => show Kept (execStopTimeout h s) from next_kept _ (by simp [hs])
  | .stopDone => show Kept (execStopDone s) from next_kept _ (by simp [hs])
  | .copyDone => show Kept (execCopyDone s) from next_kept _ (by simp [hs])
  | .drainDone => show Kept (execDrainDone s) from next_kept _ (by simp [hs])
  | .cutFailure cause => show Kept (execCutFailure cause s) from next_kept _ (by simp [hs])
  | .restoreDone => show Kept (execRestoreDone s) from next_kept _ (by simp [hs])
  | .boundaryUp d => show Kept (execBoundaryUp d s) from next_kept _ (by simp [hs])
  | .recordAccept q => show Kept (execRecordAccept q s) from next_kept _ (by simp [hs])
  | .restoreFailure => show Kept (execRestoreFailure s) from next_kept _ (by simp [hs])
  | .perBankRefreshStart st pc bank => show Kept (execPerBankRefreshStart st pc bank s) from next_kept _ (by simp [hs])
  | .podBarrierArrival k n => show Kept (execPodBarrierArrival k n s) from next_kept _ (by simp [hs])
  | .illegalEncoding => show Kept (execIllegalEncoding s) from next_kept _ (by simp [hs])
  | .fetchFault => show Kept (execFetchFault s) from next_kept _ (by simp [hs])

/-- Settles O20: memory keeps its canonical form at every step, since every way a step goes on does. -/
theorem everyStepKeepsMemoryCanonical : Obligations.EveryStepKeepsMemoryCanonical := by
  intro s t hs h
  have ht : s.tick.mem.wf = true := by simpa using hs
  rw [step_cases] at h
  split at h
  · cases h
    exact ht
  · cases h
    simpa using ht
  · exact exec_kept _ _ (by simpa using ht) t h
  · split at h
    · exact exec_kept _ _ (by simpa using ht) t h
    · cases h
      exact deliver_wf _ _ _ ht
  · exact exec_kept _ _ ht t h
  · exact exec_kept _ _ ht t h
  · cases h

end Sys2Proof.Machine
end

section
/-!
What the host, another pod member and bring-up change (obligation O56): one lemma for each operation, by the case that its conditions choose.
Where nothing waits for a path, a stack or a slice, the operations that would release it change nothing.
-/

namespace Sys2Proof.Machine

open Sys2Proof

/-! Host queues (R296). -/

/-- Dropping the pairs of another key does not change what is found under a key. -/
theorem lookup_filter_ne {β : Type} (r q : Nat) (l : List (Nat × β)) (h : r ≠ q) : (l.filter (fun y => y.1 != q)).lookup r = l.lookup r := by
  induction l with
  | nil => rfl
  | cons y l ih =>
    obtain ⟨k, v⟩ := y
    by_cases hk : k = q
    · have hr : (r == q) = false := by simpa using h
      simp [hk, List.lookup_cons, hr, ih]
    · simp [hk, List.lookup_cons, ih]

@[simp] theorem queueAt_putQueue_same (s : State) (q : Nat) (x : HostQueue) : (s.putQueue q x).queueAt q = x := by
  simp [State.queueAt, State.putQueue]

theorem queueAt_putQueue_of_ne (s : State) (q r : Nat) (x : HostQueue) (h : r ≠ q) : (s.putQueue q x).queueAt r = s.queueAt r := by
  have hb : (r == q) = false := by simpa using h
  simp [State.queueAt, State.putQueue, List.lookup_cons, hb, lookup_filter_ne r q s.queues h]

/-- From `s` to `u`, queue `q` has become `y`; memory and the other queues are the same. -/
def QueueBecomes (s u : State) (q : Nat) (y : HostQueue) : Prop :=
  u.queueAt q = y ∧ u.mem = s.mem ∧ ∀ r, r ≠ q → u.queueAt r = s.queueAt r

theorem putQueue_becomes (s : State) (q : Nat) (y : HostQueue) : QueueBecomes s (s.putQueue q y) q y :=
  ⟨queueAt_putQueue_same s q y, rfl, fun r hr => queueAt_putQueue_of_ne s q r y hr⟩

theorem writeQtail_becomes (s : State) (q : Nat) (v : BitVec 32) : QueueBecomes s (s.writeQtail q v) q
    (if ((s.queueAt q).tail - (s.queueAt q).head).toNat ≤ (v - (s.queueAt q).head).toNat ∧
        (v - (s.queueAt q).head).toNat ≤ (s.queueAt q).size then { s.queueAt q with tail := v } else { s.queueAt q with ovr := true }) := by
  simp only [State.writeQtail, Bool.and_eq_true, decide_eq_true_eq]
  split
  · exact putQueue_becomes _ _ _
  · exact putQueue_becomes _ _ _

theorem enableQueue_becomes (s : State) (q : Nat) (log2n : BitVec 5) (p : BitVec 6) : QueueBecomes s (s.enableQueue q log2n p) q
    (if (s.queueAt q).en then s.queueAt q
      else { s.queueAt q with log2n := log2n, part := p, en := decide (4 ≤ log2n.toNat ∧ log2n.toNat ≤ 16) }) := by
  simp only [State.enableQueue, Bool.decide_and]
  split
  · exact ⟨rfl, rfl, fun _ _ => rfl⟩
  · exact putQueue_becomes _ _ _

theorem writeQctl_becomes (s : State) (q : Nat) (w : Word) : QueueBecomes s (s.writeQctl q w) q
    (if (s.queueAt q).en then
        { s.queueAt q with ovr := (s.queueAt q).ovr && !w.getLsbD 6, rerr := (s.queueAt q).rerr && !w.getLsbD 7, en := w.getLsbD 0 }
      else { s.queueAt q with ovr := (s.queueAt q).ovr && !w.getLsbD 6, rerr := (s.queueAt q).rerr && !w.getLsbD 7,
                              part := w.extractLsb' 16 6, log2n := w.extractLsb' 1 5,
                              en := w.getLsbD 0 && decide (4 ≤ (w.extractLsb' 1 5).toNat ∧ (w.extractLsb' 1 5).toNat ≤ 16) }) := by
  simp only [State.writeQctl, Bool.decide_and, ← Bool.and_assoc]
  split
  · exact putQueue_becomes _ _ _
  · exact putQueue_becomes _ _ _

/-! What the host writes and reads (R25, R296, R364, R365, R428). -/

theorem ifHost_of_up (s t : State) (h : s.islandUp 0 = true) : s.ifHost t = t := if_pos h

theorem ifHost_of_down (s t : State) (h : s.islandUp 0 = false) : s.ifHost t = s := if_neg (by simp [h])

/-- A write of the host takes effect while island 0 is up. -/
theorem host_gives {i : Instr} {s t : State} {f : State → Prop} (hup : s.islandUp 0 = true) (hi : exec i s = .next (s.ifHost t)) (hf : f t) :
    ∃ u, exec i s = .next u ∧ f u :=
  ⟨t, by rw [hi, ifHost_of_up s t hup], hf⟩

/-- It changes nothing while island 0 is down. -/
theorem host_ignored {i : Instr} {s t : State} (hdown : s.islandUp 0 = false) (hi : exec i s = .next (s.ifHost t)) : exec i s = .next s := by
  rw [hi, ifHost_of_down s t hdown]

theorem hostRegister_qbase (s : State) (q : BitVec 10) (w : Word) :
    s.hostRegister (0x100000 + 32 * q.toNat) w = s.putQueue q.toNat { s.queueAt q.toNat with base := w } := by
  have hq : (0x100000 + 32 * q.toNat - 0x100000) / 32 = q.toNat := by omega
  have h8 : ((0x100000 + 32 * q.toNat) % 8 != 0) = false := by simp; omega
  have hr : (decide (0x100000 ≤ 0x100000 + 32 * q.toNat) && decide (0x100000 + 32 * q.toNat < 0x108000)) = true := by simp; omega
  have hw : (0x100000 + 32 * q.toNat) / 8 % 4 = 0 := by omega
  simp only [State.hostRegister, h8, hr, hq, hw, if_true, Bool.false_eq_true, if_false]

theorem hostRegister_qctl (s : State) (q : BitVec 10) (w : Word) : s.hostRegister (0x100008 + 32 * q.toNat) w = s.writeQctl q.toNat w := by
  have hq : (0x100008 + 32 * q.toNat - 0x100000) / 32 = q.toNat := by omega
  have h8 : ((0x100008 + 32 * q.toNat) % 8 != 0) = false := by simp; omega
  have hr : (decide (0x100000 ≤ 0x100008 + 32 * q.toNat) && decide (0x100008 + 32 * q.toNat < 0x108000)) = true := by simp; omega
  have hw : (0x100008 + 32 * q.toNat) / 8 % 4 = 1 := by omega
  simp only [State.hostRegister, h8, hr, hq, hw, if_true, Bool.false_eq_true, if_false]

theorem hostRegister_qos (s : State) (e : Fin 256) (w : Word) :
    s.hostRegister (0x120000 + 8 * e.val) w = { s with qos := s.qos.set e.val (w.setWidth 8 &&& 0x7F) e.isLt } := by
  have he : (0x120000 + 8 * e.val - 0x120000) / 8 = e.val := by omega
  have h8 : ((0x120000 + 8 * e.val) % 8 != 0) = false := by simp
  have hr : (decide (0x100000 ≤ 0x120000 + 8 * e.val) && decide (0x120000 + 8 * e.val < 0x108000)) = false := by simp; omega
  have hb : 0x120000 ≤ 0x120000 + 8 * e.val ∧ 0x120000 + 8 * e.val < 0x120800 := by omega
  simp only [State.hostRegister, h8, hr, hb, he, Bool.false_eq_true, if_false, and_self, dif_pos]

@[simp] theorem partField_setPartField (s : State) (p : BitVec 6) (k : Fin 19) (v : Word) : (s.setPartField p k v).partField p k = v := by
  simp [State.partField, State.setPartField]

/-- The ageing limit, field 5, takes every value but zero (R362). -/
theorem hostField_age (s : State) (p : BitVec 6) (w : Word) : s.hostField p 5 w = if w = 0 then s else s.setPartField p 5 w := by
  have hm : w &&& fieldMask 5 = w := BitVec.and_allOnes
  have hf : s.writeField p 5 w = if w = 0 then none else some (s.setPartField p 5 w) := by
    unfold State.writeField
    rw [hm]
    rfl
  change (s.writeField p 5 w).getD s = _
  rw [hf]
  split <;> rfl

theorem hostRead_field (s : State) (p : BitVec 6) (k : Fin 19) (hup : s.islandUp 0 = true) :
    s.hostRead (0x110000 + 256 * p.toNat + 8 * k.val) = some (s.readField p k) := by
  have hi : (0x110000 + 256 * p.toNat + 8 * k.val - 0x110000) / 8 = 32 * p.toNat + k.val := by omega
  have h8 : (!s.islandUp 0 || (0x110000 + 256 * p.toNat + 8 * k.val) % 8 != 0) = false := by simp [hup]; omega
  have hr : (decide (0x100000 ≤ 0x110000 + 256 * p.toNat + 8 * k.val) && decide (0x110000 + 256 * p.toNat + 8 * k.val < 0x108000)) = false := by
    simp; omega
  have hb : (decide (0x110000 ≤ 0x110000 + 256 * p.toNat + 8 * k.val) && decide (0x110000 + 256 * p.toNat + 8 * k.val < 0x114000)) = true := by
    simp; omega
  have hk : (32 * p.toNat + k.val) % 32 = k.val := by omega
  have hp : BitVec.ofNat 6 ((32 * p.toNat + k.val) / 32) = p := BitVec.eq_of_toNat_eq (by simp; omega)
  simp only [State.hostRead, h8, hr, hb, hi, hk, hp, if_true, Bool.false_eq_true, if_false, k.isLt, dif_pos]

theorem hostRead_qbase (s : State) (q : BitVec 10) (hup : s.islandUp 0 = true) :
    s.hostRead (0x100000 + 32 * q.toNat) = some (s.queueAt q.toNat).base := by
  have hq : (0x100000 + 32 * q.toNat - 0x100000) / 32 = q.toNat := by omega
  have h8 : (!s.islandUp 0 || (0x100000 + 32 * q.toNat) % 8 != 0) = false := by simp [hup]; omega
  have hr : (decide (0x100000 ≤ 0x100000 + 32 * q.toNat) && decide (0x100000 + 32 * q.toNat < 0x108000)) = true := by simp; omega
  have hw : (0x100000 + 32 * q.toNat) / 8 % 4 = 0 := by omega
  simp only [State.hostRead, h8, hr, hq, hw, if_true, Bool.false_eq_true, if_false]

theorem hostRead_ready (s : State) (hup : s.islandUp 0 = true) : s.hostRead 0x140008 = some s.ready := by
  simp [State.hostRead, hup]

theorem hostRead_of_down (s : State) (k : Nat) (h : s.islandUp 0 = false) : s.hostRead k = none := by
  simp [State.hostRead, h]

theorem hostConfig_of_down (s : State) (k : Nat) (h : s.islandUp 0 = false) : s.hostConfig k = none := by
  simp [State.hostConfig, h]

theorem hostConfig_revision (s : State) (h : s.islandUp 0 = true) : s.hostConfig 8 = some 0x11 := by
  simp [State.hostConfig, h, revisionId]

/-! The time of a pod (R387). -/

/-- A time message moves the time forward only, and says whether this package is slow and its time valid. -/
theorem timeMessage_takes (s : State) (t : Word) (h17 : s.podid.getLsbD 17 = true) (h16 : s.podid.getLsbD 16 = false) (ha : s.ualActive = true) :
    (s.timeMessage t).ptc = (if s.ptc.toNat ≤ t.toNat then t else s.ptc) ∧ (s.timeMessage t).podSlow = decide (t < s.ptc) ∧
      (s.timeMessage t).podv = (s.podv || decide (s.ptc.toNat ≤ t.toNat + 25)) := by
  have hgo : (!s.podid.getLsbD 17 || s.podid.getLsbD 16 || !s.ualActive) = false := by rw [h17, h16, ha]; rfl
  simp only [State.timeMessage, hgo, Bool.false_eq_true, if_false, BitVec.lt_def]
  by_cases hle : s.ptc.toNat ≤ t.toNat
  · have hlt : ¬ t.toNat < s.ptc.toNat := by omega
    have hnear : s.ptc.toNat ≤ t.toNat + 25 := by omega
    simp [hle, hlt, hnear]
  · have hlt : t.toNat < s.ptc.toNat := by omega
    have hnear : t.toNat ≤ s.ptc.toNat + 25 := by omega
    simp [hle, hlt, hnear]

/-! Holds, moves and paths that there are not. -/

/-- A context that is not Frozen, or not for this reason, is not changed by the end of a hold. -/
theorem holdOff_of_not_held (s : State) (h : BitVec 32) (src : HoldSrc) (hc : ∀ c ∈ s.ctxs, c.st ≠ .frozen ∨ src ∉ c.holds) :
    s.holdOff h src = s := by
  unfold State.holdOff
  split
  · rfl
  · rename_i c hf
    refine if_pos ?_
    obtain hst | hh := hc c (List.mem_of_find?_eq_some hf)
    · simp [hst]
    · simp [hh]

theorem releaseHolds_of_not_held (s : State) (src : HoldSrc) (hc : ∀ c ∈ s.ctxs, c.st ≠ .frozen ∨ src ∉ c.holds) : s.releaseHolds src = s :=
  foldl_same _ _ _ fun h _ => holdOff_of_not_held s h src hc

/-- No context is Frozen, no page waits to go, and every page's owner exists: nothing waits for a path or a slice. -/
def Settled (s : State) : Prop :=
  (∀ c ∈ s.ctxs, c.st ≠ .frozen) ∧ ∀ y ∈ s.pages, y.gone ≠ .remove ∧ (y.owner = 0 ∨ ∃ c, s.findCtx y.owner = some c)

theorem settled_congr {s t : State} (h : Settled s) (hc : t.ctxs = s.ctxs) (hp : t.pages = s.pages) : Settled t := by
  simpa only [Settled, State.findCtx, hc, hp] using h

theorem releaseHolds_of_settled {s : State} (h : Settled s) (src : HoldSrc) : s.releaseHolds src = s :=
  releaseHolds_of_not_held s src fun c hc => .inl (h.1 c hc)

theorem releaseLate_of_settled {s : State} (h : Settled s) : s.releaseLate = s := by
  have hgo : s.pages.filter (fun p => p.gone == .remove && p.st != .moving && s.ownerReaches p) = [] :=
    List.filter_eq_nil_iff.2 fun y hy => by simp [(h.2 y hy).1]
  have hmap : s.pages.map (fun p => if p.owner != 0 && (s.findCtx p.owner).isNone && s.ownerReaches p then { p with owner := 0 } else p) =
      s.pages := by
    refine (List.map_congr_left fun y hy => if_neg ?_).trans (List.map_id s.pages)
    obtain ho | ⟨c, ho⟩ := (h.2 y hy).2 <;> simp [ho]
  simp only [State.releaseLate, hgo, List.foldl_nil]
  rw [hmap]

/-- A path that came back changes nothing where nothing waits for it (R12, R313). -/
theorem pathBack_of_settled {s : State} (h : Settled s) : s.pathBack = s := by
  unfold State.pathBack
  rw [foldl_same _ _ _ fun d _ => releaseHolds_of_settled h (.die d)]
  exact releaseLate_of_settled h

theorem loseHeld_of_none (s : State) (d : Nat) (h : s.heldReqs = []) : s.loseHeld d = s := by
  have hs : { s with heldReqs := [] } = s := by rw [← h]
  simpa [State.loseHeld, State.releaseReqs, h] using hs

/-- With no path committed to, no context is marked. -/
theorem markPaths_none (cs : List Ctx) (lost : Nat × Nat × Option Nat → Bool) (h : ∀ c ∈ cs, c.paths = []) :
    cs.map (fun c => if c.paths.any lost then { c with broken := true } else c) = cs :=
  (List.map_congr_left fun c hc => if_neg (by simp [h c hc])).trans (List.map_id cs)

theorem brokenPaths_none (cs : List Ctx) (keep : Ctx → Bool) (lost : Nat × Nat × Option Nat → Bool) (h : ∀ c ∈ cs, c.paths = []) :
    (cs.filter keep).filterMap (fun c => c.paths.find? lost) = [] :=
  List.filterMap_eq_nil_iff.2 fun c hc => by simp [h c (List.mem_of_mem_filter hc)]

theorem dropMoves_of_none (s : State) (d : Nat) (hm : s.moves = []) (hp : ∀ c ∈ s.ctxs, c.paths = []) : s.dropMoves d = s := by
  have hb : s.breakEnds d = s := by
    simp only [State.breakEnds, brokenPaths_none _ _ _ hp, markPaths_none _ _ hp, List.foldl_nil]
  simp only [State.dropMoves, hb, hm, List.filter_nil, List.foldl_nil]

theorem breakPaths_of_none (s : State) (lost : Nat × Nat × Option Nat → Bool) (hm : s.moves = []) (hp : ∀ c ∈ s.ctxs, c.paths = []) :
    s.breakPaths lost = s := by
  have hs : { s with moves := [] } = s := by rw [← hm]
  simpa only [State.breakPaths, brokenPaths_none _ _ _ hp, markPaths_none _ _ hp, hm, List.filter_nil, List.filterMap_nil, List.nil_append,
    List.foldl_nil, List.map_nil] using hs

theorem lostPath_of_no_link (c : Core) (lost : Nat × Nat × Option Nat → Bool) (h : c.link = none) : c.lostPath lost = none := by
  simp [Core.lostPath, h]

/-- With no request, move or transfer on its way, a lost path loses nothing. -/
theorem losePaths_of_none (s : State) (lost : Nat × Nat × Option Nat → Bool) (hm : s.moves = []) (hp : ∀ c ∈ s.ctxs, c.paths = [])
    (hl : ∀ k ∈ s.core :: s.others, k.link = none) : s.losePaths lost = s := by
  have hno : s.allCores.filterMap (fun (c : Core) => c.lostPath lost) = [] :=
    List.filterMap_eq_nil_iff.2 fun c hc => lostPath_of_no_link c lost (hl c hc)
  unfold State.losePaths
  simp only [hno, List.foldl_nil, hl s.core List.mem_cons_self]
  refine (congrArg (fun cs => ({ s with others := cs } : State).breakPaths lost)
    ((List.map_congr_left fun c hc => ?_).trans (List.map_id s.others))).trans (breakPaths_of_none s lost hm hp)
  simp [hl c (List.mem_cons_of_mem _ hc)]

theorem targetUpdate_of_none (s : State) (h : s.slate.tgt = none) : s.targetUpdate = s := by
  simp [State.targetUpdate, h]

/-! Bring-up (R389, R392, R428). -/

theorem functionDie_late (i : Nat) (h : 16 ≤ i) : functionDie i = i % 4 := if_neg (by omega)

/-- A function of a die that has not come up waits. -/
theorem functionReady_early (s : State) (i : Nat) (hi : 16 ≤ i) (hd : s.ready.getLsbD (4 + i % 4) = false) : s.functionReady i = s := by
  have h4 : ¬ i < 4 := by omega
  have h8 : ¬ i < 8 := by omega
  simp only [State.functionReady, h4, h8, functionDie_late i hi, hd, Bool.not_false, if_true, if_false, ite_self]

theorem functionReady_late (s : State) (i : Nat) (hr : s.ready.getLsbD i = false) (hi : 16 ≤ i) (hl : i < 28)
    (hd : s.ready.getLsbD (4 + i % 4) = true) : s.functionReady i = s.setReady i true := by
  have h0 : (s.ready.getLsbD i || decide (28 ≤ i)) = false := by simp [hr]; omega
  have h4 : ¬ i < 4 := by omega
  have h8 : ¬ i < 8 := by omega
  have h16 : ¬ i < 16 := by omega
  simp only [State.functionReady, h0, h4, h8, h16, functionDie_late i hi, hd, Bool.not_true, Bool.false_eq_true, if_false]

/-- A die that is RESETTING becomes UP. -/
theorem dieReady_rises (s : State) (d : BitVec 2) (hst : s.dies[d.toFin].st = .resetting) (hr : s.dieMayRise d.toNat = true)
    (hc : ∀ c ∈ s.ctxs, HoldSrc.die d.toNat ∉ c.holds) : s.dieReady d.toNat = (s.setDie d.toNat .up).setReady (4 + d.toNat) true := by
  have hd : d.toNat % 4 = d.toNat := Nat.mod_eq_of_lt d.isLt
  unfold State.dieReady
  simp only [hd, hr, Bool.and_true]
  rw [if_pos (by simpa using hst), releaseHolds_of_not_held]
  exact fun c hm => .inr (hc c hm)

@[simp] theorem setDie_st (s : State) (d : BitVec 2) (st : DieState) : (s.setDie d.toNat st).dies[d.toFin].st = st := by
  have hd : d.toNat % 4 = d.toNat := Nat.mod_eq_of_lt d.isLt
  simp [State.setDie, hd]

@[simp] theorem setReady_ready (s : State) (i : Nat) (h : i < 64) : (s.setReady i true).ready.getLsbD i = true := by
  simp [State.setReady, h]

@[simp] theorem setIsland_up (s : State) (d : Nat) (x : Island) (b : BitVec 4) : (s.setIsland d x b).islandUp d = x.up := by
  simp [State.islandUp, State.setIsland]

/-- With no move, request or image on its way, a die that leaves UP changes its state and nothing else. -/
theorem leaveUp_of_none (s : State) (d : Nat) (st : DieState) (hm : s.moves = []) (hr : s.heldReqs = []) (hp : ∀ c ∈ s.ctxs, c.paths = []) :
    ((s.setDie d st).loseHeld d).dropMoves d = s.setDie d st := by
  rw [loseHeld_of_none (s.setDie d st) d hr]
  exact dropMoves_of_none (s.setDie d st) d hm hp

theorem heartbeat_of_none (s : State) (d : Nat) (hup : s.dieUp d = true) (hm : s.moves = []) (hr : s.heldReqs = [])
    (hp : ∀ c ∈ s.ctxs, c.paths = []) : s.heartbeat d = s.setDie d .hung :=
  (if_pos hup).trans (leaveUp_of_none s d .hung hm hr hp)

/-- Change which boundaries are up. -/
def setBup (s : State) (m : BitVec 4) : State := { s with bup := m }

theorem boundaryDown_of_none (s : State) (b : Nat) (ht : s.slate.tgt = none) (hm : s.moves = []) (hp : ∀ c ∈ s.ctxs, c.paths = [])
    (hl : ∀ k ∈ s.core :: s.others, k.link = none) : s.boundaryDown b = setBup s (s.bup &&& ~~~(1#4 <<< (b % 4))) := by
  have hlost := losePaths_of_none (setBup s (s.bup &&& ~~~(1#4 <<< (b % 4)))) (fun x => crosses x.1 x.2.1 x.2.2 b) hm hp hl
  exact (congrArg State.targetUpdate hlost).trans (targetUpdate_of_none _ ht)

/-- A boundary that may come up changes nothing but the boundaries. -/
theorem raiseBoundary_bup (s : State) (b : Nat) : ∃ m, s.raiseBoundary b = setBup s m := by
  unfold State.raiseBoundary
  split
  · exact ⟨_, rfl⟩
  · exact ⟨s.bup, rfl⟩

theorem raiseBoundary_up (s : State) (b : Nat) (h0 : s.islandUp b = true) (h1 : s.islandUp (b + 1) = true) :
    s.raiseBoundary b = setBup s (s.bup ||| (1#4 <<< (b % 4))) :=
  if_pos (by simp [h0, h1])

theorem settled_setBup {s : State} (h : Settled s) (m : BitVec 4) : Settled (setBup s m) := settled_congr h rfl rfl

theorem boundaryBack_of_settled {s : State} (b : Nat) (h : Settled s) (h0 : s.islandUp b = true) (h1 : s.islandUp (b + 1) = true) :
    s.boundaryBack b = setBup s (s.bup ||| (1#4 <<< (b % 4))) := by
  unfold State.boundaryBack
  rw [raiseBoundary_up s b h0 h1]
  exact pathBack_of_settled (settled_setBup h _)

/-- An island comes up, and its bit of READY with it. -/
def raiseIsland (s : State) (d : Nat) : State :=
  (s.setIsland d { s.islands[d % 4]'(Nat.mod_lt _ (by decide)) with up := true } s.bup).setReady (d % 4) true

theorem raiseIsland_ready (s : State) (d : Nat) : (raiseIsland s d).ready.getLsbD (d % 4) = true := setReady_ready _ _ (by omega)

/-- An island that returns where nothing waits for it: it is up, and its boundaries may come up. -/
theorem islandReturn_of_settled {s : State} (d : Nat) (h : Settled s) (hd : s.islandUp d = false) :
    ∃ m, s.islandReturn d = setBup (raiseIsland s d) m := by
  obtain ⟨m, hm⟩ := raiseBoundary_bup (raiseIsland s d) d
  obtain ⟨n, hn⟩ := raiseBoundary_bup (setBup (raiseIsland s d) m) (d + 3)
  have hs : Settled (setBup (setBup (raiseIsland s d) m) n) := settled_setBup (settled_setBup (settled_congr h rfl rfl) m) n
  refine ⟨n, ?_⟩
  calc s.islandReturn d
      = ((((raiseIsland s d).raiseBoundary d).raiseBoundary (d + 3)).releaseHolds (.island d)).pathBack := by
        simp only [State.islandReturn, raiseIsland, hd, Bool.false_eq_true, if_false]
    _ = ((setBup (setBup (raiseIsland s d) m) n).releaseHolds (.island d)).pathBack := by rw [hm, hn]
    _ = setBup (setBup (raiseIsland s d) m) n := by rw [releaseHolds_of_settled hs, pathBack_of_settled hs]

/-- Settles O56: each write and event by the lemma of its operation. -/
theorem hostWritesAndBringUpTakeEffect : Obligations.HostWritesAndBringUpTakeEffect := by
  intro q v log2n p w i d e s x n gives still settled queueBecomes
  have hd : d.toNat % 4 = d.toNat := Nat.mod_eq_of_lt d.isLt
  refine ⟨fun hup => ⟨?_, ?_, ?_, ?_, ?_, ?_, ?_, ?_, ?_, ?_, ?_, ?_, ?_, ?_, ?_, ?_, ?_⟩, ?_, ?_, ?_, ?_, ?_, ?_, ?_, ?_, ?_, ?_, ?_, ?_⟩
  · exact host_gives hup rfl (writeQtail_becomes s q.toNat v)
  · exact host_gives hup rfl (enableQueue_becomes s q.toNat log2n p)
  · exact host_gives hup rfl (putQueue_becomes s q.toNat _)
  · exact host_gives hup rfl (putQueue_becomes s q.toNat _)
  · exact host_gives hup rfl (putQueue_becomes s q.toNat _)
  · exact host_gives hup rfl (hostRegister_qbase s q w ▸ putQueue_becomes s q.toNat _)
  · exact host_gives hup rfl (hostRegister_qctl s q w ▸ writeQctl_becomes s q.toNat w)
  · exact host_gives hup rfl rfl
  · refine host_gives hup rfl ?_
    rw [hostRegister_qos]
    exact ⟨by simp, rfl, rfl⟩
  · exact host_gives hup rfl rfl
  · exact host_gives hup rfl ⟨partField_setPartField s p 12 _, rfl⟩
  · intro hw
    refine host_gives hup rfl ?_
    rw [hostField_age, if_neg hw]
    exact partField_setPartField s p 5 w
  · exact host_gives hup rfl ((hostField_age s p 0).trans (if_pos rfl))
  · exact hostRead_field s p 12 hup
  · exact hostRead_qbase s q hup
  · exact hostRead_ready s hup
  · exact hostConfig_revision s hup
  · exact fun hdown k => ⟨hostRead_of_down s k hdown, hostConfig_of_down s k hdown⟩
  · exact fun hdown k => ⟨host_ignored hdown rfl, host_ignored hdown rfl, host_ignored hdown rfl, host_ignored hdown rfl⟩
  · exact fun h17 h16 ha => ⟨_, rfl, timeMessage_takes s w h17 h16 ha⟩
  · exact ⟨_, rfl, rfl, rfl, rfl, rfl, rfl, rfl, rfl, rfl, rfl, rfl, rfl, rfl⟩
  · exact fun _ hi _ hr => congrArg Host.Outcome.next (functionReady_early s i.toNat hi hr)
  · intro h0 hi hl hr
    refine ⟨_, congrArg Host.Outcome.next (functionReady_late s i.toNat h0 hi hl hr), rfl, rfl, rfl⟩
  · intro hst hup hready hc
    have hmay : s.dieMayRise d.toNat = true := by
      simpa [State.dieMayRise, n] using ⟨hup, hready⟩
    exact ⟨_, congrArg Host.Outcome.next (dieReady_rises s d hst hmay hc), setDie_st s d .up, setReady_ready _ _ (by omega), rfl⟩
  · rintro hup ⟨hm, hr, hp⟩
    exact ⟨_, congrArg Host.Outcome.next (heartbeat_of_none s n hup hm hr hp), setDie_st s d .hung, rfl, rfl⟩
  · rintro ⟨hm, hr, hp⟩
    exact ⟨_, congrArg Host.Outcome.next (leaveUp_of_none s n .off hm hr hp), setDie_st s d .off, rfl, rfl⟩
  · rintro ht ⟨hm, -, hp⟩ hl
    exact ⟨_, rfl, (boundaryDown_of_none s n ht hm hp hl).trans (by rw [hd]; rfl)⟩
  · exact fun hs h0 h1 => ⟨_, rfl, (boundaryBack_of_settled n hs h0 h1).trans (by rw [hd]; rfl)⟩
  · intro hs h0
    obtain ⟨m, hm⟩ := islandReturn_of_settled n hs h0
    have hr := raiseIsland_ready s d.toNat
    rw [hd] at hr
    exact ⟨_, congrArg Host.Outcome.next hm, setIsland_up s n _ s.bup, hr, rfl, rfl, rfl⟩

end Sys2Proof.Machine
end

section
/-!
Where the model can stop (obligation O19). Every meaning ends in one of few shared ways, `perform` and its like, or answers a next state
outright; each of these goes on whatever it is given, so `exec` does. A step therefore stops only by the one choice that is no meaning,
`Choice.noMemory`, which only the unit at the program counter gives.
-/

namespace Sys2Proof.Machine

open Sys2Proof

/-- The machine does not stop: the outcome is a next state, neither a fault nor a refusal. -/
def Continues (o : Out) : Prop := ∃ t, o = .next t

theorem next_continues (t : State) : Continues (.next t) := ⟨t, rfl⟩

/-! The ways an instruction ends. -/

section Continues

variable {unit : Nat} {g : Guard} {len : Nat} {s : State}

theorem ite_continues {c : Prop} [Decidable c] {o p : Out} (ho : Continues o) (hp : Continues p) : Continues (if c then o else p) := by
  split
  · exact ho
  · exact hp

theorem perform_continues {body : State → Except Stop State} : Continues (perform unit g len body s) := by
  refine ite_continues ?_ (next_continues _)
  cases body s with
  | ok t => exact next_continues _
  | error st => exact next_continues _

theorem performPure_continues {body : State → State} : Continues (performPure g len body s) := ite_continues (next_continues _) (next_continues _)

theorem runFate_continues {body : State → Except Stop Fate} : Continues (runFate unit g len body s) := by
  refine ite_continues ?_ (next_continues _)
  cases body s with
  | ok f => exact next_continues _
  | error st => exact next_continues _

theorem scalarOp_continues {d : SReg} {f : State → Word} : Continues (scalarOp g len d f s) := performPure_continues

theorem scalarFlags_continues {d : SReg} {f : State → Word × Flags} : Continues (scalarFlags g len d f s) := performPure_continues

theorem predOp_continues {d : PReg} {f : State → Bool} : Continues (predOp g len d f s) := performPure_continues

theorem performReader_continues {slots : List WSlot} {body : State → Except Stop State} : Continues (performReader g slots body s) := by
  refine ite_continues ?_ (next_continues _)
  cases body s with
  | ok t => exact next_continues _
  | error st => exact next_continues _

theorem performLoad_continues {f : Fmt} {c : BitVec 6} {cl : BitVec 4} {d : WSlot} {ea : Word} : Continues (performLoad g len f c cl d ea s) := by
  refine ite_continues ?_ (next_continues _)
  cases s.slotImage f c ea s.mr.tv (Space.ofCode s.mr.ts) s.mr.t.toNat with
  | ok v => exact next_continues _
  | error st => exact next_continues _

theorem noteScld_continues {o : Out} (ho : Continues o) : Continues (o.noteScld s) := by
  obtain ⟨t, rfl⟩ := ho
  exact next_continues _

end Continues

theorem execRep_continues (step : BitVec 4) (mask : BitVec 3) (cnt : BitVec 7) (s : State) : Continues (execRep step mask cnt s) := by
  unfold execRep
  cases s.fetchAt (s.img.pc + 4) with
  | error st => exact next_continues _
  | ok ps =>
    dsimp only
    cases repLegal s.levelS step mask cnt (rawOfParcels ps) with
    | error e => exact next_continues _
    | ok w => exact ite_continues (next_continues _) (next_continues _)

/-! Every arm of the dispatch, by the way it ends. -/

/-- Where `exec` names a meaning (`dsimp only`), that meaning ends in a way that goes on; every other arm answers a next state itself. -/
theorem exec_continues (i : Instr) (s : State) : Continues (exec i s) := by
  cases i with
  | add | add64 | add96 | sub | sub64 | sub96 | mul | mul64 | mul96 | div | div64 | div96 | rem | rem64 | rem96 =>
    dsimp only [exec]
    exact scalarFlags_continues
  | mulh | mulh64 | mulh96 | and | and64 | and96 | or | or64 | or96 | xor | xor64 | xor96 | andn | andn64 | andn96 | shl | shl64 | shl96 | shr
  | shr64 | shr96 | sra | sra64 | sra96 | rol | rol64 | rol96 | clz | clz64 | ctz | ctz64 | popc | popc64 | brev | brev64 | min | min64 | min96
  | max | max64 | max96 | sel | sel64 | sel96 | mov | mov64 | movi | movi96 | addi | lea | lea64 | lea96 =>
    dsimp only [exec]
    exact scalarOp_continues
  | cmp | cmp64 | cmp96 | pand | pand64 | por | por64 | pxor | pxor64 | pnot | pnot64 =>
    dsimp only [exec]
    exact predOp_continues
  | br | jmp | jmp64 | jmp96 | call | ret | ret64 | loop | endTask | endTask64 | phase | phaseLit | bar | barLit | sstep | sstepLit | waitm
  | waitmLit | cswap | yield | park | pgunmapGrant | pgunmapGrantLit | jrewind | trap | trapLit | eret | partcfg | partcfgLit | resetdom
  | rdtime | rdlat | wfe | wfeLit | haltc | recast | recastLit | ringstep | ringstepLit | slcut | slwait | slrestore | slrestoreLit =>
    dsimp only [exec]
    exact runFate_continues
  | rep =>
    dsimp only [exec]
    exact execRep_continues ..
  | nop | nop64 | mand | mor | mxor | mnot | mpopc | mfirst | rngseed | rngseedLit | mzero | wstat | mstat | wakeat | wakeatLit | slstat =>
    dsimp only [exec]
    exact performPure_continues
  | lds | lds64 | lds96 | sts | sts64 | sts96 | csrr | csrw | shld | shldLit | shst | shstLit | shset | shsetLit | shget | shmov | openR | openW
  | openG | adv | advLit | close | drain | pld | pldLit | reside | resideLit | lookahead | lookaheadLit | posr | qcnt | vld | vldLit | vst
  | vstLit | pref | prefLit | vadd | vaddLit | vsub | vsubLit | vmul | vmulLit | vfma | vfms | vnfma | vmin | vminLit | vmax | vmaxLit | vabs
  | vneg | vand | vandLit | vor | vorLit | vxor | vxorLit | vnot | vshl | vshlLit | vshr | vshrLit | vsra | vsraLit | vrol | vrolLit | vmulhi
  | vmulhiLit | vcmp | vcmpLit | vsel | vmov | vsplat | vsplatLit | viota | viotaLit | vcvt | vwadd | vwmul | vnarrow | vnarrowLit | vredsum
  | vredmax | vredmin | vscan | vperm | vslide | vslideLit | vzip | vunzip | vcompress | vexpand | vins | vinsLit | vext | vextLit | vrcp | vrsq
  | vsqrt | vexp2 | vlog2 | vtanh | qcvt | qdcvt | lq | lqLit | ldq | ldqLit | lqrep | lqrepLit | lstat | lstatLit | rngget | scpush | scpushLit
  | scpop | scpopLit | mdrain | mdrainLit | mcfg | mcfgLit | wtab | wtabLit | copy | copyLit | copyn | gather | scatter | xpose | xposeLit
  | cfill | cfillLit | vpush | vpushLit | cwb | cwbLit | cinv | cinvLit | fence | fenceLit | aadd | aaddLit | aand | aandLit | aor | aorLit
  | axor | axorLit | amin | aminLit | amax | amaxLit | axchg | axchgLit | acas | acasLit | vaor | vaadd | vamax | ownGive | ownTake | ownTest
  | signal | signalLit | ctxnew | ctxnewLit | ctxfree | ctxq | ctxset | ctxsetLit | launch | launchLit | pgmap | pgmapLit | pgunmap | pgpin
  | pgunpin | pgmove | pghint | kvalloc | kvallocLit | kvfree | kvfreeLit | kvappend | kvinval | kvinvalLit | jbegin | jbeginLit | jcommit
  | scrub | qoscfg | qoscfgLit | intpost | intpostLit | tlbinv | tlbinvLit | lnkstat | ristat | nsend | nfetch | slcommit | slcommitLit
  | errwatch | errwatchLit | memhint | memstat =>
    dsimp only [exec]
    exact perform_continues
  | scld | scldLit =>
    dsimp only [exec]
    exact noteScld_continues perform_continues
  | mma | mmas | mmag | mmal =>
    dsimp only [exec]
    exact performReader_continues
  | wload | wloadLit =>
    dsimp only [exec]
    exact performLoad_continues
  | qtailWrite | queueEnable | queueDisable | ovrClear | rerrClear | hostPartitionWrite | podidWrite | pcapWrite | hostRegisterWrite
  | hostMemAccess | ualinkRequestIn | remoteRmaIn | timeMessage | packageReset | functionReady | computeDieReady | heartbeatTimeout
  | diePowerOff | boundaryDown | islandReturn | groupRequest | groupDrainDone | groupDrainTimeout | groupRetargeted | groupTrained
  | groupTrainFailed | taskStart | graphStart | createRecord | freeRecord | graphNodeStart | taskComplete | completionWordWrite | place
  | standbyLoad | standbyLoadDone | sliceEnd | preempt | swapOut | swapOutDone | wakeTimeReached | moveStart | moveComplete | demote
  | wakeRecallTrigger | hotPagePromote | hotWindowExpire | compact | streamFetch | streamWrite | waitmRecheck | waitmParkTimeout | wfeWake
  | ringstepTimeout | refreshDue | refreshEnd | paybackStart | allbankStart | allbankEnd | criticalTempAssert | selfrefEnter
  | criticalTempDeassert | selfrefExitStart | exitComplete | errorCorrected | watchWindowExpire | cutStart | stopTimeout | stopDone | copyDone
  | drainDone | cutFailure | restoreDone | boundaryUp | recordAccept | restoreFailure | perBankRefreshStart | podBarrierArrival
  | illegalEncoding | fetchFault =>
    exact next_continues _

/-! The choice of a step. -/

/-- A REP unit in progress has been fetched, so it never finds that no memory answers. -/
theorem here_ne_noMemory (r : Rep) (levelS : Bool) (k pa : Nat) : r.here levelS k ≠ .noMemory pa := by
  unfold Rep.here
  split <;> exact Choice.noConfusion

/-- The unit at the program counter lies in no memory tier only where its fetch translates to such a frame (R16). -/
theorem unitHere_noMemory {s : State} {pa : Nat} (h : s.unitHere = .noMemory pa) :
    s.translate .fetch s.img.pc.toNat = .ok (.mem pa) ∧ tierHas pa = false := by
  unfold State.unitHere at h
  split at h
  case h_1 a ha =>
    split at h
    case isTrue ht =>
      cases h
      exact ⟨ha, by simpa using ht⟩
    case isFalse =>
      split at h
      · cases h
      · split at h <;> cases h
  all_goals cases h

/-- Events, idle cores and REP units in progress never find that no memory answers: only a fetch at the program counter does. -/
theorem choose_noMemory {s : State} {pa : Nat} (h : s.choose = .noMemory pa) :
    s.translate .fetch s.img.pc.toNat = .ok (.mem pa) ∧ tierHas pa = false := by
  unfold State.choose at h
  split at h
  · split at h <;> cases h
  · split at h
    · cases h
    · split at h
      · exact absurd h (here_ne_noMemory _ _ _ _)
      · exact unitHere_noMemory h

/-- A step goes on, or its choice is that no memory answers and it stops with that fault. -/
theorem step_continues_or_noMemory (s : State) :
    Continues (step s) ∨ ∃ pa, s.tick.choose = .noMemory pa ∧ step s = .fault (.noSuchAddress pa) := by
  rw [step_cases]
  cases s.tick.choose with
  | idle => exact .inl (next_continues _)
  | skip => exact .inl (next_continues _)
  | event i => exact .inl (exec_continues _ _)
  | run d =>
    dsimp only
    cases s.tick.startError d with
    | none => exact .inl (exec_continues _ _)
    | some e => exact .inl (next_continues _)
  | illegal => exact .inl (exec_continues _ _)
  | fetchFault => exact .inl (exec_continues _ _)
  | noMemory pa => exact .inr ⟨pa, rfl, rfl⟩

/-- Settles O19: every arm of the dispatch goes on, and the one choice of a step that does not is a fetch outside the memory tiers. -/
theorem stepsStopOnlyOutsideTheMemoryTiers : Obligations.StepsStopOnlyOutsideTheMemoryTiers := by
  refine ⟨exec_continues, fun s => ?_⟩
  obtain hnext | ⟨pa, hc, hstop⟩ := step_continues_or_noMemory s
  · exact .inl hnext
  · obtain ⟨htr, htier⟩ := choose_noMemory hc
    exact .inr ⟨pa, htr, htier, hstop⟩

end Sys2Proof.Machine
end

section
/-!
REP and the parcels behind it (R32, R39, R47; obligation O16). `decodeParcels` asks every other instruction for as many parcels as its first one
says, but reads REP from the first alone.
-/

namespace Sys2Proof

/-- Refutes O16: a REP unit is read from its first parcel alone, so parcels after it are accepted and not encoded again. -/
theorem not_decodedParcelsEncodeBack : ¬ Obligations.DecodedParcelsEncodeBack := by
  unfold Obligations.DecodedParcelsEncodeBack
  intro h
  have hread : decodeParcels true [3, 0] = .ok (.rep 0 0 0) := by decide
  have hwrite : encodeParcels (.rep 0 0 0) = some [3] := by decide
  obtain ⟨hback, -⟩ := h true [3, 0] (.rep 0 0 0) hread
  exact absurd (hwrite.symm.trans hback) (by decide)

end Sys2Proof
end

section
/-!
What a step does (R29, R40, R47, R315, R354, R427; obligations O17 and O18): the choice of each kind of step, told once by what stands in the
state, and what the fetch of a unit notes.
-/

namespace Sys2Proof.Machine

open Sys2Proof

/-! The choice (`State.choose`). -/

section Choose

variable {s : State}

theorem choose_event {i : Instr} {rest : List Instr} (h : s.events = i :: rest) (hi : i.isEvent = true) : s.choose = .event i := by
  simp only [State.choose, h, hi, if_true]

theorem choose_idle (h : s.events = []) (hruns : s.coreRuns = false) : s.choose = .idle := by
  simp only [State.choose, h, hruns, Bool.not_false, if_true]

theorem choose_here {r : Rep} (h : s.events = []) (hruns : s.coreRuns = true) (hrep : s.core.rep = some r) :
    s.choose = r.here s.levelS s.repIdx := by
  simp only [State.choose, h, hruns, hrep, Bool.not_true, Bool.false_eq_true, if_false]

theorem choose_unitHere (h : s.events = []) (hruns : s.coreRuns = true) (hrep : s.core.rep = none) : s.choose = s.unitHere := by
  simp only [State.choose, h, hruns, hrep, Bool.not_true, Bool.false_eq_true, if_false]

theorem here_ok {r : Rep} {levelS : Bool} {k : Nat} {w : Row} (h : repLegal levelS r.step r.mask r.cnt (rawOfParcels r.body) = .ok w) :
    r.here levelS k = .run (.one w ((rawOfParcels r.body).repeated r.step r.mask k)) := by
  simp only [Rep.here, h]

theorem unitHere_ok {pa : Nat} {ps : List Parcel} {d : Decoded} (htr : s.translate .fetch s.img.pc.toNat = .ok (.mem pa))
    (htier : tierHas pa = true) (hps : s.fetchAt s.img.pc = .ok ps) (hd : decodeParcels s.levelS ps = .ok d) : s.unitHere = .run d := by
  simp only [State.unitHere, htr, htier, hps, hd, Bool.not_true, Bool.false_eq_true, if_false]

theorem unitHere_illegal {pa : Nat} {ps : List Parcel} {e : Illegal} (htr : s.translate .fetch s.img.pc.toNat = .ok (.mem pa))
    (htier : tierHas pa = true) (hps : s.fetchAt s.img.pc = .ok ps) (he : decodeParcels s.levelS ps = .error e) : s.unitHere = .illegal := by
  simp only [State.unitHere, htr, htier, hps, he, Bool.not_true, Bool.false_eq_true, if_false]

theorem unitHere_fetchFault {st : Stop} (htr : s.translate .fetch s.img.pc.toNat = .error st) : s.unitHere = .fetchFault := by
  simp only [State.unitHere, htr]

end Choose

/-! The step of each choice. -/

section Step

variable {s : State}

theorem step_run {d : Decoded} (h : s.tick.choose = .run d) :
    (s.tick.startError d = none → step s = exec d.instr s.tick.noteFetch) ∧
    ∀ unit e, s.tick.startError d = some (unit, e) → step s = .next (s.tick.deliver unit e) := by
  have hstep := step_cases s
  rw [h] at hstep
  refine ⟨fun hnone => ?_, fun unit e hsome => ?_⟩
  · simpa only [hnone] using hstep
  · simpa only [hsome] using hstep

theorem step_event {i : Instr} (h : s.tick.choose = .event i) : step s = exec i s.tick.popEvent := by rw [step_cases, h]
theorem step_idle (h : s.tick.choose = .idle) : step s = .next s.tick := by rw [step_cases, h]
theorem step_illegal (h : s.tick.choose = .illegal) : step s = exec .illegalEncoding s.tick := by rw [step_cases, h]
theorem step_fetchFault (h : s.tick.choose = .fetchFault) : step s = exec .fetchFault s.tick := by rw [step_cases, h]

end Step

/-! What stops an instruction before it performs. -/

theorem startError_of_writesHeld {s : State} {k : Nat} (d : Decoded) (h : s.writesHeld = some k) :
    s.startError d = some (unitSQ, .hold (.stack k) false) := by
  simp only [State.startError, h]

theorem startError_of_no_writesHeld {s : State} (d : Decoded) (h : s.writesHeld = none) : s.startError d = s.operandError d := by
  simp only [State.startError, h]

/-! What the fetch of a unit notes. -/

/-- A repetition of a REP unit is not fetched again. -/
theorem noteFetch_of_rep {s : State} {r : Rep} (h : s.core.rep = some r) : s.noteFetch = s := by
  simp only [State.noteFetch, h, Option.isSome_some, if_true]

theorem foldl_learn_tlb (ps : List Nat) (s : State) : ps.foldl (fun t pa => t.learn pa 4) s =
    { s with core := { s.core with tlb := (ps.foldl (fun t pa => t.learn pa 4) s).core.tlb } } := by
  induction ps generalizing s with
  | nil => rfl
  | cons pa ps ih =>
    rw [List.foldl_cons, ih]
    rfl

theorem noteFetch_tlb (s : State) :
    s.noteFetch = { s with pages := s.noteFetch.pages, core := { s.core with tlb := s.noteFetch.core.tlb } } := by
  unfold State.noteFetch
  split
  · rfl
  · split
    · rfl
    · dsimp only
      rw [foldl_learn_tlb]
      rfl

/-- A page but for its access record. -/
def Page.unread (p : Page) : Page := { p with last := 0, heat := 0 }

theorem noteLines_unread (s : State) (lines : List Nat) : (s.noteLines lines).pages.map Page.unread = s.pages.map Page.unread := by
  simp only [State.noteLines, List.map_map]
  refine List.map_congr_left fun p _ => ?_
  dsimp only [Function.comp]
  split <;> rfl

theorem noteFetch_unread (s : State) : s.noteFetch.pages.map Page.unread = s.pages.map Page.unread := by
  unfold State.noteFetch
  split
  · rfl
  · split
    · rfl
    · dsimp only
      rw [noteLines_unread, foldl_learn_tlb]

/-- Settles O17: the choice is the unit that the parcels decode to, and its fetch touches the access records and the translations alone. -/
theorem stepRunsTheDecodedInstruction : Obligations.StepRunsTheDecodedInstruction := by
  unfold Obligations.StepRunsTheDecodedInstruction
  intro s ps d pa t u hevents hruns hrep htr htier hps hd
  have hchoose : t.choose = .run d := (choose_unitHere hevents hruns hrep).trans (unitHere_ok htr htier hps hd)
  obtain ⟨hexec, hstop⟩ := step_run hchoose
  exact ⟨hexec, hstop, fun k => startError_of_writesHeld d, startError_of_no_writesHeld d, writesHeld_none t _, operandError_none t d,
    noteFetch_tlb t, noteFetch_unread t⟩

/-! Time and turns. -/

theorem focus_ptc (s : State) (id : BitVec 10) : (s.focus id).ptc = s.ptc := by
  unfold State.focus
  split <;> rfl

theorem focus_fresh (s : State) (id : BitVec 10) : (s.focus id).fresh = s.fresh := by
  unfold State.focus
  split <;> rfl

theorem focus_clock (s : State) (id : BitVec 10) : (s.focus id).clock = s.clock := by
  unfold State.focus
  split <;> rfl

/-- Taking a turn brings a core to the front; the time is what `passTime` makes it. -/
theorem tick_time (s : State) : s.tick.ptc = s.passTime.ptc ∧ s.tick.fresh = s.passTime.fresh ∧ s.tick.clock = s.passTime.clock := by
  unfold State.tick
  dsimp only
  split
  · exact ⟨rfl, rfl, rfl⟩
  · exact ⟨focus_ptc _ _, focus_fresh _ _, focus_clock _ _⟩

theorem popEvent_of_cons {s : State} {i : Instr} {rest : List Instr} (h : s.events = i :: rest) : s.popEvent = { s with events := rest } := by
  simp only [State.popEvent, h, List.drop_one, List.tail_cons]

/-- Settles O18: each kind of step is its choice. -/
theorem stepPerformsEventsAndRepetitions : Obligations.StepPerformsEventsAndRepetitions := by
  unfold Obligations.StepPerformsEventsAndRepetitions
  intro s t
  obtain ⟨hptc, hfresh, hclock⟩ := tick_time s
  refine ⟨⟨hptc, hfresh, hclock, tick_mem s⟩, fun i rest hevents hi => ?_, fun hevents hruns => step_idle (choose_idle hevents hruns),
    fun r w hevents hruns hrep hw => ?_, fun pa ps e hevents hruns hrep htr htier hps he => ?_, fun st hevents hruns hrep htr => ?_⟩
  · rw [step_event (choose_event hevents hi), popEvent_of_cons hevents]
  · have hrun := step_run ((choose_here hevents hruns hrep).trans (here_ok hw))
    rwa [noteFetch_of_rep hrep] at hrun
  · exact step_illegal ((choose_unitHere hevents hruns hrep).trans (unitHere_illegal htr htier hps he))
  · exact step_fetchFault ((choose_unitHere hevents hruns hrep).trans (unitHere_fetchFault htr))

end Sys2Proof.Machine
end
